-- ==== Sys2Proof/Word.lean ====
section
/-! DEFINITION. The machine's words and the sparse maps that memory and the other keyed stores are held in. -/

namespace Sys2Proof

/-- A register word: 64 bits, bit 0 least significant (R3). -/
abbrev Word := BitVec 64

/-- A byte of memory. -/
abbrev Byte := BitVec 8

/-- A sparse map from a key to a value, in rising key order, with no entry at the default. -/
abbrev SMap (α : Type) := List (Nat × α)

/-- What a map holds at a key; `d` where nothing is listed. -/
def SMap.get {α : Type} (d : α) : SMap α → Nat → α
  | [], _ => d
  | e :: m, n => if n = e.1 then e.2 else SMap.get d m n

/-- Insert or replace, keeping the keys in order. -/
def SMap.put {α : Type} : SMap α → Nat → α → SMap α
  | [], n, v => [(n, v)]
  | e :: m, n, v =>
    if n < e.1 then (n, v) :: e :: m
    else if n = e.1 then (n, v) :: m
    else e :: SMap.put m n v

/-- Remove a key. -/
def SMap.del {α : Type} (m : SMap α) (n : Nat) : SMap α := m.filter (fun e => e.1 != n)

/-- Write a key, removing the entry where the value is the default. -/
def SMap.set {α : Type} [DecidableEq α] (d : α) (m : SMap α) (n : Nat) (v : α) : SMap α :=
  if v = d then m.del n else m.put n v

/-- Remove every key of a range. -/
def SMap.clear {α : Type} (m : SMap α) (lo hi : Nat) : SMap α :=
  m.filter (fun e => decide (e.1 < lo) || decide (hi ≤ e.1))

end Sys2Proof
end

