-- ==== Sys2Proof/Config.lean ====
section
/-! DEFINITION. What one implementation fixes and the free values: constants with no body, about which nothing can be proved. -/

namespace Sys2Proof.Config

/-- A free word, one for each reading of the counter in State (log 6). -/
opaque freeWord : Nat → BitVec 64

/-- The value of VSQRT, VEXP2, VRCP or VRSQRT before it is held to the bound of R364: the operation code (f6) and the operand (log 9). -/
opaque approx : Nat → BitVec 32 → BitVec 32

/-- The boot ROM's check of a slot image (R25): the SLOTA code 1 to 5 of R28 for the image's bytes, the fused minimum apart (log 8). -/
opaque imageResult : List (Nat × BitVec 8) → Nat

/-- The security version a slot image's header carries (R25, log 8). -/
opaque imageVersion : List (Nat × BitVec 8) → Nat

/-- The fused minimum security version (R25, log 8). -/
opaque fusedMinimum : Nat

/-- Whether a slot's header is well formed at COMMIT (R46, log 8). -/
opaque headerGood : List (Nat × BitVec 8) → Bool

/-- Whether the flash reports an error for a command (RESULT 3 of R45, log 8). -/
opaque flashError : Nat → Bool

/-- The SHA3-256 digest of a slot's image (R25, R90, log 8). -/
opaque imageDigest : List (Nat × BitVec 8) → List (BitVec 8)

/-- SHA3-256 over bytes (R90, log 8). -/
opaque sha3 : List (BitVec 8) → List (BitVec 8)

/-- The ML-DSA-44 public key derived at boot from the booted image's digest (R90, log 8). -/
opaque publicKey : List (BitVec 8) → List (BitVec 8)

/-- The ML-DSA-44 signature over a digest under the boot-derived key (R90, log 8). -/
opaque sign : List (BitVec 8) → List (BitVec 8) → List (BitVec 8)

/-- The body of an SPDM answer: request code and request bytes (R80, log 8). -/
opaque spdmAnswer : Nat → List (BitVec 8) → List (BitVec 8)

/-- The answer to a PLDM request of type 0 (base), or of type 2 other than a numeric sensor's read: the type, the error log that the event log shows, and the request (R80, log 8). -/
opaque pldmAnswer : Nat → List (BitVec 8) → List (BitVec 8) → List (BitVec 8)

/-- The low eight coefficients of the polynomial of degree 8 that fixes GF(2^8) for FEC (R62, log 8); a primitive one. -/
opaque fecField : Nat

/-- The power of 2 that is the first root of the FEC generator (R62, log 8). -/
opaque fecRoot : Nat

/-- The fixed hash that picks a port within a group (R72, log 8): class, destination package, hashed address word; an index. -/
opaque portHash : Nat → Nat → Nat → Nat

end Sys2Proof.Config
end

