-- ==== Sys2Proof/Syntax.lean ====
section
/-! DEFINITION. The instructions: one constructor for every row of the opcode table, the 194 instruction words first by name with their raw fields (R285), the 128 events. -/

namespace Sys2Proof

/-- An instruction or an event. Register fields hold their number 0 to 31, immediates their raw bits; `off` holds a branch or jump offset in instructions (R286), `me` and `mk` mask enable and mask register. What an event's occurrence carries stands in State.arg. -/
inductive Instr where
  /-- GIVE (R129). -/
  | give (rd rs1 rs2 rs3 : Nat)
  /-- ACCEPT (R133). -/
  | accept (rd rs1 : Nat)
  /-- LEND (R134). -/
  | lend (rd rs1 rs2 rs3 : Nat)
  /-- RETURN (R135). -/
  | returnLoan (rd rs1 : Nat)
  /-- RECLAIM (R136). -/
  | reclaim (rd rs1 : Nat)
  /-- OWNQ (R407). -/
  | ownq (rd rs1 rs2 rs3 : Nat)
  /-- SALVAGE (R138). -/
  | salvage (rd rs1 : Nat)
  /-- PULSE (R137). -/
  | pulse (rd : Nat)
  /-- ADD (R318). -/
  | add (rd rs1 rs2 : Nat)
  /-- SUB (R318). -/
  | sub (rd rs1 rs2 : Nat)
  /-- SLL (R318). -/
  | sll (rd rs1 rs2 : Nat)
  /-- SLT (R318). -/
  | slt (rd rs1 rs2 : Nat)
  /-- SLTU (R318). -/
  | sltu (rd rs1 rs2 : Nat)
  /-- XOR (R318). -/
  | xor (rd rs1 rs2 : Nat)
  /-- SRL (R318). -/
  | srl (rd rs1 rs2 : Nat)
  /-- SRA (R318). -/
  | sra (rd rs1 rs2 : Nat)
  /-- OR (R318). -/
  | or (rd rs1 rs2 : Nat)
  /-- AND (R318). -/
  | and (rd rs1 rs2 : Nat)
  /-- MUL (R318). -/
  | mul (rd rs1 rs2 : Nat)
  /-- MULH (R318). -/
  | mulh (rd rs1 rs2 : Nat)
  /-- MULHU (R318). -/
  | mulhu (rd rs1 rs2 : Nat)
  /-- DIV (R319). -/
  | div (rd rs1 rs2 : Nat)
  /-- DIVU (R319). -/
  | divu (rd rs1 rs2 : Nat)
  /-- REM (R319). -/
  | rem (rd rs1 rs2 : Nat)
  /-- REMU (R319). -/
  | remu (rd rs1 rs2 : Nat)
  /-- MIN (R318). -/
  | min (rd rs1 rs2 : Nat)
  /-- MINU (R318). -/
  | minu (rd rs1 rs2 : Nat)
  /-- MAX (R318). -/
  | max (rd rs1 rs2 : Nat)
  /-- MAXU (R318). -/
  | maxu (rd rs1 rs2 : Nat)
  /-- ROTL (R318). -/
  | rotl (rd rs1 rs2 : Nat)
  /-- ROTR (R318). -/
  | rotr (rd rs1 rs2 : Nat)
  /-- CLZ (R320). -/
  | clz (rd rs1 : Nat)
  /-- CTZ (R320). -/
  | ctz (rd rs1 : Nat)
  /-- POPC (R320). -/
  | popc (rd rs1 : Nat)
  /-- SEXTW (R320). -/
  | sextw (rd rs1 : Nat)
  /-- ZEXTW (R320). -/
  | zextw (rd rs1 : Nat)
  /-- ADDI (R321). -/
  | addi (rd rs1 imm : Nat)
  /-- SLTI (R321). -/
  | slti (rd rs1 imm : Nat)
  /-- SLTIU (R321). -/
  | sltiu (rd rs1 imm : Nat)
  /-- XORI (R321). -/
  | xori (rd rs1 imm : Nat)
  /-- ORI (R321). -/
  | ori (rd rs1 imm : Nat)
  /-- ANDI (R321). -/
  | andi (rd rs1 imm : Nat)
  /-- SLLI (R321). -/
  | slli (rd rs1 amt : Nat)
  /-- SRLI (R321). -/
  | srli (rd rs1 amt : Nat)
  /-- SRAI (R321). -/
  | srai (rd rs1 amt : Nat)
  /-- LUI (R322). -/
  | lui (rd imm : Nat)
  /-- AUIPC (R322). -/
  | auipc (rd imm : Nat)
  /-- FADD (R325). -/
  | fadd (w rd rs1 rs2 rm : Nat)
  /-- FSUB (R325). -/
  | fsub (w rd rs1 rs2 rm : Nat)
  /-- FMUL (R325). -/
  | fmul (w rd rs1 rs2 rm : Nat)
  /-- FDIV (R325). -/
  | fdiv (w rd rs1 rs2 rm : Nat)
  /-- FSQRT (R325). -/
  | fsqrt (w rd rs1 rm : Nat)
  /-- FMADD (R325). -/
  | fmadd (w rd rs1 rs2 rm : Nat)
  /-- FMIN (R326). -/
  | fmin (w rd rs1 rs2 : Nat)
  /-- FMAX (R326). -/
  | fmax (w rd rs1 rs2 : Nat)
  /-- FCMP (R327). -/
  | fcmp (w rd rs1 rs2 pred : Nat)
  /-- FCVT (R328). -/
  | fcvt (w rd rs1 code rm : Nat)
  /-- FCLASS (R329). -/
  | fclass (w rd rs1 : Nat)
  /-- BEQ (R331). -/
  | beq (rs1 rs2 off : Nat)
  /-- BNE (R331). -/
  | bne (rs1 rs2 off : Nat)
  /-- BLT (R331). -/
  | blt (rs1 rs2 off : Nat)
  /-- BGE (R331). -/
  | bge (rs1 rs2 off : Nat)
  /-- BLTU (R331). -/
  | bltu (rs1 rs2 off : Nat)
  /-- BGEU (R331). -/
  | bgeu (rs1 rs2 off : Nat)
  /-- JAL (R333). -/
  | jal (rd off : Nat)
  /-- JT (R334). -/
  | jt (rs1 imm : Nat)
  /-- CALLT (R334). -/
  | callt (rd rs1 imm : Nat)
  /-- RET (R335). -/
  | ret
  /-- LPAD (R293). -/
  | lpad (label : Nat)
  /-- FMT (R314). -/
  | fmt (byte : Nat)
  /-- LB (R338). -/
  | lb (rd rs1 imm : Nat)
  /-- LH (R338). -/
  | lh (rd rs1 imm : Nat)
  /-- LW (R338). -/
  | lw (rd rs1 imm : Nat)
  /-- LD (R340). -/
  | ld (rd rs1 imm : Nat)
  /-- LBU (R338). -/
  | lbu (rd rs1 imm : Nat)
  /-- LHU (R338). -/
  | lhu (rd rs1 imm : Nat)
  /-- LWU (R338). -/
  | lwu (rd rs1 imm : Nat)
  /-- SB (R338). -/
  | sb (rs2 rs1 imm : Nat)
  /-- SH (R338). -/
  | sh (rs2 rs1 imm : Nat)
  /-- SW (R338). -/
  | sw (rs2 rs1 imm : Nat)
  /-- SD (R338). -/
  | sd (rs2 rs1 imm : Nat)
  /-- FLD_B (R342). -/
  | fldB (rd rs1 imm : Nat)
  /-- FLD_H (R342). -/
  | fldH (rd rs1 imm : Nat)
  /-- FLD_W (R342). -/
  | fldW (rd rs1 imm : Nat)
  /-- FLD_D (R342). -/
  | fldD (rd rs1 imm : Nat)
  /-- FLD_Q (R342). -/
  | fldQ (rd rs1 imm : Nat)
  /-- FLD_P (R345). -/
  | fldP (w rd rs1 rt : Nat)
  /-- FPF (R346). -/
  | fpf (rs1 imm : Nat)
  /-- FST_B (R343). -/
  | fstB (rs2 rs1 imm : Nat)
  /-- FST_H (R343). -/
  | fstH (rs2 rs1 imm : Nat)
  /-- FST_W (R343). -/
  | fstW (rs2 rs1 imm : Nat)
  /-- FST_D (R343). -/
  | fstD (rs2 rs1 imm : Nat)
  /-- FST_Q (R343). -/
  | fstQ (rs2 rs1 imm : Nat)
  /-- FST_P (R345). -/
  | fstP (w rs2 rs1 rt : Nat)
  /-- AMOADD (R348). -/
  | amoadd (rd rs1 rs2 ord pf scope : Nat)
  /-- AMOSWAP (R348). -/
  | amoswap (rd rs1 rs2 ord pf scope : Nat)
  /-- AMOCAS (R348). -/
  | amocas (rd rs1 rs2 ord pf scope : Nat)
  /-- AMOMIN (R348). -/
  | amomin (rd rs1 rs2 ord pf scope : Nat)
  /-- AMOMAX (R348). -/
  | amomax (rd rs1 rs2 ord pf scope : Nat)
  /-- AMOMINU (R348). -/
  | amominu (rd rs1 rs2 ord pf scope : Nat)
  /-- AMOMAXU (R348). -/
  | amomaxu (rd rs1 rs2 ord pf scope : Nat)
  /-- AMOAND (R348). -/
  | amoand (rd rs1 rs2 ord pf scope : Nat)
  /-- AMOOR (R348). -/
  | amoor (rd rs1 rs2 ord pf scope : Nat)
  /-- AMOXOR (R348). -/
  | amoxor (rd rs1 rs2 ord pf scope : Nat)
  /-- AMOFADD (R348). -/
  | amofadd (rd rs1 rs2 ord pf scope : Nat)
  /-- FENCE_ACQ (R252). -/
  | fenceAcq (scope : Nat)
  /-- FENCE_REL (R251). -/
  | fenceRel (scope : Nat)
  /-- FENCE_AR (R253). -/
  | fenceAr (scope : Nat)
  /-- BAR_INSTRUCTION (R351). -/
  | barInstruction (scope rs1 : Nat)
  /-- CMK (R354). -/
  | cmk (rd rs1 rs2 : Nat)
  /-- CEMPTY (R267). -/
  | cempty (rd rs1 rs2 : Nat)
  /-- CFILL (R271). -/
  | cfill (rd rs1 rs2 : Nat)
  /-- CTAG (R268). -/
  | ctag (rd rs1 rs2 : Nat)
  /-- CREVERT (R274). -/
  | crevert (rd rs1 rs2 : Nat)
  /-- VLD (R359). -/
  | vld (vd ra me mk : Nat)
  /-- VST (R359). -/
  | vst (vd ra me mk : Nat)
  /-- VLDS (R359). -/
  | vlds (vd ra vb me mk : Nat)
  /-- VSTS (R359). -/
  | vsts (vd ra vb me mk : Nat)
  /-- VLDX (R359). -/
  | vldx (vd ra vb me mk : Nat)
  /-- VSTX (R359). -/
  | vstx (vd ra vb me mk : Nat)
  /-- VAND (R367). -/
  | vand (vd va vb me mk : Nat)
  /-- VOR (R367). -/
  | vor (vd va vb me mk : Nat)
  /-- VXOR (R367). -/
  | vxor (vd va vb me mk : Nat)
  /-- VSLL (R367). -/
  | vsll (vd va vb me mk : Nat)
  /-- VSRL (R367). -/
  | vsrl (vd va vb me mk : Nat)
  /-- VSRA (R367). -/
  | vsra (vd va vb me mk : Nat)
  /-- VSEL (R368). -/
  | vsel (vd va vb me mk : Nat)
  /-- VSHUF (R367). -/
  | vshuf (vd va vb me mk : Nat)
  /-- VSLIDE (R368). -/
  | vslide (vd va vb me mk : Nat)
  /-- VBCAST (R369). -/
  | vbcast (vd rs me mk : Nat)
  /-- VEXT (R369). -/
  | vext (rd va lane : Nat)
  /-- VINS (R369). -/
  | vins (vd rs lane : Nat)
  /-- VCVT (R370). -/
  | vcvt (vd va src part me mk : Nat)
  /-- VADD (R362). -/
  | vadd (vd va vb me mk : Nat)
  /-- VSUB (R362). -/
  | vsub (vd va vb me mk : Nat)
  /-- VMUL (R362). -/
  | vmul (vd va vb me mk : Nat)
  /-- VMADD (R362). -/
  | vmadd (vd va vb me mk : Nat)
  /-- VNMSUB (R362). -/
  | vnmsub (vd va vb me mk : Nat)
  /-- VMIN (R362). -/
  | vmin (vd va vb me mk : Nat)
  /-- VMAX (R362). -/
  | vmax (vd va vb me mk : Nat)
  /-- VABS (R362). -/
  | vabs (vd va me mk : Nat)
  /-- VDIV (R362). -/
  | vdiv (vd va vb me mk : Nat)
  /-- VSQRT (R364). -/
  | vsqrt (vd va me mk : Nat)
  /-- VEXP2 (R364). -/
  | vexp2 (vd va me mk : Nat)
  /-- VRCP (R364). -/
  | vrcp (vd va me mk : Nat)
  /-- VRSQRT (R364). -/
  | vrsqrt (vd va me mk : Nat)
  /-- VCMP_EQ (R365). -/
  | vcmpEq (md va vb me mk : Nat)
  /-- VCMP_NE (R365). -/
  | vcmpNe (md va vb me mk : Nat)
  /-- VCMP_LT (R365). -/
  | vcmpLt (md va vb me mk : Nat)
  /-- VCMP_LE (R365). -/
  | vcmpLe (md va vb me mk : Nat)
  /-- VCMP_GT (R365). -/
  | vcmpGt (md va vb me mk : Nat)
  /-- VCMP_GE (R365). -/
  | vcmpGe (md va vb me mk : Nat)
  /-- VRED_SUM (R366). -/
  | vredSum (vd va me mk : Nat)
  /-- VRED_MAX (R366). -/
  | vredMax (vd va me mk : Nat)
  /-- VRED_MIN (R366). -/
  | vredMin (vd va me mk : Nat)
  /-- MAND (R371). -/
  | mand (md ma mb : Nat)
  /-- MOR (R371). -/
  | mor (md ma mb : Nat)
  /-- MXOR (R371). -/
  | mxor (md ma mb : Nat)
  /-- MNOT (R371). -/
  | mnot (md ma rs2 : Nat)
  /-- MPOP (R371). -/
  | mpop (rd ma rs2 : Nat)
  /-- MFIRST (R371). -/
  | mfirst (rd ma rs2 : Nat)
  /-- MSET (R371). -/
  | mset (md rs1 rs2 : Nat)
  /-- MGET (R371). -/
  | mget (rd ma rs2 : Nat)
  /-- BMANY (R372). -/
  | bmany (ma off : Nat)
  /-- BMNONE (R372). -/
  | bmnone (ma off : Nat)
  /-- MCLAIM (R379). -/
  | mclaim (rd sa cnt : Nat)
  /-- MREL (R379). -/
  | mrel (sa cnt : Nat)
  /-- MLOAD (R380). -/
  | mload (sa ra : Nat)
  /-- MLDW (R380). -/
  | mldw (sa ra : Nat)
  /-- MMUL (R381). -/
  | mmul (ac sa slb : Nat)
  /-- MZERO (R383). -/
  | mzero (ac : Nat)
  /-- MSTORE (R383). -/
  | mstore (ac ra : Nat)
  /-- MSTAT (R384). -/
  | mstat (rd sel : Nat)
  /-- CPY (R389). -/
  | cpy (rc rdst rsrc rlen tags : Nat)
  /-- CPYS (R387). -/
  | cpys (rc rdst rsrc rshape tags : Nat)
  /-- CPYW (R391). -/
  | cpyw (rd rs1 : Nat)
  /-- CSTAT (R391). -/
  | cstat (rd : Nat)
  /-- MPUSH (R393). -/
  | mpush (rd rdst rsrc rlen kind : Nat)
  /-- MGATH (R395). -/
  | mgath (rd rs1 : Nat)
  /-- MPOOL (R396). -/
  | mpool (rd rs1 af : Nat)
  /-- SPAWN (R398). -/
  | spawn (rd rs1 rs2 : Nat)
  /-- SUSP (R400). -/
  | susp (rd rs1 rs2 : Nat)
  /-- YIELD (R180). -/
  | yield
  /-- DONE (R159). -/
  | done (rs1 : Nat)
  /-- MSEND (R403). -/
  | msend (rs1 rs2 : Nat)
  /-- MSENDC (R403). -/
  | msendc (rs1 : Nat)
  /-- MWAIT (R404). -/
  | mwait (rd rs1 rs2 : Nat)
  /-- MPEEK (R405). -/
  | mpeek (rd rs1 : Nat)
  /-- TRAP (R408). -/
  | trap (rs1 imm : Nat)
  /-- BKPT (R408). -/
  | bkpt
  /-- GETS (R280). -/
  | gets (rd sreg : Nat)
  /-- SETS (R280). -/
  | sets (rs1 sreg : Nat)
  /-- TIME (R19). -/
  | time (rd : Nat)
  /-- HALT (R336). -/
  | halt
  /-- ILLOP (R289). -/
  | illop (word : Nat)
  /-- COLD_RESET (R25). -/
  | coldReset
  /-- BOOTCTL_WRITE (R39). -/
  | bootctlWrite
  /-- DEVICE_READY (R26). -/
  | deviceReady
  /-- THERMAL_TRIP (R16). -/
  | thermalTrip
  /-- COOLANT_WARNING (R13). -/
  | coolantWarning
  /-- INPUT_UNDERVOLTAGE (R17). -/
  | inputUndervoltage
  /-- THROTTLE_RAISE (R15). -/
  | throttleRaise
  /-- THROTTLE_LOWER (R15). -/
  | throttleLower
  /-- GATING_SEQUENCE (R23). -/
  | gatingSequence
  /-- UNIT_MARKED_GATED (R23). -/
  | unitMarkedGated
  /-- WAKE_REQUEST (R24). -/
  | wakeRequest
  /-- SYNC_LOSS (R233). -/
  | syncLoss
  /-- SYNC_REGAINED (R233). -/
  | syncRegained
  /-- CXL_SERVICE_LOSS (R33). -/
  | cxlServiceLoss
  /-- CXL_SERVICE_RESTORE (R30). -/
  | cxlServiceRestore
  /-- HDM_DECODER_COMMIT (R48). -/
  | hdmDecoderCommit
  /-- HOST_SNOOP (R54). -/
  | hostSnoop
  /-- SNOOP_ENGINE_TIMEOUT (R55). -/
  | snoopEngineTimeout
  /-- HOST_HBM_WRITE (R50). -/
  | hostHbmWrite
  /-- HOST_HBM_READ (R50). -/
  | hostHbmRead
  /-- BIRSP_RECEIVE (R50). -/
  | birspReceive
  /-- ATS_INVALIDATE (R56). -/
  | atsInvalidate
  /-- ATS_DENY (R57). -/
  | atsDeny
  /-- PAGE_REQUEST_WORD (R58). -/
  | pageRequestWord
  /-- PAGE_GROUP_RESPONSE (R57). -/
  | pageGroupResponse
  /-- TBASE_LATCHING_READ (R38). -/
  | tbaseLatchingRead
  /-- KICK (R43). -/
  | kick
  /-- RESUME (R44). -/
  | resume
  /-- QUEUE_ENABLE (R93). -/
  | queueEnable
  /-- QUEUE_DISABLE (R94). -/
  | queueDisable
  /-- POOL_WINDOW_ENABLE (R214). -/
  | poolWindowEnable
  /-- POOL_WINDOW_DISABLE (R214). -/
  | poolWindowDisable
  /-- MAILBOX_ERASE (R46). -/
  | mailboxErase
  /-- MAILBOX_WRITE (R46). -/
  | mailboxWrite
  /-- MAILBOX_COMMIT (R46). -/
  | mailboxCommit
  /-- FLASH_COMMAND_DONE (R46). -/
  | flashCommandDone
  /-- REGISTER_WRITE (R41). -/
  | registerWrite
  /-- GETSTAT (R83). -/
  | getstat
  /-- READLOG (R83). -/
  | readlog
  /-- PORTSTAT (R83). -/
  | portstat
  /-- MAPREAD (R83). -/
  | mapread
  /-- FLASH (R84). -/
  | flash
  /-- RESET (R85). -/
  | reset
  /-- SEQSYNC (R82). -/
  | seqsync
  /-- EVACK (R82). -/
  | evack
  /-- EVENT_RESEND (R82). -/
  | eventResend
  /-- GET_VERSION (R80). -/
  | getVersion
  /-- GET_CAPABILITIES (R80). -/
  | getCapabilities
  /-- NEGOTIATE_ALGORITHMS (R80). -/
  | negotiateAlgorithms
  /-- GETKEY (R90). -/
  | getkey
  /-- GETREPORT (R90). -/
  | getreport
  /-- FLIT_RECEIVE (R62). -/
  | flitReceive
  /-- NAK_LIMIT_RETRAIN (R64). -/
  | nakLimitRetrain
  /-- ACK_TIMEOUT (R64). -/
  | ackTimeout
  /-- RETRAIN_COMPLETE (R64). -/
  | retrainComplete
  /-- PORT_DOWN (R78). -/
  | portDown
  /-- PORT_RETRY (R78). -/
  | portRetry
  /-- RD (R74). -/
  | farRd
  /-- WR (R74). -/
  | farWr
  /-- AMO (R74). -/
  | amo
  /-- PUSH (R74). -/
  | push
  /-- MSG (R177). -/
  | msg
  /-- RSP (R73). -/
  | rsp
  /-- PARKED (R70). -/
  | parked
  /-- WAKE (R70). -/
  | wake
  /-- BAR (R254). -/
  | bar
  /-- SYNC (R75). -/
  | sync
  /-- SYNC_SEND (R75). -/
  | syncSend
  /-- FORWARD_TRANSACTION (R71). -/
  | forwardTransaction
  /-- FAR_REQUEST_TIMEOUT (R73). -/
  | farRequestTimeout
  /-- OWNER_SILENCE (R137). -/
  | ownerSilence
  /-- ACCEPTED_TRANSFER (R133). -/
  | acceptedTransfer
  /-- RETURN_TRANSFER (R135). -/
  | returnTransfer
  /-- SCRUB_COMPLETE (R141). -/
  | scrubComplete
  /-- PACKET_FETCH (R104). -/
  | packetFetch
  /-- PACKET_REREAD (R104). -/
  | packetReread
  /-- NOP (R116). -/
  | nop
  /-- LAUNCH (R109). -/
  | launch
  /-- WAIT_ALL (R110). -/
  | waitAll
  /-- WAIT_ANY (R110). -/
  | waitAny
  /-- WAIT_PASS (R111). -/
  | waitPass
  /-- WAIT_TIMEOUT (R111). -/
  | waitTimeout
  /-- SIGNAL (R112). -/
  | signal
  /-- COPY (R113). -/
  | copy
  /-- SEAL (R114). -/
  | seal
  /-- UNSEAL (R114). -/
  | unseal
  /-- SEAL_EXTENT_CHANGE (R114). -/
  | sealExtentChange
  /-- OWN (R115). -/
  | own
  /-- FENCE_PACKET (R106). -/
  | fencePacket
  /-- PACKET_COMPLETE (R117). -/
  | packetComplete
  /-- QUEUE_MADE_RESIDENT (R96). -/
  | queueMadeResident
  /-- QUEUE_EVICTION (R97). -/
  | queueEviction
  /-- PLACEMENT_PASS (R149). -/
  | placementPass
  /-- FLIGHT_END (R153). -/
  | flightEnd
  /-- YIELD_DEADLINE (R155). -/
  | yieldDeadline
  /-- GANG_SWITCH (R188). -/
  | gangSwitch
  /-- GANG_SAVED (R189). -/
  | gangSaved
  /-- SLOT_DRAW (R167). -/
  | slotDraw
  /-- STEAL (R167). -/
  | steal
  /-- TASK_START (R158). -/
  | taskStart
  /-- INSTAR_RESUME (R165). -/
  | instarResume
  /-- MESSAGE_WORD_ARRIVE (R179). -/
  | messageWordArrive
  /-- REPLY (R187). -/
  | reply
  /-- COMBINING_DRAIN (R203). -/
  | combiningDrain
  /-- STORE_ARRIVE (R241). -/
  | storeArrive
  /-- STORE_VISIBLE (R242). -/
  | storeVisible
  /-- FAR_RESPONSE (R247). -/
  | farResponse
  /-- LEASE_END (R201). -/
  | leaseEnd
  /-- TRANSLATION_END (R225). -/
  | translationEnd
  /-- COPY_LEASE_RENEWAL (R234). -/
  | copyLeaseRenewal
  /-- REFRESH_WINDOW_END (R212). -/
  | refreshWindowEnd
  /-- DIRTY_LOG_MERGE (R237). -/
  | dirtyLogMerge
  /-- HARVEST_RECALL (R238). -/
  | harvestRecall
  /-- STALL_WATCHDOG (R275). -/
  | stallWatchdog
  /-- ENGINE_COMMAND_COMPLETE (R390). -/
  | engineCommandComplete
  /-- MATRIX_COMMAND_START (R375). -/
  | matrixCommandStart
  /-- MATRIX_COMMAND_COMPLETE (R375). -/
  | matrixCommandComplete
  /-- MWAIT_TIMEOUT (R404). -/
  | mwaitTimeout
  /-- VIOLATING_READ (R41). -/
  | violatingRead
  /-- CONFIG_SPACE_WRITE (R58). -/
  | configSpaceWrite
  /-- CXL_LINK_RETRAIN (R37). -/
  | cxlLinkRetrain
  /-- SOFT_ERROR (R89). -/
  | softError
  /-- POWER_LOSS (R47). -/
  | powerLoss
  /-- SPLIT_CHANGE_COMPLETE (R197). -/
  | splitChangeComplete
  /-- ACCESS_AT_POINT_OF_SERIALISATION (R266). -/
  | accessAtPointOfSerialisation
  /-- OWNERSHIP_OPERATION_AT_HOME (R127). -/
  | ownershipOperationAtHome
  /-- INSTRUCTION_FETCH_FAILURE (R291). -/
  | instructionFetchFailure
  deriving DecidableEq, Repr

end Sys2Proof
end

