-- ==== Sys2Proof/Machine/State.lean ====
section
/-! DEFINITION. The machine's state: plain data, every piece of state the spec names, and the few fields of the model's own that INVENTORY.md lists last. -/

namespace Sys2Proof.Machine

/-- Why a step stops for good. No meaning raises this one: the spec gives every instruction and event an effect. It stands for an access to a key outside the model's store, which no address of the spec reaches; safe. -/
inductive Fault where
  | outsideStore
  deriving DecidableEq, Repr

/-- Why a step has no meaning: raised by an arm of exec for an instruction not modelled yet; safe. -/
inductive Refusal where
  | notModelled (mnemonic : String)
  deriving DecidableEq, Repr

/-! ## Contexts -/

/-- A cached translation (R217, R225, R236). -/
structure Trans where
  owner : Nat
  va    : Nat                     -- first address covered
  size  : Nat                     -- bytes covered
  pa    : Nat
  read  : Bool
  write : Bool
  exec  : Bool
  repl  : Bool
  stop  : Nat
  dirty : Bool
  leaf  : Nat := size             -- the size of the leaf that it came from (R222, R234)
  deriving DecidableEq, Repr

/-- An instar's key: its owner, die and slot (R162). -/
structure Key where
  owner : Nat
  die   : Nat
  slot  : Nat
  deriving DecidableEq, Repr

/-- What a far access does where it is performed (R240). -/
inductive AccessKind where
  | load (width : Nat)            -- FLD and FLD.P, width code of R341
  | store                         -- the drain of a combining entry or FST.P
  | atomic (op : Nat)             -- R348
  | cell (f3 : Nat)               -- R352
  | prefetch                      -- FPF
  deriving DecidableEq, Repr

/-- A far access: who issues it, what it names, and where its result goes. -/
structure Access where
  kind    : AccessKind
  owner   : Nat                   -- the owner whose access it is
  space   : Nat                   -- the owner in whose space va is translated
  core    : Nat                   -- issuing core number, 16384 + n for memory core n
  va      : Nat                   -- 57 bits
  size    : Nat                   -- bytes
  data    : Word                  -- store data, atomic or cell operand
  cmp     : Word                  -- AMOCAS's compare value
  bytes   : List (Nat × Byte)     -- a store's bytes, as offsets from va
  dreg    : Nat
  flight  : Nat                   -- the issuing context's flight
  evid    : Option Nat            -- the issuer's evaluation, R273
  via     : Option Trans := none  -- the translation that the request carries, with its end E (R226)
  inst    : Option Key := none    -- the instar for which a reply performs it (R187)
  pairs   : List (Nat × Nat) := []  -- of a store's bytes, those of 16-byte stores (Combine)
  deriving DecidableEq, Repr

/-- A word in a message queue: its value and whether it is a closing word (R178). -/
structure PortWord where
  value   : Word
  closing : Bool
  deriving DecidableEq, Repr

/-- What a resident context waits for (R169, R190). -/
inductive Wait where
  | ready
  | again (why : Nat)             -- executes its instruction again: 2 a full send port, 4 a release, 8 a CMK that has written FLIGHT, 9 a BX4 acceptance, 10 an ownership instruction, 11 a far access that waits where it is performed, 12 a transfer whose target word has failed, 0 others
  | port (srcs : List Nat) (rd ticket : Nat)  -- port reads, by source field, and the destination: from 28 up where the words may be taken only as something else comes free too (R278); earlier tickets first (R175)
  | took (words : List (Nat × PortWord))  -- the words, by port, that came for its read, in field order: it is ready (R175, R179)
  | mwait (mask : Nat) (deadline : Option Nat) -- MWAIT with its port mask and its deadline, none for no limit
  | bar (inst scope : Nat)        -- BAR, arrived at the instance of this number, at its own scope
  | barDone                       -- BAR, its episode complete
  | far (acc : Access)            -- a far access under way, performed by an event
  | response (acc : Access) (lo hi : Word)  -- a far access performed, its response under way
  | remote (rid : Nat)            -- a far access to another package under its RID
  | own (op rd : Nat) (a b c : Word) (image : List Word)  -- an ownership operation on its way to its home (R128)
  | split                         -- a SPLIT change (R197)
  | lanes (done : Nat)            -- a vector load or store of which so many lanes are performed (R361)
  deriving DecidableEq, Repr

def Wait.midLanes : Wait → Bool
  | .lanes _ => true
  | _ => false

/-- What an outstanding far load has come back with (R248): its value, or an error that is held until it is the oldest. -/
inductive Returned where
  | value (lo hi : Word)
  | code (c : Nat)
  | poison
  deriving DecidableEq, Repr

/-- A context's registers, masks, STAT and PC as they stood before an outstanding load (R248). -/
structure Before where
  x    : Vector Word 28
  v    : Vector (BitVec 512) 32
  m    : Vector (BitVec 16) 8
  stat : Word
  pc   : BitVec 57
  deriving DecidableEq, Repr

/-- An outstanding far load (R247). -/
structure Outstanding where
  acc    : Access
  got    : Option Returned
  before : Before
  deriving DecidableEq, Repr

/-- A context's registers and what the device keeps with them (R277, R279, R332, R391). -/
structure Ctx where
  x         : Vector Word 28
  v         : Vector (BitVec 512) 32
  m         : Vector (BitVec 16) 8
  pc        : BitVec 57
  stat      : Word
  rtb       : Word
  pdest     : Vector Word 4
  scla      : Word
  sclb      : Word
  ela       : Word
  elb       : Word
  ssha      : Word
  sshb      : Word
  evc       : Word
  evcell    : Nat                 -- the VA of the cell that this context evaluates, while ACT is 1 (R270, R275)
  rstack    : List Word           -- newest first, at most 16
  copyCount : Nat
  copyErr   : Word
  flight    : Nat
  prio      : Nat
  wait      : Wait
  loads     : List Outstanding    -- far loads outstanding, oldest first, at most 4 (R247)
  rdead     : List Word := []     -- what the return-stack entries from the depth up hold (R170, R332)
  word      : Option Nat := none  -- the instruction word that it has fetched and not finished (R169, R293)
  deriving DecidableEq, Repr

/-- A context at task start (R158, R281). -/
def Ctx.fresh : Ctx where
  x := Vector.replicate 28 0
  v := Vector.replicate 32 0
  m := Vector.replicate 8 0
  pc := 0
  stat := 0
  rtb := 0
  pdest := Vector.replicate 4 0
  scla := 0
  sclb := 0
  ela := 0
  elb := 0
  ssha := 3
  sshb := 3
  evc := 0
  evcell := 0
  rstack := []
  copyCount := 0
  copyErr := 0
  flight := 0
  prio := 0
  wait := .ready
  loads := []

/-! ## Instars, tasks and cores -/

/-- An item of a ready ring (R162), with the flight, the priority and the evaluation it belongs to. -/
inductive Item where
  | task (handle : Nat) (flight : Nat) (prio : Nat) (eval : Option (Nat × Nat))  -- eval: cell VA and EVID (R270)
  | instar (slot : Nat) (die : Nat) (flight : Nat)
  deriving DecidableEq, Repr

/-- An item of a ready ring with the number of its entry in memory: none while it is held (R166). -/
structure Queued where
  item : Item
  spot : Option Nat
  deriving DecidableEq, Repr

/-- Where an instar stands. -/
inductive InstarState where
  | suspended                     -- SUSP with a published handle, not resumed (R399)
  | ready                         -- in its ring, or on its core's tether list
  | parked (cell : Nat) (since : Nat)  -- linked into the cell at this store key (R269)
  | blocked                       -- linked into a fault entry (R185)
  | posted                        -- its trap entry is posted (R184)
  | held                          -- its trap entry is held (R184)
  | remote (rid : Nat) (pkg : Nat) (score : Nat) (cell : Nat)  -- a proxy of another package's loader (R269)
  | away (rid : Nat)              -- parked on a cell of another package, under this RID (R70)
  deriving DecidableEq, Repr

/-- A combining entry (R203). -/
structure Combine where
  slot   : Nat                    -- its context's ring slot
  va     : Nat                    -- the sector's first address
  bytes  : List (Nat × Byte)      -- offset in the sector and byte, later stores replacing
  opened : Nat                    -- the cycle it was opened
  owner  : Nat
  first  : Nat                    -- address of the store that opened it
  pairs  : List (Nat × Nat) := []  -- the bytes that a 16-byte store left, each with that store's offset (R255, R343)
  deriving DecidableEq, Repr

/-- An instar slot in use (R163, R281, R391). -/
structure Instar where
  state     : InstarState
  long      : Bool
  why       : Nat
  prio      : Nat
  pc        : BitVec 57
  flight    : Nat
  dreg      : Nat
  mask      : Nat                 -- bit i - 1 set when xi is saved
  regs      : Vector Word 28
  wakev     : Word
  link      : Option Key
  tethered  : Option Nat          -- the core, R174
  rstack    : List Word
  stat      : Word                -- with PEND and PFXB
  rtb       : Word
  pdest     : Vector Word 4
  scla      : Word
  sclb      : Word
  ela       : Word
  elb       : Word
  ssha      : Word
  sshb      : Word
  evc       : Word
  evcell    : Nat                 -- the cell it evaluates
  copyCount : Nat
  copyErr   : Word
  readyAt   : Nat                 -- ready no earlier than this time (R262)
  retry     : Option Access       -- what the reply performs (R187)
  retryPc   : BitVec 57           -- PC of the instruction that blocked
  blockVa   : Nat := 0            -- the address whose access blocked it (R182, R187)
  stores    : List Combine := []  -- stores that could not drain as it left the ring (R203, R344)
  origin    : Nat := 0            -- the core whose ring it left: that of those stores
  deriving DecidableEq, Repr

/-- A ring slot of a core (R168). -/
inductive Slot where
  | empty (idle : Nat)            -- cycles without a draw (R167)
  | drawn (item : Item) (die : Nat)   -- an item drawn and not yet read in (R169)
  | busy (c : Ctx)
  deriving DecidableEq, Repr

/-- A first-level sector (R200, R201). -/
structure Sector where
  owner : Nat
  va    : Nat
  pa    : Nat
  stop  : Nat                     -- lease end
  held  : Nat                     -- the core that filled it (R205)
  exec  : Bool := false           -- filled by a fetch, under execute permission (R292)
  deriving DecidableEq, Repr

/-- A queued matrix command (R375): the operation of R378 with what it took at issue. -/
structure MatCmd where
  op      : Nat
  slotA   : Nat
  slotB   : Nat
  acc     : Nat
  addr    : Nat                   -- local address, or the weight store's address for MLDW
  va      : Nat                   -- the operand register's value at issue
  fmt     : Nat
  rnd     : Nat
  sat     : Bool
  ring    : Nat                   -- issuing ring slot
  flight  : Nat
  word    : Nat                   -- instruction word (R385)
  headers : List Word             -- the 512 headers of a BX4 MMUL, A then B (R381)
  started : Bool
  recheck : Bool                  -- a saved MLDW, translated afresh at its start (R386)
  stop    : Nat := 2 ^ 64         -- the end of an MLDW's translation (R226)
  home    : Nat := 0              -- where its context is: core
  key     : Option Key := none    -- or the context's instar, once it has left the ring
  deriving DecidableEq, Repr

/-- An engine command (R388, R391 to R396): a copy-queue entry, a COPY packet's copy, or a memory core's push, gather or pool. -/
structure CopyCmd where
  kind     : Nat                  -- 0 CPY, CPYS and COPY; 1 MPUSH; 2 MGATH; 3 MPOOL
  dst      : Nat
  src      : Nat                  -- for a push a local address, for a gather or pool TABLE
  rows     : Nat
  rowb     : Nat
  dstride  : Int
  sstride  : Int
  cell     : Nat
  tags     : Bool
  strided  : Bool
  add      : Nat                  -- 0 plain, 1 .af, 2 .ai
  index    : List Nat             -- the rows of a gather or pool
  weights  : List Nat             -- a pool's weights, or none
  sfmt     : Nat
  sums     : List Nat             -- a pool's sums so far, or the bytes of a gather's row that it has read
  target   : Option (Nat × Nat)   -- DPKG and TOWN of a push to another package
  rid      : Option Nat           -- its request under way
  ring     : Nat                  -- where its context is: ring slot
  home     : Nat                  -- and core
  key      : Option Key           -- or the context's instar, once it has left the ring
  owner    : Nat
  flight   : Nat
  started  : Bool
  row      : Nat                  -- progress: rows done, and bytes of the next
  off      : Nat
  pages    : List (Nat × Bool × Trans)  -- the page translations in use (R234), for write or not
  visible  : Nat                  -- the latest V of its writes
  res      : Option Word          -- its result word, once it has ended
  filled   : Bool
  stopAt   : Nat                  -- the address at which it stopped
  deriving DecidableEq, Repr

/-- A core: a Birsar core, or a memory core with its one program in slot 0 (R409). -/
structure Core where
  slots       : Vector Slot 4
  last        : Nat               -- the slot that ran last
  stays       : Bool              -- its context has been ready ever since, so that it goes on (R168)
  mwt         : Nat
  cbanks      : Nat
  pool        : Bool
  cbase       : Word
  clim        : Nat
  pages       : Vector Nat 5      -- page of slots 0 to 3, then the spare (R170)
  combining   : List Combine      -- oldest first
  l1          : List Sector       -- oldest first
  rx          : Vector (List PortWord) 4
  closed      : Vector Bool 4
  tx          : Vector Nat 4      -- words in each send queue
  drops       : Vector (BitVec 8) 4
  matq        : List MatCmd
  copyq       : List CopyCmd
  splitChange : Option (Nat × Nat × Nat)  -- new MWT, new CBANKS, ring slot (R197)
  splitWaits  : List Nat          -- the slots whose SETS of SPLIT wait for it, in the order in which they reached the core (R197)
  polled      : List Nat          -- slots whose waiting instruction was tried since a context last ran on (R168)
  deriving DecidableEq, Repr

/-- A core at reset and after a scrub (R141). -/
def Core.fresh : Core where
  slots := Vector.replicate 4 (.empty 0)
  last := 3
  stays := false
  mwt := 0
  cbanks := 12
  pool := false
  cbase := 0
  clim := 0
  pages := ⟨#[0, 1, 2, 3, 4], rfl⟩
  combining := []
  l1 := []
  rx := Vector.replicate 4 []
  closed := Vector.replicate 4 false
  tx := Vector.replicate 4 0
  drops := Vector.replicate 4 0
  matq := []
  copyq := []
  splitChange := none
  splitWaits := []
  polled := []

/-- A quad's matrix unit (R374, R376, R379, R382). -/
structure Quad where
  claims : SMap Nat               -- slot to core within the quad, 4 for none
  elems  : SMap Word              -- element addresses
  scale  : List (Nat × Nat × Word × Nat)  -- owner, VA, header, lease end
  ptr    : Nat
  count  : Nat
  busy   : Option Nat             -- core whose MMUL runs
  deriving DecidableEq, Repr

def Quad.fresh : Quad := { claims := [], elems := [], scale := [], ptr := 0, count := 0, busy := none }

/-! ## Memory system -/

/-- Whose store it is: the core that makes it, and where its context is: a ring slot of a core, or an instar. -/
structure By where
  core : Nat
  slot : Nat
  home : Nat := core
  inst : Option Key := none
  deriving DecidableEq, Repr

/-- A store that has left its context and not arrived (R241): to one location kind, in drain order. -/
structure Flying where
  key    : Nat                    -- store key of its first byte
  bytes  : List (Nat × Byte)      -- offsets from key
  owner  : Nat
  core   : Nat
  slot   : Nat
  va     : Nat
  stop   : Nat                    -- end of the translation that served it (R226)
  issue  : Nat
  home   : Nat := core            -- the core whose ring slot its context is in now; the device's own: its interface
  inst   : Option Key := none     -- or the context's instar, once it has left the ring (R262)
  pairs  : List (Nat × Nat) := []  -- the bytes of 16-byte stores (Combine)
  deriving DecidableEq, Repr

/-- A write that has arrived and waits for its visibility time (R241, R242). -/
structure Arrived where
  key    : Nat                    -- store key of its first byte
  bytes  : List (Nat × Byte)      -- offsets from key
  tag    : Option (BitVec 2)      -- a cell operation's new tag of the word at key
  wake   : Bool                   -- a fill: wakes the waiters (R271)
  vis    : Nat                    -- its V
  core   : Nat
  slot   : Nat
  home   : Nat := core            -- where its context is now, as in Flying
  inst   : Option Key := none
  deriving DecidableEq, Repr

/-- A walk-cache entry: a table entry of level 4 to 1 (R225, R421). -/
structure Walked where
  owner : Nat
  level : Nat
  va    : Nat                     -- VA bits above the level's index
  table : Nat                     -- the table it was read from
  frame : Nat                     -- the next table's address
  stop  : Nat
  deriving DecidableEq, Repr

/-- A translating interface: 0 to 15 dies, 16 to 19 hubs, 20 to 23 edges (R217). -/
structure Iface where
  leaf  : List Trans
  walk  : List Walked
  dirty : List (Nat × Nat × Nat)  -- owner, first VA, size code (R236, R237)
  logged : Option (Nat × Nat × Nat)  -- the last entry that the interface appended (R236)
  deriving DecidableEq, Repr

def Iface.fresh : Iface := { leaf := [], walk := [], dirty := [], logged := none }

/-- A line of HBM4E or host memory that a die's L2 holds, shared or exclusive (R206, R207); the directory of an HBM4E line is these together. -/
structure L2Line where
  die       : Nat
  line      : Nat                 -- line key: page and line number
  excl      : Bool
  stop      : Nat                 -- the end of its die lease, while it is shared
  granted   : Nat                 -- the latest lease end that this L2 granted on it
  contended : Bool                -- R202
  deriving DecidableEq, Repr

/-- A fabric transaction (R68): its header slot's four words and its data bytes. -/
structure Txn where
  w0   : Word
  w1   : Word
  w2   : Word
  w3   : Word
  data : List Byte
  deriving DecidableEq, Repr

/-- A waiter of a fault entry: an instar, a request of another package at an edge (R185), or a packet, the loader or an engine that waits for the reply. -/
inductive Waiter where
  | instar (k : Key)
  | edge (iface : Nat) (t : Txn)
  | agent (unit : Nat)
  deriving DecidableEq, Repr

/-- A fault entry (R185). -/
structure FaultEntry where
  valid   : Bool
  gen     : Nat
  kind    : Nat
  level   : Nat
  w       : Bool
  owner   : Nat
  va      : Nat
  pte     : Word
  issue   : Nat
  waiters : List Waiter
  reply   : Word := 0             -- what was last stored in its REPLY word
  deriving DecidableEq, Repr

def FaultEntry.fresh : FaultEntry :=
  { valid := false, gen := 0, kind := 0, level := 0, w := false, owner := 0, va := 0, pte := 0, issue := 0, waiters := [] }

/-- An evaluation-table entry (R272). -/
structure Eval where
  evid   : Nat
  owner  : Nat
  cell   : Nat                    -- the cell's store key
  va     : Nat
  waitev : Option Nat
  deriving DecidableEq, Repr

/-- A message word in the network (R177). -/
structure NetWord where
  core    : Nat                   -- sending core
  txport  : Nat
  kind    : Nat                   -- DKIND
  unit    : Nat
  town    : Nat
  port    : Nat
  value   : Word
  closing : Bool
  spilled : Nat                   -- the flight in whose spill area the word waits, 0 for none (R189)
  left    : Bool := false         -- it is counted in its send queue no more
  away    : Option (Nat × Txn) := none  -- in a spill area, a word for another package: its transaction, and when it came to its port
  deriving DecidableEq, Repr

/-- A barrier instance (R351): its scope, what names it, and the open episode. -/
structure Barrier where
  id      : Nat
  scope   : Nat                   -- 7 and 5 count together under 5
  name    : Nat                   -- flight, or owner for .own, .pod and .sys
  place   : Nat                   -- core, quad or die number, else 0
  n       : Nat
  count   : Nat
  members : List (Nat × Nat)      -- core and slot of the local arrivals
  deriving DecidableEq, Repr

/-! ## Ownership -/

/-- An ownership-map entry (R124). STATE follows from OFFOP, DEPTH, use and the holder's silence (R125, R137). -/
structure Entry where
  holder  : Nat
  offop   : Nat
  offer   : Nat
  acc     : Bool
  scrub   : Bool
  lenders : List (Nat × Nat)      -- LENDER1 first, with DEADLINE; DEPTH is the length
  prev    : Nat                   -- PREV, recorded as the entry became frozen; 0 otherwise (R137)
  offdl   : Nat
  deriving DecidableEq, Repr

/-- The boot endowment of an entry (R130). -/
def Entry.boot : Entry :=
  { holder := 1, offop := 0, offer := 0, acc := false, scrub := false, lenders := [], prev := 0, offdl := 0 }

/-- A trap or report to post: CAUSE, instar, ADDR, DETAIL, TIME, PC (R183). -/
structure TrapPost where
  cause  : Nat
  key    : Option Key
  addr   : Word
  detail : Word
  time   : Nat
  pc     : Word
  deriving DecidableEq, Repr

/-- An owner record (R126), with the owner's held trap entries (R184). -/
structure OwnerRec where
  heir      : Nat
  silent    : Bool
  root      : Nat                 -- device physical address
  trapq     : Nat                 -- VA
  tqlog     : Nat
  fsc       : Nat
  pint      : Nat
  lastPulse : Nat
  slva      : Nat
  slvlog    : Nat
  slvnext   : Nat
  held      : List TrapPost
  deriving DecidableEq, Repr

def OwnerRec.boot : OwnerRec :=
  { heir := 0, silent := false, root := 0, trapq := 0, tqlog := 0, fsc := 0, pint := 0, lastPulse := 0, slva := 0, slvlog := 0, slvnext := 0, held := [] }

/-! ## Queues and flights -/

/-- A packet under way (R105, R107). -/
structure Packet where
  seq     : Nat
  type    : Nat
  words   : List Word             -- words 1 onwards of the packet
  started  : Bool
  worked   : Bool                 -- its work is done: release and signal remain
  done     : Bool                 -- completed, its status fixed
  recorded : Bool                 -- its record is written, and visible at relAt
  status   : Nat
  detail   : Word
  addr     : Word
  since    : Nat                  -- time it started; once done, time it completed
  flight   : Nat                  -- LAUNCH
  relAt    : Nat                  -- the V it waits for: of its work, then of its record
  seen     : Nat                  -- the comparisons read in the pass under way (R111)
  held     : Nat                  -- and those that held
  reading  : Bool                 -- that pass has begun and not ended
  asked    : Nat := 0             -- what waits for the reply to a fault: the comparison or the initial task, plus 1
  deriving DecidableEq, Repr

/-- A hardware queue (R92, R42). -/
structure Queue where
  ringbase : Nat
  ringlog  : Nat
  crbase   : Nat
  crlog    : Nat
  prio     : Nat
  enable   : Bool
  drain    : Bool
  engine   : Nat
  wridx    : Nat
  rdidx    : Nat
  cseq     : Nat
  dseq     : Nat
  halted   : Bool
  cause    : Nat
  packets  : List Packet          -- consumed, record not written, in sequence order
  rereads  : Nat                  -- re-reads made of the packet at RDIDX (R104)
  since    : Nat                  -- order in which it became a candidate (R96)
  blocked  : Nat                  -- time its blocking packet blocked it
  retryAt  : Nat                  -- when the fetcher reads the packet at RDIDX again (R104), 0 for no re-read due
  turn     : Nat                  -- order of its last packet start among all queues' (R96)
  haltDue  : Option (Nat × Nat × Nat × Nat)  -- a halt record not yet written: sequence number, TYPE, cause and time (R103)
  seat     : Nat                  -- the owner for whom its packets under way were consumed: a reclaim leaves their work and records to that owner (R136)
  deriving DecidableEq, Repr

def Queue.fresh : Queue :=
  { ringbase := 0, ringlog := 0, crbase := 0, crlog := 0, prio := 0, enable := false, drain := false, engine := 255, wridx := 0, rdidx := 0, cseq := 0, dseq := 0, halted := false, cause := 0, packets := [], rereads := 0, since := 0, blocked := 0, retryAt := 0, turn := 0, haltDue := none, seat := 0 }

/-- What the device keeps beside a cocoon, whose layout has no place for it: which context a saved copy command (0) or MSTORE (1) belongs to, the barrier instance that a saved arrival stays counted in (2), the mask of claimed slots (3), a cocoon that was lost (4), a received word that is a closing word (5), or the port mask of an MWAIT (6, the mask in slot). -/
structure Tie where
  cocoon : Nat
  what   : Nat
  index  : Nat                    -- entry of the queue, or ring slot
  key    : Option Key
  core   : Nat
  slot   : Nat                    -- ring slot, instance, or mask
  deriving DecidableEq, Repr

/-- Where a flight stands (R147 to R156). -/
inductive FlightState where
  | waiting
  | placed
  | switching                     -- between the decision and the saved report
  | saved                         -- waiting with cocoons
  deriving DecidableEq, Repr

/-- A flight (R109, R143). -/
structure Flight where
  num     : Nat
  owner   : Nat
  queue   : Nat
  seq     : Nat
  groups  : List (List Nat)       -- placed cores by group; empty lists while waiting
  shape   : List Nat              -- sizes of the groups to place
  gsize   : Nat
  shape0  : List Nat              -- original shape
  prio    : Nat
  svc     : Bool
  image   : Nat
  imglen  : Nat
  tasks   : Nat
  ntask   : Nat
  rydep   : Nat
  ydl     : Nat
  state   : FlightState
  age     : Nat
  joined  : Nat                   -- when it last joined its list
  marks   : List (List Nat)
  placedAt : Nat                  -- P
  deadline : Nat                  -- D, 0 for none
  switchAt : Option Nat           -- T
  cocoons : List (Nat × Nat × Nat × Nat)  -- group, member, old core, cocoon slot
  launched : Bool                 -- its initial tasks have been enqueued
  handles  : List Nat             -- of the initial tasks, as the loader found them
  ties     : List Tie
  deriving DecidableEq, Repr

structure Flights where
  nextNum : Nat
  list    : List Flight           -- in order of arrival on the waiting lists
  passes  : List Nat              -- owners for whom a placement pass is due (R148)
  deriving DecidableEq, Repr

/-! ## Package, host attach, sideband and fabric -/

/-- The time base's standing (R20, R21). -/
structure Clock where
  skb      : Nat
  on       : Bool                 -- counting (R21)
  inSync   : Bool
  set      : Bool                 -- the one setting made
  offset   : Word                 -- last estimate
  err      : Nat                  -- the device's own estimate of that offset's error, in ticks
  lastSync : Nat
  deriving DecidableEq, Repr

/-- BOOTSTAT, BOOTCTL and the pod map window (R28, R39, R40). -/
structure Boot where
  rescue  : Bool
  stage   : Nat
  slota   : Nat
  slotb   : Nat
  svn     : Nat
  slot    : Nat
  bootctl : Word
  window  : SMap Word             -- by word index 0 to 4,095
  digest  : List Byte             -- the image digest from which this boot's key was derived (R90)
  tripped : Bool
  deriving DecidableEq, Repr

/-- THRSTAT (R17). -/
structure Power where
  tjmax   : Nat
  powlim  : Bool
  therm   : Bool
  coolant : Bool
  vin     : Bool
  level   : Nat
  ms      : Nat                   -- the last 1 ms interval end dealt with (R15), by number
  ten     : Nat                   -- the last 10 ms interval end dealt with
  warm    : Bool                  -- a reading of the current 10 ms interval rules a lower out
  raised  : Nat                   -- the 1 ms interval end at which a raise last fell due
  deriving DecidableEq, Repr

/-- A flash slot (R46). -/
structure FlashSlot where
  image     : SMap Byte
  active    : Bool
  record    : Option Nat          -- the commit number of a good record
  committed : Bool                -- not erased since its last COMMIT
  deriving DecidableEq, Repr

def FlashSlot.fresh : FlashSlot := { image := [], active := false, record := none, committed := false }

/-- A command at the flash engine (R46, R84). -/
structure FlashCmd where
  slot     : Nat
  cmd      : Nat
  off      : Nat
  bytes    : List Byte
  sideband : Option Nat           -- the sideband request's SEQ
  deriving DecidableEq, Repr

structure Flash where
  slots   : Vector FlashSlot 2
  engine  : List FlashCmd         -- executing first
  busy    : Bool
  overrun : Bool
  result  : Nat
  mboff   : Nat
  mblen   : Nat
  mbseq   : Nat
  mbdata  : SMap Byte
  deriving DecidableEq, Repr

/-- A CXL port: LINKSTAT and the failure regime of R58 (R37). -/
structure Link where
  up      : Bool
  cache   : Bool
  mem     : Bool
  flit    : Bool
  speed   : Nat
  width   : Nat
  ats     : Bool
  pri     : Bool
  prifail : Bool
  retrain : Bool
  ioonly  : Nat
  failing : Bool
  alloc   : Nat                   -- the host's Outstanding Page Request Allocation (R58)
  deriving DecidableEq, Repr

def Link.fresh : Link :=
  { up := false, cache := false, mem := false, flit := false, speed := 0, width := 0, ats := false, pri := false, prifail := false, retrain := false, ioonly := 0, failing := false, alloc := 0 }

/-- A committed HDM decoder (R48). -/
structure Hdm where
  ways  : Nat
  gran  : Nat
  start : Nat
  size  : Nat
  deriving DecidableEq, Repr

/-- A page request under way (R57). -/
structure PageReq where
  core  : Nat
  nport : Nat
  port  : Nat
  tag   : Nat
  page  : Nat
  write : Bool
  deriving DecidableEq, Repr

structure HostAttach where
  links     : Vector Link 2
  tbaseHigh : BitVec 32
  poolbase  : Word
  poolsize  : Word
  poolen    : Bool
  hdm       : Vector (Option Hdm) 2
  atsCache  : List (Nat × Nat)    -- port, page
  atsDenied : List (Nat × Bool)   -- pages whose last ATS completion denied the access, and whether it denied writes alone
  pageReqs  : List PageReq
  tracker   : List (Nat × Nat × Nat)  -- port, host line's first address, die
  dirty     : SMap Byte           -- bytes of host memory an L2 holds dirty, by store key
  held      : List (Nat × Nat × Bool)  -- port and first address of an HBM4E line the host holds, and whether as its only copy
  asked     : List Nat            -- lines for which a BISnp is out (R50)
  deriving DecidableEq, Repr

/-- An error-log entry (R87). -/
structure LogEntry where
  seq    : Nat
  kind   : Nat
  uclass : Nat
  unit   : Nat
  time   : Nat
  addr   : Word
  detail : Word
  deriving DecidableEq, Repr

structure ErrorLog where
  next    : Nat
  base    : Nat                   -- number of the first entry since the time base last started (R89)
  entries : List LogEntry         -- newest first, at most 2,048
  deriving DecidableEq, Repr

structure Sideband where
  lastReq  : Nat
  answer   : List Byte            -- stored response to lastReq
  nextEv   : Nat
  events   : List (Nat × LogEntry)  -- unacknowledged, oldest first, at most 8
  sentAt   : Nat                  -- when the oldest of them was last sent (R82)
  resetDue : Bool                 -- a RESET waits for the flash engine (R85)
  deriving DecidableEq, Repr

/-- An Amienaec port (R63 to R66, R79). -/
structure Port where
  state   : Nat
  rtt     : Nat
  feccor  : Nat
  replays : Nat
  lanes   : Nat
  downs   : Nat
  delay   : Nat                   -- the link's one-way delay (R75)
  txSeq   : Nat                   -- next SEQ to send
  rxSeq   : Nat                   -- last SEQ received good and in order
  acked   : Nat                   -- last SEQ the peer acknowledged
  replay  : List (Nat × Txn)      -- unacknowledged flits, one transaction each, oldest first
  naks    : Nat                   -- NAKs in a row of the oldest flit
  ackAt   : Nat                   -- time ACK last advanced
  stops   : List Bool             -- stop marks received: request, response, message, control
  held    : List (Nat × Txn)      -- transactions of stopped classes, with the time each came
  part    : List Byte             -- slots received of a transaction that goes on in the next flit
  since   : Nat                   -- when STATE last changed
  syncAt  : Nat := 0              -- when it last sent a SYNC (R75)
  kept    : Bool                  -- it retrains with its replay buffer (R64), and stays in its groups meanwhile
  deriving DecidableEq, Repr

def Port.fresh : Port :=
  { state := 0, rtt := 0, feccor := 0, replays := 0, lanes := 0, downs := 0, delay := 0, txSeq := 0, rxSeq := 4095, acked := 4095, replay := [], naks := 0, ackAt := 0, stops := [false, false, false, false], held := [], part := [], since := 0, kept := false }

/-- A request outstanding to another package (R69, R70). -/
structure Request where
  die    : Nat
  rid    : Nat
  acc    : Access
  slot   : Nat                    -- the ring slot that waits; 8 more for a store, for which none waits
  dpkg   : Nat
  issue  : Nat
  parked : Bool
  via    : List Nat               -- the ports of the group that its owner could use at issue (R72)
  key    : Option Key             -- the instar that its context has become: once a load has parked (R70), or a store's has left the ring
  home   : Nat := acc.core        -- the core in whose ring slot the context is
  deriving DecidableEq, Repr

structure Fabric where
  ports    : SMap Port
  routes   : SMap (Option Nat)    -- package number to port group
  groups   : SMap Nat             -- 144-bit masks
  requests : List Request
  late     : List (Nat × Nat × Nat)  -- die, RID and SCORE of requests that ended in TIMEOUT and whose responses may yet come (R73), oldest first
  deriving DecidableEq, Repr

/-- What the device answers, in the order it answers (log 7). -/
inductive Output where
  | fabric (port : Nat) (t : Txn) (flit : List Byte)  -- a transaction leaves on a port, in this data flit
  | link (port : Nat) (flit : List Byte)      -- an idle flit or a replayed flit
  | sideband (bytes : List Byte)              -- an MCTP message
  | spdm (bytes : List Byte)
  | hostDone (port : Nat) (addr : Nat)        -- a host write's completion
  | hostData (port : Nat) (addr : Nat) (bytes : List Byte) (poisoned : Bool)
  | register (port : Nat) (value : Word)      -- a register read's completion
  | unsupported (port : Nat)                  -- an Unsupported Request completion
  | snoop (port : Nat) (addr : Nat) (bytes : List Byte)  -- RspI with any data written back
  | bisnp (port : Nat) (addr : Nat) (inv : Bool)
  | pageRequest (port : Nat) (tag : Nat) (page : Nat) (write : Bool)
  | atsDone (port : Nat)
  | hdm (port : Nat) (ok : Bool)
  | pldm (sensor value : Nat)                 -- a PLDM numeric sensor's reading (log 40)
  | pldmMessage (bytes : List Byte)           -- the answer to another PLDM request (R80, log 8)
  deriving DecidableEq, Repr

/-- A gating sequence or mark (R22 to R24). -/
structure Gate where
  isDie  : Bool
  unit   : Nat                    -- die, or die × 256 + quad
  marked : Bool
  deriving DecidableEq, Repr

/-- What an event's occurrence carries: the numbers, word and bytes that its meaning names (log 4). -/
structure Arg where
  a     : Nat
  b     : Nat
  c     : Nat
  d     : Nat
  e     : Nat
  w     : Word
  bytes : List Byte
  txn   : Txn
  deriving DecidableEq, Repr

def Arg.none : Arg :=
  { a := 0, b := 0, c := 0, d := 0, e := 0, w := 0, bytes := [], txn := { w0 := 0, w1 := 0, w2 := 0, w3 := 0, data := [] } }

/-- What the next step does first (log 4). -/
inductive Turn where
  | event (i : Instr) (arg : Arg) -- an event happens, or an agent takes its step
  | run (core : Nat) (slot : Nat) -- the context in this ring slot is next
  | elapse (ticks : Nat)          -- time passes
  deriving DecidableEq, Repr

/-- A core that a forcible RECLAIM or a SALVAGE takes from its contexts, until the last of them has stopped (R136, R138, R418). -/
structure Leaving where
  entry  : Nat                    -- the core's entry in the map
  owner  : Nat                    -- whose contexts are still there
  owners : List Nat               -- the borrowers whose contexts and tethered instars go
  by_    : Nat                    -- the lender or heir that takes it
  cause  : Nat                    -- CAUSE of the cocoons: 1 reclaim, 2 salvage
  told   : List Nat               -- the borrowers that receive RECLAIMED
  back   : Option (Nat × Nat)     -- the lender that receives RETURNED, and from whom
  scrub  : Bool                   -- the core is scrubbed then
  deriving DecidableEq, Repr

/-- The whole machine. -/
structure State where
  coreNo    : Nat                 -- the core in view
  running   : Nat                 -- its running ring slot
  live      : Bool                -- a context runs there
  ctx       : Ctx                 -- the running context
  core      : Core                -- the core in view; its running slot's context is ctx
  cores     : SMap Core
  quads     : SMap Quad
  mem       : List Host.Cell
  tags      : SMap (BitVec 2)     -- by word, store key div 8
  poison    : List Nat            -- poisoned words, store key div 8
  time      : Nat
  clock     : Clock
  inflight  : List Flying
  arrived   : List Arrived
  leases    : List (Nat × Nat × Nat)  -- line key, core, end
  l2        : List L2Line         -- the lines of the L2s, oldest first (R206)
  ifaces    : SMap Iface
  harvest   : List (Nat × Nat)    -- agent, owner (R238)
  faults    : SMap (List FaultEntry)  -- by core, 64 entries
  evals     : List Eval
  instars   : List (Key × Instar)
  rings     : SMap (List Queued)  -- by (owner × 16 + die) × 4 + priority, oldest first
  net       : List NetWord
  barriers  : List Barrier
  nextBar   : Nat
  entries   : SMap Entry          -- by KIND × 2^20 + INDEX; an entry not listed is idle and held by estate
  estate    : Nat
  owners    : List (Nat × OwnerRec)
  spareSince : List (Nat × Nat)
  returning : List (Nat × Nat)    -- entry, owner: pending RETURNs (R135)
  sealedExt : List Nat
  queues    : SMap Queue
  hubCopy   : Vector (List (Nat × CopyCmd)) 4  -- queue and command
  flights   : Flights
  boot      : Boot
  power     : Power
  flash     : Flash
  host      : HostAttach
  log       : ErrorLog
  side      : Sideband
  fabric    : Fabric
  gating    : List Gate
  schedule  : List Turn
  postponed : List (Instr × Arg)  -- events that wait where they arrived, oldest first
  arg       : Arg                 -- of the event that happens
  async     : Bool
  pace      : Nat
  cycle     : Nat
  free      : Nat
  picks     : List Nat            -- where the search for a free number starts, one a step (R160, R272 promise none)
  out       : List Output         -- newest first
  due       : List (Nat × Output) -- answers that leave at a time; a fabric response's port is chosen then
  fills     : List (Nat × Nat × Nat) := []  -- owner, packet and flight of the initial tasks whose FLIGHT the device has still to fill (R157)
  denied    : List Nat            -- agents whose fault was answered with FAIL = 1
  unwritten : List (Nat × Key) := []  -- instars whose record an interface has still to write in the work area (R161, R163)
  leaving   : List Leaving := []  -- cores whose contexts are still to stop (R418)
  salvages  : List (Nat × Nat) := []  -- owner and heir of each SALVAGE that its home has taken up (R138)
  deriving DecidableEq, Repr

/-- The machine at power-on, before the boot ROM runs (COLD_RESET): every register at the reset value of its field table (R17, R28, R37, R39, R42, R45, R79, R92, R124, R126, R171, R196, R204, R231, R282 to R284), and the values of logs 2 and 3 where the spec gives none. -/
def State.reset : State where
  coreNo := 0
  running := 0
  live := false
  ctx := Ctx.fresh
  core := Core.fresh
  cores := []
  quads := []
  mem := []
  tags := []
  poison := []
  time := 0
  clock := { skb := 48, on := false, inSync := false, set := false, offset := 0, err := 0, lastSync := 0 }
  inflight := []
  arrived := []
  leases := []
  l2 := []
  ifaces := []
  harvest := []
  faults := []
  evals := []
  instars := []
  rings := []
  net := []
  barriers := []
  nextBar := 0
  entries := []
  estate := 1
  owners := [(1, OwnerRec.boot)]
  spareSince := []
  returning := []
  sealedExt := []
  queues := []
  hubCopy := Vector.replicate 4 []
  flights := { nextNum := 1, list := [], passes := [] }
  boot := { rescue := false, stage := 0, slota := 0, slotb := 0, svn := 0, slot := 0, bootctl := 0, window := [], digest := List.replicate 32 0, tripped := false }
  power := { tjmax := 0, powlim := false, therm := false, coolant := false, vin := false, level := 0, ms := 0, ten := 0, warm := false, raised := 0 }
  flash := { slots := Vector.replicate 2 FlashSlot.fresh, engine := [], busy := false, overrun := false, result := 0, mboff := 0, mblen := 0, mbseq := 0, mbdata := [] }
  host := { links := Vector.replicate 2 Link.fresh, tbaseHigh := 0, poolbase := 0, poolsize := 0, poolen := false, hdm := Vector.replicate 2 none, atsCache := [], atsDenied := [], pageReqs := [], tracker := [], dirty := [], held := [], asked := [] }
  log := { next := 1, base := 1, entries := [] }
  side := { lastReq := 0, answer := [], nextEv := 1, events := [], sentAt := 0, resetDue := false }
  fabric := { ports := [], routes := [], groups := [], requests := [], late := [] }
  gating := []
  schedule := []
  postponed := []
  arg := Arg.none
  async := false
  pace := 1
  cycle := 0
  free := 0
  picks := []
  out := []
  due := []
  fills := []
  denied := []
  unwritten := []
  leaving := []
  salvages := []

end Sys2Proof.Machine
end

