-- ==== Sys2Proof/Machine/Store.lean ====
section
/-! DEFINITION. Memory, tags, and the keyed parts of the state: one read and one write of each. -/

namespace Sys2Proof.Machine

/-! ## Bit fields and small numbers -/

/-- Bits hi down to lo of a number (R295). -/
def bits (v hi lo : Nat) : Nat := v / 2 ^ lo % 2 ^ (hi - lo + 1)

/-- Bits hi down to lo of a word, as a number. -/
def wbits (v : Word) (hi lo : Nat) : Nat := bits v.toNat hi lo

/-- A number as a word, modulo 2^64. -/
def word (n : Nat) : Word := BitVec.ofNat 64 n

/-- The low n bits, sign-extended to 64 (R295). -/
def sext (v : Word) (n : Nat) : Word :=
  if v.toNat % 2 ^ n < 2 ^ (n - 1) then word (v.toNat % 2 ^ n) else word (v.toNat % 2 ^ n + (2 ^ 64 - 2 ^ n))

/-- The low n bits, zero-extended to 64 (R295). -/
def zext (v : Word) (n : Nat) : Word := word (v.toNat % 2 ^ n)

/-- A 12-bit immediate, sign-extended (R286). -/
def imm12 (i : Nat) : Word := sext (word i) 12

/-- One bit of a Bool. -/
def bit (b : Bool) : Nat := if b then 1 else 0

/-- The low 57 bits of an address operand (R216). -/
def va57 (a : Word) : Nat := a.toNat % 2 ^ 57

/-- A little-endian number from bytes. -/
def ofBytes : List Byte → Nat
  | [] => 0
  | b :: bs => b.toNat + 256 * ofBytes bs

/-- The n little-endian bytes of a number. -/
def toBytes : Nat → Nat → List Byte
  | 0, _ => []
  | n + 1, v => BitVec.ofNat 8 v :: toBytes n (v / 256)

/-- Put an element in before the first that it may precede. -/
def sortIn {α : Type} (le : α → α → Bool) (a : α) : List α → List α
  | [] => [a]
  | b :: l => if le a b then a :: b :: l else b :: sortIn le a l

/-- A list in order; of two that may stand either way, the earlier first. -/
def sortBy {α : Type} (le : α → α → Bool) : List α → List α
  | [] => []
  | a :: l => sortIn le a (sortBy le l)

/-- The first occurrence of each element. -/
def firsts {α : Type} [BEq α] : List α → List α
  | [] => []
  | a :: l => a :: (firsts l).filter (fun b => !(b == a))

/-! ## Store keys: device physical addresses as they are (R52), then local SRAM, operand slots and accumulators -/

def sramBase : Nat := 2 ^ 52
def slotBase : Nat := 2 ^ 53
def accBase : Nat := 2 ^ 54

/-- A byte of a core's local space (R194); core 16384 + n is memory core n. -/
def sramKey (core off : Nat) : Nat := sramBase + core * 2097152 + off
def slotKey (quad slot b : Nat) : Nat := slotBase + (quad * 64 + slot) * 4096 + b
def accKey (core k b : Nat) : Nat := accBase + (core * 8 + k) * 4096 + b

/-- Where a key lies (R208, R214, R52); keys from 2^60 are pooled memory from 2^50 upwards. -/
inductive Storage where
  | hbm | weight | pooled | host | sram | none
  deriving DecidableEq, Repr

def storage (k : Nat) : Storage :=
  if k < 2 ^ 40 then .hbm
  else if k < 2 ^ 40 + 2 ^ 35 then .weight
  else if k < 2 ^ 50 then .none
  else if k < 2 ^ 51 then .pooled
  else if k < 2 ^ 52 then .host
  else if k < slotBase then .sram
  else if 2 ^ 60 ≤ k then .pooled
  else .none

/-- The key of a byte of pooled memory, by its address there (R214). -/
def poolKey (p : Nat) : Nat := if p < 2 ^ 50 then 2 ^ 50 + p else 2 ^ 60 + p

/-- The address in pooled memory of a key. -/
def poolAddr (k : Nat) : Nat := if k < 2 ^ 60 then k - 2 ^ 50 else k - 2 ^ 60

/-- Words that carry a tag (R263). -/
def tagged (k : Nat) : Bool :=
  match storage k with
  | .hbm => true
  | .sram => true
  | _ => false

/-! ## Memory -/

/-- The canonical form of memory: addresses strictly rising and no entry at zero, which an unlisted byte reads as. -/
def Memory.wf : List Host.Cell → Bool
  | [] => true
  | [c] => c.2 != 0
  | c :: d :: m => c.2 != 0 && decide (c.1 < d.1) && Memory.wf (d :: m)

namespace State

/-- One byte (log 2: an unlisted byte reads 0). -/
def byteAt (s : State) (k : Nat) : Byte := SMap.get 0 s.mem k

def setByte (s : State) (k : Nat) (b : Byte) : State := { s with mem := SMap.set 0 s.mem k b }

/-- n bytes from a key. -/
def bytesAt (s : State) (k n : Nat) : List Byte := (List.range n).map (fun i => s.byteAt (k + i))

/-- Write bytes from a key upwards. -/
def setBytes (s : State) (k : Nat) : List Byte → State
  | [] => s
  | b :: bs => (s.setByte k b).setBytes (k + 1) bs

/-- Write bytes at offsets from a key. -/
def setOffsets (s : State) (k : Nat) : List (Nat × Byte) → State
  | [] => s
  | e :: es => (s.setByte (k + e.1) e.2).setOffsets k es

def natAt (s : State) (k n : Nat) : Nat := ofBytes (s.bytesAt k n)

def wordAt (s : State) (k : Nat) : Word := word (s.natAt k 8)

def setWord (s : State) (k : Nat) (v : Word) : State := s.setBytes k (toBytes 8 v.toNat)

/-- Zero a range of keys. -/
def clearMem (s : State) (lo hi : Nat) : State := { s with mem := SMap.clear s.mem lo hi }

/-- The tag of the word a key lies in; VAL, 0, where words carry none (R263). -/
def tagAt (s : State) (k : Nat) : BitVec 2 := if tagged k then SMap.get 0 s.tags (k / 8) else 0

def setTag (s : State) (k : Nat) (t : BitVec 2) : State :=
  if tagged k then { s with tags := SMap.set 0 s.tags (k / 8) t } else s

def clearTags (s : State) (lo hi : Nat) : State := { s with tags := SMap.clear s.tags (lo / 8) (hi / 8) }

/-- The evaluation-table entries of the cells that a test picks are freed, and nothing waits on them any more (R272). -/
def freeEvals (s : State) (p : Eval → Bool) : State :=
  let gone := (s.evals.filter p).map (·.evid)
  if gone.isEmpty then s
  else { s with evals := (s.evals.filter (fun e => !p e)).map (fun e => if e.waitev.any gone.contains then { e with waitev := none } else e) }

/-- A range reads zero, with no tag and no poison; an ECLO cell in it is none any more. -/
def zeroStore (s : State) (lo hi : Nat) : State :=
  let s := ((s.clearMem lo hi).clearTags lo hi).freeEvals (fun e => decide (lo ≤ e.cell) && decide (e.cell < hi))
  { s with poison := s.poison.filter (fun p => decide (p * 8 < lo) || decide (hi ≤ p * 8)) }

def poisoned (s : State) (k n : Nat) : Bool := s.poison.any (fun p => decide (k / 8 ≤ p) && decide (p ≤ (k + n - 1) / 8))

/-- The highest tag among the words that n bytes from k touch: 0 when every one is VAL. -/
def tagOver (s : State) (k n : Nat) : BitVec 2 :=
  if s.tagAt k = 0 then s.tagAt (k + n - 1) else s.tagAt k

/-! ## Cores, quads, interfaces, entries, owners -/

/-- A core as it stands, the running context of the core in view in its slot. -/
def coreInView (s : State) : Core :=
  if s.live then { s.core with slots := s.core.slots.setIfInBounds s.running (.busy s.ctx) } else s.core

def getCore (s : State) (n : Nat) : Core := if n = s.coreNo then s.coreInView else SMap.get Core.fresh s.cores n

/-- Write a core back; the core in view keeps its running context in ctx. -/
def setCore (s : State) (n : Nat) (c : Core) : State :=
  if n = s.coreNo then
    match (c.slots.toList.getD s.running (.empty 0)) with
    | .busy x => { s with core := c, ctx := x, live := true }
    | _ => { s with core := c, live := false }
  else { s with cores := SMap.set Core.fresh s.cores n c }

/-- Bring a core and one of its slots into view. -/
def focus (s : State) (n k : Nat) : State :=
  let c := s.getCore n
  let s := { s with cores := SMap.set Core.fresh s.cores s.coreNo s.coreInView, coreNo := n, running := k, core := c }
  match c.slots.toList.getD k (.empty 0) with
  | .busy x => { s with ctx := x, live := true }
  | _ => { s with live := false }

def slotOf (s : State) (n k : Nat) : Slot := (s.getCore n).slots.toList.getD k (.empty 0)

def setSlot (s : State) (n k : Nat) (v : Slot) : State :=
  let c := s.getCore n
  s.setCore n { c with slots := c.slots.setIfInBounds k v }

def getQuad (s : State) (q : Nat) : Quad := SMap.get Quad.fresh s.quads q
def setQuad (s : State) (q : Nat) (v : Quad) : State := { s with quads := SMap.set Quad.fresh s.quads q v }
def getIface (s : State) (i : Nat) : Iface := SMap.get Iface.fresh s.ifaces i
def setIface (s : State) (i : Nat) (v : Iface) : State := { s with ifaces := SMap.set Iface.fresh s.ifaces i v }
def getQueue (s : State) (q : Nat) : Queue := SMap.get Queue.fresh s.queues q
def setQueue (s : State) (q : Nat) (v : Queue) : State := { s with queues := SMap.set Queue.fresh s.queues q v }
def getPort (s : State) (p : Nat) : Port := SMap.get Port.fresh s.fabric.ports p
def setPort (s : State) (p : Nat) (v : Port) : State :=
  { s with fabric := { s.fabric with ports := SMap.set Port.fresh s.fabric.ports p v } }

/-- An ownership-map entry by KIND and INDEX (R121, R124). -/
def entryKey (kind index : Nat) : Nat := kind * 1048576 + index
def idleEntry (s : State) : Entry := { Entry.boot with holder := s.estate }
def getEntry (s : State) (e : Nat) : Entry := SMap.get s.idleEntry s.entries e
def setEntry (s : State) (e : Nat) (v : Entry) : State := { s with entries := SMap.set s.idleEntry s.entries e v }
def holder (s : State) (kind index : Nat) : Nat := (s.getEntry (entryKey kind index)).holder

def owner? (s : State) (o : Nat) : Option OwnerRec := (s.owners.find? (fun p => p.1 == o)).map (·.2)
def ownerRec (s : State) (o : Nat) : OwnerRec := (s.owner? o).getD OwnerRec.boot
/-- A live owner (R123): its identifier's entry is held by itself. -/
def isLive (s : State) (o : Nat) : Bool := (s.owner? o).isSome && s.holder 9 o == o
def setOwner (s : State) (o : Nat) (r : OwnerRec) : State :=
  { s with owners := s.owners.map (fun p => if p.1 = o then (o, r) else p) }

/-- Whether an owner holds the grant of scope code 4 .pkg, 5 .pod or 7 .sys (R122); other scopes need none (R250). -/
def hasGrant (s : State) (o scope : Nat) : Bool :=
  let row := if scope = 4 then some 0 else if scope = 5 then some 1 else if scope = 7 then some 2 else none
  match row with
  | none => true
  | some r =>
    -- a token entry not listed is the estate's
    if o = s.estate then
      decide ((s.entries.filter (fun e => decide (entryKey 8 (r * 256) ≤ e.1) && decide (e.1 < entryKey 8 (r * 256 + 256)) && e.2.holder != s.estate)).length < 256)
    else s.entries.any (fun e => decide (entryKey 8 (r * 256) ≤ e.1) && decide (e.1 < entryKey 8 (r * 256 + 256)) && e.2.holder == o)

def entryOfCore (n : Nat) : Nat := if n < 16384 then entryKey 1 n else entryKey 3 (n - 16384)

/-- The owner of a core's contexts: its holder (R284), or who held it as long as contexts of a reclaimed core have still to stop (R418); a memory core is kind 3 (R121). -/
def coreOwner (s : State) (n : Nat) : Nat :=
  match s.leaving.find? (fun l => l.entry == entryOfCore n) with
  | some l => l.owner
  | none => if n < 16384 then s.holder 1 n else s.holder 3 (n - 16384)

/-- The owner of the running context. -/
def owner (s : State) : Nat := s.coreOwner s.coreNo

/-- The service cores of each die (R130): SVCCNT cores, 16 when it is 0. -/
def isService (s : State) (core : Nat) : Bool :=
  let n := wbits s.boot.bootctl 39 32
  decide (core < 16384) && decide (core % 1024 < (if n = 0 then 16 else n))

/-- The package's own number (R39). -/
def pkgNum (s : State) : Nat := wbits s.boot.bootctl 12 0

/-! ## Log, answers and free values -/

/-- An error-log entry (R87), also sent as an event for the kinds R88 marks; an event beyond eight drops the oldest (R82). -/
def pushLog (s : State) (kind uclass unit : Nat) (addr detail : Word) : State :=
  let e : LogEntry := { seq := s.log.next, kind := kind, uclass := uclass, unit := unit, time := if s.clock.on then s.time else 0, addr := addr, detail := detail }
  { s with log := { s.log with next := s.log.next + 1, entries := (e :: s.log.entries).take 2048 } }

def answer (s : State) (o : Output) : State := { s with out := o :: s.out }

/-- The four words of an error-log entry (R87). -/
def logWords (e : LogEntry) : List Word := [word (e.seq * 2 ^ 32 + e.kind * 2 ^ 24 + e.uclass * 2 ^ 16 + e.unit % 65536), word e.time, e.addr, e.detail]

/-- An event message (R81, R82): FLAGS bit 6, its number, and the log entry. -/
def eventMessage (n : Nat) (e : LogEntry) : List Byte :=
  toBytes 1 0 ++ toBytes 1 64 ++ toBytes 2 n ++ toBytes 2 0 ++ (logWords e).flatMap (fun w => toBytes 8 w.toNat)

def isEventKind (kind : Nat) : Bool := kind == 4 || kind == 6 || kind == 7 || kind == 11

def logEntry (s : State) (kind uclass unit : Nat) (addr detail : Word) : State :=
  let s := s.pushLog kind uclass unit addr detail
  match isEventKind kind, s.log.entries with
  | true, e :: _ =>
    let n := s.side.nextEv
    let s := State.answer { s with side := { s.side with nextEv := n + 1, events := s.side.events ++ [(n, e)], sentAt := if s.side.events.isEmpty then s.time else s.side.sentAt } } (.sideband (eventMessage n e))
    match s.side.events with
    | (m, _) :: rest =>
      if 8 < s.side.events.length then
        ({ s with side := { s.side with events := rest } }).pushLog 10 7 0 0 (word (m % 65536))
      else s
    | [] => s
  | _, _ => s

end State

/-! ## Homes and lines -/

/-- The die of a core, or of a memory core the near die's hub side (R4, R270). -/
def dieOf (core : Nat) : Nat := core / 1024

/-- The two dies that border a hub, lower first (R9). -/
def hubDies (h : Nat) : Nat × Nat :=
  if h = 0 then (0, 1) else if h = 1 then (2, 3) else if h = 2 then (12, 13) else (14, 15)

/-- The home memory core of an HBM4E address (R209, R5). -/
def homeCore (pa : Nat) : Nat :=
  let g := bits pa 39 36
  (g / 4) * 128 + (g % 4) * 32 + Nat.xor (bits pa 16 12) (bits pa 21 17)

/-- The near die of memory core n's channel (R270). -/
def nearDieOfMc (n : Nat) : Nat :=
  let d := hubDies (n / 128)
  if n / 32 % 4 < 2 then d.1 else d.2

/-- The near die of a cell (R270). -/
def nearDie (k : Nat) : Nat :=
  if k < sramBase then nearDieOfMc (homeCore k)
  else
    let c := (k - sramBase) / 2097152
    if c < 16384 then dieOf c else nearDieOfMc (c - 16384)

/-- Numbers 16384 to 16895 stand for the memory cores. -/
def isMc (core : Nat) : Bool := decide (16384 ≤ core) && decide (core < 16896)

/-- The number that stands for an edge as a requester. -/
def edgeCore (e : Nat) : Nat := 16896 + 128 * e

/-- The interface that translates for a core (R217); edge e is interface 20 + e. -/
def ifaceOf (core : Nat) : Nat := if core < 16384 then dieOf core else 16 + (core - 16384) / 128

/-- The line of a page offset (R199): 0 to 21. -/
def lineIndex (off : Nat) : Nat := if off / 192 < 21 then off / 192 else 21

/-- A line's key: page and line number. -/
def lineKey (k : Nat) : Nat := k / 4096 * 32 + lineIndex (k % 4096)

/-- The first address of a line. -/
def lineStart (k : Nat) : Nat := k / 4096 * 4096 + 192 * lineIndex (k % 4096)

/-- The length of a line. -/
def lineLen (k : Nat) : Nat := if lineIndex (k % 4096) = 21 then 64 else 192

/-- The first address of a sector, and its length (R199). -/
def sectorStart (k : Nat) : Nat := lineStart k + (k - lineStart k) / 48 * 48

def sectorSize (k : Nat) : Nat := if k % 4096 < 4080 then 48 else 16

/-- The first addresses of a line's sectors. -/
def lineSectors (k : Nat) : List Nat :=
  if lineIndex (k % 4096) = 21 then [lineStart k, lineStart k + 48]
  else [lineStart k, lineStart k + 48, lineStart k + 96, lineStart k + 144]

/-- The size of the scratchpad portion of a core (R194, R210). -/
def scratchSize (core : Nat) (c : Core) : Nat := if core < 16384 then 98304 * (16 - c.cbanks) else 262144

/-! ## What holds an access up at its home -/

namespace State

/-- The resource of a key is being scrubbed: its holder's use of it waits (R133). -/
def scrubbing (s : State) (k : Nat) : Bool :=
  match storage k with
  | .hbm => (s.getEntry (entryKey 4 (k / 2097152))).scrub
  | .weight => (s.getEntry (entryKey 5 ((k - 2 ^ 40) / 67108864))).scrub
  | .sram => (s.getEntry (entryOfCore ((k - sramBase) / 2097152))).scrub
  | _ => false

/-- The store key of a device physical address: a pooled one goes to POOLBASE × 2^28 + PA[49:0] (R214). -/
def homeKey (s : State) (pa : Nat) : Nat := if storage pa = .pooled then poolKey (wbits s.host.poolbase 51 28 * 268435456 + pa % 2 ^ 50) else pa

/-- The host holds the HBM4E line of a key (R50). -/
def hostHolds (s : State) (k : Nat) : Option Nat :=
  if storage k = .hbm then (s.host.held.find? (fun h => h.2.1 == lineStart k)).map (·.1) else none

/-- The host holds the only copy of it, so that a read must ask too. -/
def hostOwns (s : State) (k : Nat) : Option Nat :=
  if storage k = .hbm then (s.host.held.find? (fun h => h.2.1 == lineStart k && h.2.2)).map (·.1) else none

/-- Ask the host for a line it holds, once (R50): BISnpInv for a write, BISnpData for a read. -/
def askHost (s : State) (port line : Nat) (inv : Bool) : State :=
  if s.host.asked.contains line then s
  else State.answer { s with host := { s.host with asked := line :: s.host.asked } } (.bisnp port line inv)

/-- Ask the host for a line of which it holds the only copy. -/
def askOwner (s : State) (k : Nat) : State :=
  match s.hostOwns k with
  | some p => s.askHost p (lineStart k) false
  | none => s

end State

end Sys2Proof.Machine
end

