-- ==== Sys2Proof/Machine/Flit.lean ====
section
/-! DEFINITION. What stands on a link: the fields of a transaction, its slots, and the flit that carries them with its CRC and its FEC parity (R62, R63, R68, R69). -/

namespace Sys2Proof.Machine

/-! ## The fields of a transaction (R68) -/

def Txn.kind (t : Txn) : Nat := wbits t.w0 63 59
def Txn.hops (t : Txn) : Nat := wbits t.w0 58 56
def Txn.dpkg (t : Txn) : Nat := wbits t.w0 55 43
def Txn.spkg (t : Txn) : Nat := wbits t.w0 42 30
def Txn.score (t : Txn) : Nat := wbits t.w0 29 16
def Txn.rid (t : Txn) : Nat := wbits t.w0 15 4
def Txn.code (t : Txn) : Nat := wbits t.w0 3 0
def Txn.town (t : Txn) : Nat := wbits t.w1 63 48
def Txn.rown (t : Txn) : Nat := wbits t.w1 47 32
def Txn.transit (t : Txn) : Nat := wbits t.w1 31 0
def Txn.issue (t : Txn) : Nat := t.w2.toNat
def Txn.size (t : Txn) : Nat := wbits t.w3 63 61
def Txn.op (t : Txn) : Nat := wbits t.w3 60 57
def Txn.va (t : Txn) : Nat := wbits t.w3 56 0

/-- The class of a transaction kind (R65, R69): 0 request, 1 response, 2 message, 3 control. -/
def classOf (kind : Nat) : Nat := if kind = 5 then 2 else if kind < 8 then 0 else if kind < 16 then 1 else 3

/-- The data slots that follow a header slot (R69): none for a reserved KIND; a response has its one when it answers OK (log 11). -/
def dataSlots (w0 : Word) : Option Nat :=
  match wbits w0 63 59 with
  | 0 => some 0
  | 1 => some 1
  | 2 => some 1
  | 4 => some 6
  | 5 => some 1
  | 8 => some (if wbits w0 3 0 = 0 then 1 else 0)
  | 9 => some 0
  | 10 => some 1
  | 16 => some 0
  | 17 => some 0
  | _ => none

/-- A transaction's slots: the header, and the data slots of its KIND, filled up with zeros (R68). -/
def txnBytes (t : Txn) : List Byte :=
  toBytes 8 t.w0.toNat ++ toBytes 8 t.w1.toNat ++ toBytes 8 t.w2.toNat ++ toBytes 8 t.w3.toNat ++ (t.data ++ List.replicate 192 0).take (32 * (dataSlots t.w0).getD 0)

/-- PORTSTAT (R79). -/
def portstat (p : Port) : Nat :=
  bit (decide (p.state = 2 ∨ p.state = 3)) * 2 ^ 63 + p.state % 8 * 2 ^ 60 + min p.rtt 0xFFF * 2 ^ 48 + p.feccor % 65536 * 2 ^ 32 + p.replays % 65536 * 2 ^ 16 + p.lanes % 4 * 2 ^ 14 + p.downs % 256

/-! ## CRC-64 over bytes 0 to 227 (R62) -/

/-- One step of CRC-64 (ECMA-182). -/
def crc64Bit (c : Nat) : Nat := if 2 ^ 63 ≤ c then Nat.xor (c * 2 % 2 ^ 64) 0x42F0E1EBA9EA3693 else c * 2

def crc64Byte (c : Nat) (b : Byte) : Nat := crc64Bit (crc64Bit (crc64Bit (crc64Bit (crc64Bit (crc64Bit (crc64Bit (crc64Bit (Nat.xor c (b.toNat * 2 ^ 56)))))))))

def crc64 (l : List Byte) : Nat := l.foldl crc64Byte 0

/-! ## FEC: RS(128,118) over GF(2^8) on the even and on the odd bytes (R62) -/

/-- Twice an element of GF(2^8), in the field that Config.fecField fixes (log 8). -/
def gfDouble (a : Nat) : Nat := if 128 ≤ a then Nat.xor (a * 2) (256 + Config.fecField % 256) else a * 2

/-- Sum and product in GF(2^8): the product takes b's bits from the top. -/
def gfAdd (a b : Nat) : Nat := Nat.xor a b

def gfMulFrom (a b : Nat) : Nat → Nat
  | 0 => 0
  | n + 1 => let r := gfMulFrom a (b / 2) n; if b % 2 = 1 then gfAdd (gfDouble r) a else gfDouble r

def gfMul (a b : Nat) : Nat := gfMulFrom a b 8

def gfPow (a : Nat) : Nat → Nat
  | 0 => 1
  | n + 1 => gfMul a (gfPow a n)

def gfInv (a : Nat) : Nat := gfPow a 254

/-- A word of bytes, highest power first, as a polynomial at x. -/
def gfEval (l : List Nat) (x : Nat) : Nat := l.foldl (fun v c => gfAdd (gfMul v x) c) 0

/-- The ten roots of the generator: consecutive powers of 2 from the power that Config.fecRoot fixes (log 8). -/
def fecRoots : List Nat := (List.range 10).map (fun i => gfPow 2 (Config.fecRoot + i))

/-- The syndromes of 128 bytes: all zero for a codeword. -/
def syndromes (l : List Nat) : List Nat := fecRoots.map (gfEval l)

/-- Solve a square system over GF(2^8), row by row: none where it has no single solution. -/
def gfSolve : Nat → List (List Nat) → Option (List Nat)
  | 0, _ => some []
  | n + 1, rows =>
    match rows.find? (fun r => r.headD 0 != 0) with
    | none => none
    | some p =>
      let inv := gfInv (p.headD 0)
      let p' := p.map (gfMul inv)
      let rest := (rows.erase p).map (fun r => ((r.zip p').map (fun e => gfAdd e.1 (gfMul (r.headD 0) e.2))).drop 1)
      match gfSolve n rest with
      | none => none
      | some xs => some (gfAdd (((p'.drop 1).zip xs).foldl (fun v e => gfAdd v (gfMul e.1 e.2)) 0) (p'.getLastD 0) :: xs)

/-- Correct errors at given positions (from the right, 0 to 127): the magnitudes that give the syndromes, and the bytes; none where they do not. -/
def correctAt (l : List Nat) (pos : List Nat) : Option (List Nat) :=
  let xs := pos.map (gfPow 2)
  let rows := (List.range pos.length).map (fun j => xs.map (fun x => gfPow x (Config.fecRoot + j)) ++ [(syndromes l).getD j 0])
  match gfSolve pos.length rows with
  | none => none
  | some es =>
    let out := ((List.range l.length).zip l).map (fun e => match (pos.zip es).find? (fun p => p.1 + e.1 + 1 == l.length) with | some p => gfAdd e.2 p.2 | none => e.2)
    if (syndromes out).all (· == 0) then some out else none

/-- Correct n errors, or fewer: the error locator from the syndromes, its roots, then the magnitudes. -/
def correctUpTo (l : List Nat) : Nat → Option (List Nat)
  | 0 => none
  | n + 1 =>
    let s := syndromes l
    let rows := (List.range (n + 1)).map (fun i => (List.range (n + 2)).map (fun j => s.getD (i + j) 0))
    let found := match gfSolve (n + 1) rows with
      | none => none
      | some c =>
        -- c holds the locator's coefficients, the constant term's neighbour last
        let pos := (List.range l.length).filter (fun i => let x := gfPow 2 i; gfEval (1 :: c.reverse) x == 0)
        if pos.length = n + 1 then correctAt l pos else none
    found.or (correctUpTo l n)

/-- Decode one codeword: up to 5 byte errors are corrected; whether any was. -/
def rsDecode (l : List Nat) : Option (List Nat × Bool) :=
  if (syndromes l).all (· == 0) then some (l, false) else (correctUpTo l 5).map (fun c => (c, true))

/-- Ten parity bytes for 118: what makes the 128 a codeword. -/
def rsParity (l : List Nat) : List Nat :=
  let s := syndromes (l ++ List.replicate 10 0)
  ((gfSolve 10 ((List.range 10).map (fun j => (List.range 10).map (fun i => gfPow (gfPow 2 (9 - i)) (Config.fecRoot + j)) ++ [s.getD j 0]))).getD [])

/-- Every other element, from the first, and from the second. -/
def evens {α : Type} : List α → List α
  | a :: _ :: l => a :: evens l
  | l => l

def odds {α : Type} (l : List α) : List α := evens (l.drop 1)

/-- Two lists in turn, the first's element first. -/
def interleave {α : Type} : List α → List α → List α
  | a :: l, b :: m => a :: b :: interleave l m
  | l, m => l ++ m

/-- The 20 bytes of FEC parity over a flit's first 236 bytes: those of the even codeword, then those of the odd one (log 8). -/
def fecParity (b : List Byte) : List Byte :=
  (rsParity ((evens b).map (·.toNat)) ++ rsParity ((odds b).map (·.toNat))).map (BitVec.ofNat 8)

/-- FEC decoding of a received flit's 256 bytes: its 236 bytes and whether any byte was corrected; none where a codeword has more than 5 errors. -/
def fecDecode (raw : List Byte) : Option (List Byte × Bool) :=
  let body := raw.take 236
  let par := (raw.drop 236).map (·.toNat)
  match rsDecode ((evens body).map (·.toNat) ++ par.take 10), rsDecode ((odds body).map (·.toNat) ++ (par.drop 10).take 10) with
  | some (e, x), some (o, y) => some ((interleave (e.take 118) (o.take 118)).map (BitVec.ofNat 8), x || y)
  | _, _ => none

/-- A flit: header, payload filled up with empty slots, CRC and parity. -/
def flitBytes (seq ack nak kind : Nat) (slots : List Byte) : List Byte :=
  let body := toBytes 4 (seq % 4096 * 2 ^ 20 + ack % 4096 * 2 ^ 8 + nak * 128 + kind) ++ (slots ++ List.replicate 224 0).take 224
  let all := body ++ toBytes 8 (crc64 body)
  all ++ fecParity all

end Sys2Proof.Machine
end

