-- ==== Sys2Proof/Machine/Numbers.lean ====
section
/-! DEFINITION. Number formats, rounding, saturation, conversions and the order of sums (R296 to R312), computed exactly on integers and rounded once. -/

namespace Sys2Proof.Machine

/-! ## Formats (R298, R323) -/

/-- A binary floating-point format: exponent and fraction widths and bias; `ieee` where the all-ones exponent is infinity and NaN, `flush` for BF16. -/
structure Fmt where
  ebits : Nat
  mbits : Nat
  bias  : Nat
  ieee  : Bool
  flush : Bool
  deriving DecidableEq, Repr

def fp32 : Fmt := ⟨8, 23, 127, true, false⟩
def bf16 : Fmt := ⟨8, 7, 127, true, true⟩
def fp16 : Fmt := ⟨5, 10, 15, true, false⟩
def e4m3 : Fmt := ⟨4, 3, 7, false, false⟩
def e5m2 : Fmt := ⟨5, 2, 15, true, false⟩
def fp64 : Fmt := ⟨11, 52, 1023, true, false⟩

/-- The format of an element code that is floating point (R296). -/
def fmtOf : Nat → Option Fmt
  | 0 => some fp32
  | 1 => some bf16
  | 2 => some fp16
  | 3 => some e4m3
  | 4 => some e5m2
  | _ => none

/-- Element width of a code (R296). -/
def widthOf : Nat → Nat
  | 0 => 32
  | 1 => 16
  | 2 => 16
  | 3 => 8
  | 4 => 8
  | 5 => 4
  | 6 => 8
  | _ => 32

/-- A value read from a format: a NaN, an infinity, or (−1)^neg × m × 2^e. -/
inductive Num where
  | nan (signalling : Bool)
  | inf (neg : Bool)
  | fin (neg : Bool) (m : Nat) (e : Int)
  deriving DecidableEq, Repr

/-- The flags of R308 as a number: NV 16, DZ 8, OF 4, UF 2, NX 1. -/
abbrev Flags := Nat

def fNV : Flags := 16
def fDZ : Flags := 8
def fOF : Flags := 4
def fUF : Flags := 2
def fNX : Flags := 1

/-- The union of two sets of flags. -/
def Flags.or (a b : Flags) : Flags := Nat.lor a b

def Fmt.signBit (f : Fmt) : Nat := 2 ^ (f.ebits + f.mbits)

/-- Read a value (R298 to R300). -/
def Fmt.read (f : Fmt) (v : Nat) : Num :=
  let neg := v / f.signBit % 2 == 1
  let ef := v / 2 ^ f.mbits % 2 ^ f.ebits
  let fr := v % 2 ^ f.mbits
  let top := 2 ^ f.ebits - 1
  if f.ieee ∧ ef = top then
    if fr = 0 then .inf neg else .nan (decide (fr < 2 ^ (f.mbits - 1)))
  else if f.ieee = false ∧ ef = top ∧ fr = 2 ^ f.mbits - 1 then .nan false
  else if ef = 0 then
    if f.flush then .fin neg 0 0 else .fin neg fr (1 - (f.bias : Int) - f.mbits)
  else .fin neg (2 ^ f.mbits + fr) ((ef : Int) - f.bias - f.mbits)

/-- The canonical NaN (R298, R323). -/
def Fmt.canonical (f : Fmt) : Nat :=
  if f.ieee then (2 ^ f.ebits - 1) * 2 ^ f.mbits + 2 ^ (f.mbits - 1) else 2 ^ (f.ebits + f.mbits) - 1

def Fmt.signed (f : Fmt) (neg : Bool) (mag : Nat) : Nat := if neg then f.signBit + mag else mag

/-- The largest finite magnitude. -/
def Fmt.largest (f : Fmt) : Nat :=
  if f.ieee then (2 ^ f.ebits - 1) * 2 ^ f.mbits - 1 else 2 ^ (f.ebits + f.mbits) - 2

/-- An infinite result (R307): the largest finite value under saturation; E4M3 has none and gives the canonical NaN. -/
def Fmt.infinite (f : Fmt) (sat neg : Bool) : Nat :=
  if sat then f.signed neg f.largest
  else if f.ieee then f.signed neg ((2 ^ f.ebits - 1) * 2 ^ f.mbits)
  else f.canonical

/-! ## Rounding (R306) -/

/-- Whether a magnitude with the discarded fraction rem of den is rounded up: modes 0 RNE, 1 RTZ, 2 RDN, 3 RUP, 4 RNA. -/
def roundUp (rm : Nat) (neg odd : Bool) (rem den : Nat) : Bool :=
  if rem = 0 then false
  else if rm = 0 then decide (den < 2 * rem) || (decide (2 * rem = den) && odd)
  else if rm = 1 then false
  else if rm = 2 then neg
  else if rm = 3 then !neg
  else decide (den ≤ 2 * rem)

/-- m × 2^e rounded to a multiple of 2^q: the multiple, and whether it is inexact. -/
def quantize (rm : Nat) (neg : Bool) (m : Nat) (e q : Int) : Nat × Bool :=
  if q ≤ e then (m * 2 ^ (e - q).toNat, false)
  else
    let d := 2 ^ (q - e).toNat
    let up := roundUp rm neg (m / d % 2 == 1) (m % d) d
    (m / d + bit up, decide (m % d ≠ 0))

/-- Round a finite value to a format (R306 to R308). -/
def Fmt.round (f : Fmt) (rm : Nat) (sat neg : Bool) (m : Nat) (e : Int) : Nat × Flags :=
  if m = 0 then (f.signed neg 0, 0)
  else
    let top : Int := e + Nat.log2 m
    let emin : Int := 1 - (f.bias : Int)
    let q := max (top - f.mbits) (emin - f.mbits)
    let r := quantize rm neg m e q
    let free := quantize rm neg m e (top - f.mbits)
    let tiny := decide (top < emin) && !(decide (top + 1 = emin) && decide (2 ^ (f.mbits + 1) ≤ free.1))
    if f.flush ∧ tiny then (f.signed neg 0, fUF + fNX)
    else
      let carry := decide (2 ^ (f.mbits + 1) ≤ r.1)
      let ef : Int := if r.1 < 2 ^ f.mbits then 0 else q + f.mbits + f.bias + bit carry
      let mag : Int := if r.1 < 2 ^ f.mbits then r.1 else ef * 2 ^ f.mbits + ((if carry then r.1 / 2 else r.1) - 2 ^ f.mbits : Int)
      if (f.largest : Int) < mag then
        let away := rm = 0 ∨ rm = 4 ∨ (rm = 2 ∧ neg = true) ∨ (rm = 3 ∧ neg = false)
        (if sat ∨ f.ieee = false ∨ away then f.infinite sat neg else f.signed neg f.largest, fOF + fNX)
      else (f.signed neg mag.toNat, (if r.2 then fNX else 0) + (if tiny && r.2 then fUF else 0))

/-- Round a value that may be special; a NaN gives the canonical NaN and no flag of its own. -/
def Fmt.write (f : Fmt) (rm : Nat) (sat : Bool) : Num → Nat × Flags
  | .nan _ => (f.canonical, 0)
  | .inf neg => (f.infinite sat neg, 0)
  | .fin neg m e => f.round rm sat neg m e

/-- NV for a signalling NaN operand (R299). -/
def Num.nv : Num → Flags
  | .nan true => fNV
  | _ => 0

def Num.isNan : Num → Bool
  | .nan _ => true
  | _ => false

def Num.neg : Num → Num
  | .nan q => .nan q
  | .inf n => .inf (!n)
  | .fin n m e => .fin (!n) m e

/-! ## Exact arithmetic -/

/-- A finite value's signed mantissa at exponent e0 ≤ e. -/
def scaled (neg : Bool) (m : Nat) (e e0 : Int) : Int :=
  let v : Int := m * 2 ^ (e - e0).toNat
  if neg then -v else v

/-- The exact sum (R306's zero rule included): the value, and NV for ∞ − ∞. -/
def Num.add (rm : Nat) : Num → Num → Num × Flags
  | .nan _, _ => (.nan false, 0)
  | _, .nan _ => (.nan false, 0)
  | .inf a, .inf b => if a = b then (.inf a, 0) else (.nan false, fNV)
  | .inf a, _ => (.inf a, 0)
  | _, .inf b => (.inf b, 0)
  | .fin na ma ea, .fin nb mb eb =>
    let e0 := min ea eb
    let v := scaled na ma ea e0 + scaled nb mb eb e0
    if v = 0 then
      (.fin (if ma = 0 ∧ mb = 0 ∧ na = nb then na else decide (rm = 2)) 0 0, 0)
    else (.fin (decide (v < 0)) v.natAbs e0, 0)

/-- The exact product, and NV for 0 × ∞. -/
def Num.mul : Num → Num → Num × Flags
  | .inf a, .fin b m _ => if m = 0 then (.nan false, fNV) else (.inf (a != b), 0)
  | .fin a m _, .inf b => if m = 0 then (.nan false, fNV) else (.inf (a != b), 0)
  | .inf a, .inf b => (.inf (a != b), 0)
  | .fin a ma ea, .fin b mb eb => (.fin (a != b) (ma * mb) (ea + eb), 0)
  | _, _ => (.nan false, 0)

/-- A quotient to 200 bits, its last bit sticky, and its flags (R325). -/
def Num.div : Num → Num → Num × Flags
  | .nan _, _ => (.nan false, 0)
  | _, .nan _ => (.nan false, 0)
  | .inf _, .inf _ => (.nan false, fNV)
  | .inf a, .fin b _ _ => (.inf (a != b), 0)
  | .fin a _ _, .inf b => (.fin (a != b) 0 0, 0)
  | .fin a ma ea, .fin b mb eb =>
    if mb = 0 then (if ma = 0 then (.nan false, fNV) else (.inf (a != b), fDZ))
    else
      let n := ma * 2 ^ 200
      (.fin (a != b) (2 * (n / mb) + bit (decide (n % mb ≠ 0))) (ea - eb - 201), 0)

/-- Integer square root, one bit of the root at a time from bit n − 1 down. -/
def isqrt : Nat → Nat → Nat → Nat
  | 0, r, _ => r
  | n + 1, r, v => if (r + 2 ^ n) * (r + 2 ^ n) ≤ v then isqrt n (r + 2 ^ n) v else isqrt n r v

/-- A square root to 100 bits and more, its last bit sticky (R325). -/
def Num.sqrt : Num → Num × Flags
  | .nan _ => (.nan false, 0)
  | .inf true => (.nan false, fNV)
  | .inf false => (.inf false, 0)
  | .fin neg m e =>
    if m = 0 then (.fin neg 0 0, 0)
    else if neg then (.nan false, fNV)
    else
      let odd := e % 2 ≠ 0
      let v := (if odd then 2 * m else m) * 2 ^ 200
      let e' := (if odd then e - 1 else e) / 2 - 100
      let r := isqrt 160 0 v
      (.fin false (2 * r + bit (decide (r * r ≠ v))) (e' - 1), 0)

/-- a × b + c with one rounding to come; 0 × ∞ is invalid whatever c (R325). -/
def Num.fma (rm : Nat) (a b c : Num) : Num × Flags :=
  if a.isNan ∨ b.isNan then (.nan false, 0)
  else
    let p := a.mul b
    if p.1.isNan then p
    else
      let r := Num.add rm p.1 c
      (r.1, Flags.or p.2 r.2)

/-- Finish an operation in a format: round, with the operands' signalling NaNs. -/
def Fmt.finish (f : Fmt) (rm : Nat) (sat : Bool) (ops : List Num) (r : Num × Flags) : Nat × Flags :=
  let w := f.write rm sat r.1
  (w.1, Flags.or w.2 (Flags.or r.2 (ops.foldl (fun z o => Flags.or z o.nv) 0)))

def Fmt.add (f : Fmt) (rm : Nat) (sat : Bool) (a b : Nat) : Nat × Flags :=
  f.finish rm sat [f.read a, f.read b] (Num.add rm (f.read a) (f.read b))
def Fmt.sub (f : Fmt) (rm : Nat) (sat : Bool) (a b : Nat) : Nat × Flags :=
  f.finish rm sat [f.read a, f.read b] (Num.add rm (f.read a) (f.read b).neg)
def Fmt.mul (f : Fmt) (rm : Nat) (sat : Bool) (a b : Nat) : Nat × Flags :=
  f.finish rm sat [f.read a, f.read b] ((f.read a).mul (f.read b))
def Fmt.div (f : Fmt) (rm : Nat) (sat : Bool) (a b : Nat) : Nat × Flags :=
  f.finish rm sat [f.read a, f.read b] ((f.read a).div (f.read b))
def Fmt.sqrt (f : Fmt) (rm : Nat) (sat : Bool) (a : Nat) : Nat × Flags :=
  f.finish rm sat [f.read a] (f.read a).sqrt
def Fmt.fma (f : Fmt) (rm : Nat) (sat : Bool) (a b c : Nat) : Nat × Flags :=
  f.finish rm sat [f.read a, f.read b, f.read c] (Num.fma rm (f.read a) (f.read b) (f.read c))
/-- c − a × b (R362). -/
def Fmt.fnms (f : Fmt) (rm : Nat) (sat : Bool) (a b c : Nat) : Nat × Flags :=
  f.finish rm sat [f.read a, f.read b, f.read c] (Num.fma rm (f.read a).neg (f.read b) (f.read c))

/-! ## Comparison, minimum and maximum (R326, R327) -/

/-- The order of two numbers that are not NaN: −1, 0 or 1; −0 equals +0. -/
def Num.cmp : Num → Num → Int
  | .inf a, .inf b => if a = b then 0 else if a then -1 else 1
  | .inf a, _ => if a then -1 else 1
  | _, .inf b => if b then 1 else -1
  | .fin na ma ea, .fin nb mb eb =>
    let e0 := min ea eb
    let d := scaled na ma ea e0 - scaled nb mb eb e0
    if d < 0 then -1 else if d = 0 then 0 else 1
  | _, _ => 0

def Num.sign : Num → Bool
  | .inf n => n
  | .fin n _ _ => n
  | .nan _ => false

/-- A returned operand: in BF16 a subnormal is a zero of its sign (R300). -/
def Fmt.keep (f : Fmt) (v : Nat) : Nat :=
  match f.flush, f.read v with
  | true, .fin neg 0 _ => f.signed neg 0
  | _, _ => v

/-- FMIN, or FMAX where big (R326), with saturation of an infinite result (R307). -/
def Fmt.minmax (f : Fmt) (big sat : Bool) (a b : Nat) : Nat × Flags :=
  let x := f.read a
  let y := f.read b
  let fl := Flags.or x.nv y.nv
  let v :=
    if x.isNan ∧ y.isNan then f.canonical
    else if x.isNan then f.keep b
    else if y.isNan then f.keep a
    else
      let c := x.cmp y
      let aLess := decide (c < 0) || (decide (c = 0) && x.sign && !y.sign)
      if aLess != big then f.keep a else f.keep b
  let v := match f.read v with
    | .inf neg => f.infinite sat neg
    | _ => v
  (v, fl)

/-- FCMP: predicate 0 EQ, 1 LT, 2 LE (R327). -/
def Fmt.compare (f : Fmt) (pred a b : Nat) : Bool × Flags :=
  let x := f.read a
  let y := f.read b
  if x.isNan ∨ y.isNan then (false, if pred = 0 then Flags.or x.nv y.nv else fNV)
  else
    let c := x.cmp y
    (if pred = 0 then decide (c = 0) else if pred = 1 then decide (c < 0) else decide (c ≤ 0), 0)

/-- FCLASS's bit number (R329). -/
def Fmt.classify (f : Fmt) (v : Nat) : Nat :=
  match f.read v with
  | .inf true => 0
  | .inf false => 7
  | .nan true => 8
  | .nan false => 9
  | .fin neg m _ =>
    if m = 0 then (if neg then 3 else 4)
    else if v / 2 ^ f.mbits % 2 ^ f.ebits = 0 then (if neg then 2 else 5)
    else (if neg then 1 else 6)

/-! ## Conversions (R309, R328) -/

/-- Float to float: widening exact, narrowing rounded; an infinity to E4M3 is NaN with NV unless saturated. -/
def convFloat (src dst : Fmt) (rm : Nat) (sat : Bool) (v : Nat) : Nat × Flags :=
  match src.read v with
  | .inf neg => (dst.infinite sat neg, if dst.ieee = false ∧ sat = false then fNV else 0)
  | x => dst.finish rm sat [x] (x, 0)

/-- Float to an integer in [lo, hi] (R309): out of range the nearest bound with NV, a NaN 0 with NV. -/
def convToInt (src : Fmt) (rm : Nat) (lo hi : Int) (v : Nat) : Int × Flags :=
  match src.read v with
  | .nan _ => (0, fNV)
  | .inf neg => (if neg then lo else hi, fNV)
  | .fin neg m e =>
    let r := quantize rm neg m e 0
    let i : Int := if neg then -(r.1 : Int) else r.1
    if i < lo then (lo, fNV) else if hi < i then (hi, fNV) else (i, if r.2 then fNX else 0)

/-- An integer to a float (R309). -/
def convFromInt (dst : Fmt) (rm : Nat) (sat : Bool) (i : Int) : Nat × Flags :=
  dst.round rm sat (decide (i < 0)) i.natAbs 0

/-- A two's-complement reading of w bits. -/
def toInt (w v : Nat) : Int := if v % 2 ^ w < 2 ^ (w - 1) then (v % 2 ^ w : Nat) else (v % 2 ^ w : Nat) - (2 ^ w : Nat)

/-- An exact integer result in w bits: wrapped, or the nearest bound with saturation (R301). -/
def fromInt (w : Nat) (sat : Bool) (i : Int) : Nat :=
  let lo : Int := -(2 ^ (w - 1) : Nat)
  let hi : Int := (2 ^ (w - 1) : Nat) - 1
  let j := if sat then (if i < lo then lo else if hi < i then hi else i) else i
  (j % (2 ^ w : Nat)).toNat

/-- An element of format code s converted to format code d, the identity when they are the same (R309, R370). -/
def convElem (s d rm : Nat) (sat : Bool) (v : Nat) : Nat × Flags :=
  if s = d then (v, 0)
  else match fmtOf s, fmtOf d with
    | some f, some g => convFloat f g rm sat v
    | some f, none =>
      let w := widthOf d
      let r := convToInt f rm (-(2 ^ (w - 1) : Nat)) ((2 ^ (w - 1) : Nat) - 1) v
      (fromInt w false r.1, r.2)
    | none, some g => convFromInt g rm sat (toInt (widthOf s) v)
    | none, none => (fromInt (widthOf d) sat (toInt (widthOf s) v), 0)

/-! ## BX4 (R302 to R305) -/

/-- Twice the magnitude of an E2M1 code. -/
def e2m1 (c : Nat) : Nat := [0, 1, 2, 3, 4, 6, 8, 12].getD c 0

/-- The value of an element with code c under a header (R304); none for an element of an invalid block, which is an invalid operand. -/
def bx4Value (c hdr : Nat) : Option Num :=
  let scale := hdr % 256
  if scale = 255 then none
  else
    let e : Int := (scale : Int) - 127
    if c = 8 then
      match e4m3.read (hdr / 256 % 256) with
      | .fin neg m x => some (.fin neg m (x + e))
      | .nan _ => some (.nan false)
      | .inf n => some (.inf n)
    else some (.fin (decide (8 ≤ c)) (e2m1 (c % 8)) (e - 1))

/-! ## Sums (R310 to R312) -/

/-- An exact block sum of products (R310): NaN if one is a NaN or both infinities arise. -/
def blockSum (ps : List Num) : Num :=
  if ps.any (·.isNan) then .nan false
  else
    let infs := ps.filterMap (fun p => match p with | .inf n => some n | _ => none)
    match infs with
    | n :: rest => if rest.all (· == n) then .inf n else .nan false
    | [] =>
      let e0 : Int := ps.foldl (fun z p => match p with | .fin _ _ e => min z e | _ => z) 0
      let v := ps.foldl (fun z p => match p with | .fin n m e => z + scaled n m e e0 | _ => z) (0 : Int)
      .fin (decide (v < 0)) v.natAbs e0

/-- One step of reduce: the block sum rounded to FP32, then added to the accumulator, both RNE (R310). -/
def reduceStep (sat : Bool) (acc : Nat) (ps : List Num) : Nat :=
  let b := (fp32.write 0 sat (blockSum ps)).1
  (fp32.add 0 sat acc b).1

/-- The product of two elements, NaN where it is 0 × ∞. -/
def product (a b : Num) : Num := if a.isNan ∨ b.isNan then .nan false else (a.mul b).1

/-! ## The approximated functions (R364) -/

/-- A candidate some steps from a base value, kept only where the check holds. -/
def candidate (base : Nat) (free : Nat) (ok : Nat → Bool) : Nat :=
  let c := base + free % 9 - 4
  if ok c then c else base

/-- Whether |x − 1| ≤ 2^−22 for x = n/d. -/
def nearOne (n d : Nat) : Bool := decide (n * 2 ^ 22 ≤ d * (2 ^ 22 + 1)) && decide (d * (2 ^ 22 - 1) ≤ n * 2 ^ 22)

/-- Whether x, between 0 and 2, lies between (1 − 2^−22)² and (1 + 2^−22)². -/
def nearOneSquared (n d : Nat) : Bool :=
  decide (n * 2 ^ 44 ≤ d * ((2 ^ 22 + 1) * (2 ^ 22 + 1))) && decide (d * ((2 ^ 22 - 1) * (2 ^ 22 - 1)) ≤ n * 2 ^ 44)

/-- The product m × 2^e as a fraction. -/
def fraction (m : Nat) (e : Int) : Nat × Nat := if 0 ≤ e then (m * 2 ^ e.toNat, 1) else (m, 2 ^ (-e).toNat)

/-- Bounds of 2^(2^-j) × 2^320 for j = 1, 2, ..., from below and from above: each the root of the one before. -/
def twoRoots : Nat → Nat → Nat → List (Nat × Nat)
  | 0, _, _ => []
  | n + 1, lo, hi =>
    let a := isqrt 322 0 (lo * 2 ^ 320)
    let b := isqrt 322 0 (hi * 2 ^ 320) + 1
    (a, b) :: twoRoots n a b

/-- Bounds of 2^(s / 2^k) × 2^320 for s below 2^k: the product of the roots that the bits of s choose. -/
def twoPower (s k : Nat) : Nat × Nat :=
  ((List.range k).zip (twoRoots k (2 ^ 321) (2 ^ 321))).foldl (fun z e =>
    if bits s (k - 1 - e.1) (k - 1 - e.1) = 1 then (z.1 * e.2.1 / 2 ^ 320, z.2 * e.2.2 / 2 ^ 320 + 1) else z) (2 ^ 320, 2 ^ 320)

/-- VSQRT, VEXP2, VRCP and VRSQRT of a finite operand outside the table of special cases: one of the values the bound allows, whichever the part returns. -/
def approxValue (f6 : Nat) (a : Nat) (neg : Bool) (m : Nat) (e : Int) : Nat :=
  let free := (Config.approx f6 (BitVec.ofNat 32 a)).toNat
  if f6 = 9 then
    -- one of the two FP32 values nearest the root
    match (Num.fin neg m e).sqrt.1 with
    | .fin n r x => (fp32.round (if free % 2 = 0 then 2 else 3) false n r x).1
    | _ => fp32.canonical
  else if f6 = 10 then
    -- 2^a = 2^i × 2^(n / 2^k) with n below 2^k
    let k := (-(min e 0)).toNat
    let s := scaled neg m e (min e 0)
    let i := s / (2 ^ k : Nat)
    let p := twoPower (s % (2 ^ k : Nat)).toNat k
    let base := (fp32.round 0 false false p.1 (i - 320)).1
    candidate base free (fun c => match fp32.read c with
      | .fin false cm ce =>
        let x := fraction cm (ce - (i - 320))
        decide (x.1 * 2 ^ 22 ≤ x.2 * p.1 * (2 ^ 22 + 1)) && decide (x.2 * p.2 * (2 ^ 22 - 1) ≤ x.1 * 2 ^ 22)
      | _ => false)
  else if f6 = 11 then
    match (Num.div (.fin false 1 0) (.fin neg m e)).1 with
    | .fin n r x =>
      let base := (fp32.round 0 false n r x).1
      candidate base free (fun c => match fp32.read c with
        | .fin cn cm ce => let q := fraction (cm * m) (ce + e); cn == neg && decide (0 < cm / 2 ^ 23) && nearOne q.1 q.2
        | _ => false)
    | _ => fp32.canonical
  else
    match (Num.fin neg m e).sqrt.1 with
    | .fin _ r x =>
      match (Num.div (.fin false 1 0) (.fin false r x)).1 with
      | .fin n q y =>
        let base := (fp32.round 0 false n q y).1
        candidate base free (fun c => match fp32.read c with
          | .fin false cm ce => let z := fraction (cm * cm * m) (2 * ce + e); nearOneSquared z.1 z.2
          | _ => false)
      | _ => fp32.canonical
    | _ => fp32.canonical

/-- Whether a magnitude is a power of two, and of which exponent. -/
def powerOfTwo (m : Nat) (e : Int) : Option Int := if m ≠ 0 ∧ m = 2 ^ Nat.log2 m then some (e + Nat.log2 m) else none

/-- VSQRT 9, VEXP2 10, VRCP 11, VRSQRT 12 of an FP32 operand (R364). -/
def approxOp (f6 : Nat) (sat : Bool) (a : Nat) : Nat × Flags :=
  let inf (neg : Bool) (fl : Flags) : Nat × Flags := (fp32.infinite sat neg, fl)
  let nan : Nat × Flags := (fp32.canonical, fNV)
  let one : Nat := 0x3F800000
  match fp32.read a with
  | .nan q => (fp32.canonical, if q then fNV else 0)
  | .inf neg =>
    if f6 = 9 then (if neg then nan else inf false 0)
    else if f6 = 10 then (if neg then (0, 0) else inf false 0)
    else if f6 = 11 then (fp32.signed neg 0, 0)
    else (if neg then nan else (0, 0))
  | .fin neg m e =>
    if m = 0 then
      (if f6 = 9 then (fp32.signed neg 0, 0) else if f6 = 10 then (one, 0) else inf neg fDZ)
    else if f6 = 9 then (if neg then nan else (approxValue f6 a neg m e, fNX))
    else if f6 = 10 then
      let s := scaled neg m e (min e 0)
      let d : Int := (2 ^ ((min e 0 * -1).toNat) : Nat)
      if 128 * d ≤ s then inf false (fOF + fNX)
      else if s < -126 * d then (0, fUF + fNX)
      else if s % d = 0 then ((fp32.round 0 false false 1 (s / d)).1, 0)
      else (approxValue f6 a neg m e, fNX)
    else if f6 = 11 then
      -- compare |1/a| with 2^−126 and with the largest finite value
      let x := fraction m e
      match powerOfTwo m e with
      | some k =>
        if -126 ≤ -k ∧ -k ≤ 127 then ((fp32.round 0 false neg 1 (-k)).1, 0)
        else if -k < -126 then (fp32.signed neg 0, fUF + fNX) else inf neg (fOF + fNX)
      | none =>
        if x.2 * 2 ^ 126 < x.1 then (fp32.signed neg 0, fUF + fNX)
        else if x.1 * ((2 ^ 24 - 1) * 2 ^ 104) < x.2 then inf neg (fOF + fNX)
        else (approxValue f6 a neg m e, fNX)
    else if neg then nan
    else match powerOfTwo m e with
      | some k => if k % 2 = 0 then ((fp32.round 0 false false 1 (-(k / 2))).1, 0) else (approxValue f6 a neg m e, fNX)
      | none => (approxValue f6 a neg m e, fNX)

end Sys2Proof.Machine
end

