-- ==== Sys2Proof/Machine/Translate.lean ====
section
/-! DEFINITION. Address translation under time leases (R216 to R238): the walk, its caches and the dirty log. -/

namespace Sys2Proof.Machine

/-- What a translated access needs (R229). -/
inductive Need where
  | read | write | exec
  deriving DecidableEq, Repr

/-- A walk that gives no translation: KIND, LEVEL and PTE of R185, or KIND 8, the model's own, where the table read at address PTE only has to wait. -/
structure Service where
  kind  : Nat
  level : Nat
  pte   : Word
  refused : Option Nat := none    -- the table address that its memory core refused to read (R142)
  deriving DecidableEq, Repr

/-- How long an entry of a lease class is cached (R224); 0 for class 0. -/
def cachedFor (lc : Nat) : Nat := if lc = 0 then 0 else 1024 * 4 ^ (lc - 1)

/-- The span of VA that one entry of a level covers. -/
def levelSpan (l : Nat) : Nat := 4096 * 512 ^ l

/-- The index of a VA at a level (R216). -/
def levelIndex (va l : Nat) : Nat := va / levelSpan l % 512

def pteFrame (p : Nat) : Nat := bits p 51 12 * 4096
def pteClass (p : Nat) : Nat := bits p 63 61

/-- A valid table entry's conditions (R220). -/
def tableGood (p : Nat) : Bool :=
  bits p 57 52 == 0 && bits p 11 7 == 0 && bits p 60 58 == 0 && bits p 6 5 == 0 && bits p 3 1 == 0 && decide (pteFrame p < 2 ^ 40)

/-- A valid leaf's conditions at level 1 or 0 (R220). -/
def leafGood (l p : Nat) : Bool :=
  bits p 57 52 == 0 && bits p 11 7 == 0 && !(bits p 2 2 == 1 && bits p 1 1 == 0) && !(bits p 60 60 == 1 && bits p 2 2 == 1) &&
  (if l = 1 then bits p 6 5 == 1 && bits p 58 58 == 0 && bits p 20 12 == 0
   else bits p 6 5 == 0 && (bits p 58 58 == 0 || bits p 15 12 == 0))

namespace State

/-- A table read at its home (R218): kind 7 where the word is poisoned, 9 where the walked owner does not hold the frame extent, 8 where the read waits for a scrub (R133) or for the host's copy (R50). -/
def readPte (s : State) (owner a : Nat) : Except Nat Nat :=
  if s.holder 4 (a / 2097152) ≠ owner then .error 9
  else if s.scrubbing a ∨ (s.hostOwns a).isSome then .error 8
  else if s.poisoned a 8 then .error 7
  else .ok (s.natAt a 8)

/-- The service that a failed table read at an address asks for, with the PTE it reports. -/
def readService (k level a pte : Nat) : Service :=
  { kind := if k = 9 then 7 else k, level := level, pte := word (if k = 8 then a else pte), refused := if k = 9 then some a else none }

/-- The sixteen leaves that a contiguous hint may merge (R222): their addresses in the table. -/
def mergeAddrs (table idx l p : Nat) : List Nat :=
  if l = 0 ∧ bits p 58 58 = 1 then (List.range 16).map (fun i => table + 8 * (idx / 256 * 256 + 16 * i))
  else (List.range 16).map (fun i => table + 8 * (idx / 16 * 16 + i))

/-- The size one leaf covers. -/
def leafSize (l p : Nat) : Nat := if l = 1 then 2097152 else if bits p 58 58 = 1 then 65536 else 4096

/-- Whether the sixteen leaves merge (R222): all valid, alike but for FRAME, and consecutive from an aligned base, with the indexed one in its place among them. A replica leaf's FRAME names its vector and not its page (R223), so it is cached alone. -/
def merges (s : State) (owner table idx l p : Nat) : Bool :=
  let sz := leafSize l p
  let ps := (mergeAddrs table idx l p).map (s.readPte owner)
  let base := match ps with | .ok q :: _ => pteFrame q | _ => 0
  bits p 59 59 == 1 && bits p 60 60 == 0 && base % (16 * sz) == 0 && pteFrame p == base + (if sz = 65536 then idx / 16 % 16 else idx % 16) * sz &&
  ((List.range 16).zip ps).all (fun e =>
    match e.2 with
    | .ok q => bits q 0 0 == 1 && pteFrame q == base + e.1 * sz && q - pteFrame q == p - pteFrame p
    | .error _ => false)

/-- The first of the leaves that a contiguous hint has the walk read whose read waits. -/
def mergeWaits (s : State) (owner table idx l p : Nat) : Option Nat :=
  if bits p 59 59 = 1 then (mergeAddrs table idx l p).find? (fun a => match s.readPte owner a with | .error k => k == 8 | .ok _ => false) else none

/-- The frame a leaf maps on an interface, through its replica vector if it has one (R223): else the service it needs, of kind 1 where word 0 is not valid, 5 where the vector is not in HBM4E or a valid word that is read breaks R220, and as its reads fail. -/
def leafFrame (s : State) (iface owner l p : Nat) : Except Service Nat :=
  let v := pteFrame p
  let bad (k : Nat) : Except Service Nat := .error (readService k l 0 p)
  let good (w : Nat) : Bool := bits w 63 52 == 0 && bits w 11 1 == 0 && pteFrame w % leafSize l p == 0
  if bits p 60 60 = 0 then .ok v
  else if 2 ^ 40 ≤ v then bad 5
  else match s.readPte owner v with
    | .error k => .error (readService k l v p)
    | .ok w0 =>
      if w0 % 2 = 0 then bad 1
      else if good w0 = false then bad 5
      else if 16 ≤ iface then .ok (pteFrame w0)
      else match s.readPte owner (v + 8 * iface) with
        | .error k => .error (readService k l (v + 8 * iface) p)
        | .ok wd => if wd % 2 = 0 then .ok (pteFrame w0) else if good wd then .ok (pteFrame wd) else bad 5

/-- Whether the host has denied an access to a page of host memory whose translation ATS serves (R56, R57). -/
def hostDenied (s : State) (frame : Nat) (need : Need) : Bool :=
  decide (storage frame = .host) && s.host.links.toList.any (·.ats) && s.host.atsDenied.any (fun d => d.1 == frame / 4096 && (!d.2 || need == .write))

/-- The leaf step of a walk (R229): first R220, then the replica vector, then permission. A path with a class-0 entry serves one request and ends 1,024 ticks from now (R225). -/
def walkLeaf (s : State) (iface owner va : Nat) (need : Need) (l table p stop : Nat) (cached : Bool) : Except Service (Trans × Bool) :=
  let svc (k v : Nat) : Except Service (Trans × Bool) := .error { kind := k, level := l, pte := word v }
  if ¬ leafGood l p then svc 5 p
  else match s.leafFrame iface owner l p with
    | .error v => .error v
    | .ok frame =>
      if need = .read ∧ bits p 1 1 = 0 then svc 1 p
      else if need = .exec ∧ bits p 3 3 = 0 then svc 4 p
      else if need = .write ∧ bits p 60 60 = 1 then svc 3 p
      else if need = .write ∧ bits p 2 2 = 0 then svc 2 p
      else
        let idx := levelIndex va l
        match s.mergeWaits owner table idx l p with
        | some a => svc 8 a
        | none =>
          let sz := leafSize l p
          let big := s.merges owner table idx l p
          let size := if big then 16 * sz else sz
          let base := va / size * size
          let pa0 := if big then (frame - (va / sz % 16) * sz) else frame
          if s.hostDenied (pa0 + (va - base)) need then svc 6 p
          else
            let lc := pteClass p
            let keep := cached && lc != 0
            .ok ({ owner := owner, va := base, size := size, pa := pa0, read := bits p 1 1 == 1, write := bits p 2 2 == 1, exec := bits p 3 3 == 1,
                   repl := bits p 60 60 == 1, stop := if keep then min stop (s.time + cachedFor lc) else s.time + 1024, dirty := false, leaf := sz }, keep)

/-- The walk-cache entry that stands for an entry of this table (R225). -/
def cachedTable (s : State) (iface owner va l table : Nat) : Option Walked :=
  if s.clock.inSync then
    (s.getIface iface).walk.find? (fun w => w.owner == owner && w.level == l && w.table == table && w.va == va / levelSpan l && decide (s.time < w.stop))
  else none

/-- A walk from a table of a level down (R216, R218, R229), each entry read or taken from the walk cache, so that every entry of the path counts for the end (R225): the translation, or the service it needs, and the table entries read valid (R421). -/
def walkFrom (s : State) (iface owner va : Nat) (need : Need) : Nat → Nat → Nat → Bool → Except Service (Trans × Bool) × List Walked
  | 0, table, stop, cached =>
    let a := table + 8 * levelIndex va 0
    match s.readPte owner a with
    | .error k => (.error (readService k 0 a 0), [])
    | .ok p =>
      if p % 2 = 0 then (.error { kind := 1, level := 0, pte := word p }, [])
      else if bits p 4 4 = 1 then (s.walkLeaf iface owner va need 0 table p stop cached, [])
      else (.error { kind := 5, level := 0, pte := word p }, [])
  | l + 1, table, stop, cached =>
    match s.cachedTable iface owner va (l + 1) table with
    | some w => s.walkFrom iface owner va need l w.frame (min stop w.stop) cached
    | none =>
      let a := table + 8 * levelIndex va (l + 1)
      match s.readPte owner a with
      | .error k => (.error (readService k (l + 1) a 0), [])
      | .ok p =>
        if p % 2 = 0 then (.error { kind := 1, level := l + 1, pte := word p }, [])
        else if bits p 4 4 = 1 then
          if 0 < l then (.error { kind := 5, level := l + 1, pte := word p }, [])
          else (s.walkLeaf iface owner va need 1 table p stop cached, [])
        else if ¬ tableGood p then (.error { kind := 5, level := l + 1, pte := word p }, [])
        else
          let lc := pteClass p
          let r := s.walkFrom iface owner va need l (pteFrame p) (if lc = 0 then stop else min stop (s.time + cachedFor lc)) (cached && lc != 0)
          if lc = 0 then r
          else (r.1, { owner := owner, level := l + 1, va := va / levelSpan (l + 1), table := table, frame := pteFrame p, stop := s.time + cachedFor lc } :: r.2)

/-- How many leaves and walk entries an interface keeps (R217). -/
def leafCap (iface : Nat) : Nat := if iface < 16 then 8192 else 4096
def walkCap (iface : Nat) : Nat := if iface < 16 then 512 else 256

/-- The size code of a dirty entry (R237). -/
def sizeCode (n : Nat) : Nat :=
  if n = 4096 then 0 else if n = 65536 then 1 else if n = 1048576 then 2 else if n = 2097152 then 3 else 4

/-- Note a write through a translation in the interface's dirty log (R236): once for each cached translation, and on every write of an uncached one unless it repeats the last entry. -/
def noteDirty (s : State) (iface : Nat) (t : Trans) (cached : Bool) : State :=
  let i := s.getIface iface
  let e := (t.owner, t.va, sizeCode t.size)
  let agent := if iface < 16 then iface else 16 + iface % 4
  let held := if s.harvest.contains (agent, t.owner) then s.harvest else s.harvest ++ [(agent, t.owner)]
  if cached then
    if t.dirty then s
    else ({ s with harvest := held }).setIface iface
      { i with dirty := i.dirty ++ [e], logged := some e, leaf := i.leaf.map (fun x => if x = t then { x with dirty := true } else x) }
  else if i.logged = some e then s
  else ({ s with harvest := held }).setIface iface { i with dirty := i.dirty ++ [e], logged := some e }

/-- The permission that a cached translation gives. -/
def allows (t : Trans) (need : Need) : Bool :=
  match need with
  | .read => t.read
  | .write => t.write
  | .exec => t.exec

/-- A table read that its memory core refused is logged there (R142, R218). -/
def logWalk (s : State) (owner va : Nat) (e : Service) : State :=
  match e.refused with
  | none => s
  | some a => s.logEntry 2 1 (homeCore a) (word va) (word (3 + owner * 2 ^ 48 + owner * 2 ^ 32))

/-- The same for a walk of the device's own, but for one that it makes again while its fault stands in a fault page. -/
def logOnce (s : State) (owner va : Nat) (e : Service) : State :=
  if s.faults.any (fun p => p.2.any (fun f => f.valid && f.owner == owner && f.va / 4096 == va / 4096)) then s else s.logWalk owner va e

/-- Look an address of an owner's space up at an interface (R216 to R229): the store key of the physical address with the translation and whether it is cached, or the service it needs. -/
def lookUp (s : State) (iface owner va : Nat) (need : Need) : Except Service (Nat × Trans × Bool) × State :=
  let i := s.getIface iface
  match i.leaf.find? (fun t => t.owner == owner && decide (t.va ≤ va) && decide (va < t.va + t.size) && allows t need && decide (s.time < t.stop) && !(s.hostDenied (t.pa + (va - t.va)) need)) with
  | some t => (.ok (s.homeKey (t.pa + (va - t.va)), t, true), s)
  | none =>
    let root := (s.ownerRec owner).root
    if root = 0 then (.error { kind := 1, level := 4, pte := 0 }, s)
    else if 2 ^ 40 ≤ root then (.error { kind := 5, level := 4, pte := 0 }, s)
    else
      let r := s.walkFrom iface owner va need 4 root (s.time + 2 ^ 40) s.clock.inSync
      let s := if s.clock.inSync then s.setIface iface { i with walk := (r.2 ++ i.walk).take (walkCap iface) } else s
      match r.1 with
      | .error e => (.error e, if e.kind = 8 then s.askOwner e.pte.toNat else s)
      | .ok (t, keep) =>
        let i := s.getIface iface
        let s := if keep then s.setIface iface { i with leaf := (t :: i.leaf).take (leafCap iface) } else s
        (.ok (s.homeKey (t.pa + (va - t.va)), t, keep), s)

/-- The first n reads of a walk for an address of an owner's space (R218): the table entries that the walk cache has not, which enter it where they are valid (R421). The walk goes on from them later, so that other steps may come between one read and the next. -/
def walkReads (s : State) (iface owner va n : Nat) : State :=
  let root := (s.ownerRec owner).root
  let i := s.getIface iface
  if root = 0 ∨ 2 ^ 40 ≤ root ∨ s.clock.inSync = false then s
  else s.setIface iface { i with walk := ((s.walkFrom iface owner va .read 4 root (s.time + 2 ^ 40) true).2.take n ++ i.walk).take (walkCap iface) }

/-- Translate for an access: a write access (R229) is noted in the dirty log (R236), and a refused table read of its walk is logged (R142). The device's own writes, which R229 does not list, look the address up only. -/
def translate (s : State) (iface owner va : Nat) (need : Need) : Except Service (Nat × Trans) × State :=
  match s.lookUp iface owner va need with
  | (.ok (pa, t, cached), s) => (.ok (pa, t), if need = .write then s.noteDirty iface t cached else s)
  | (.error v, s) => (.error v, s.logWalk owner va v)

end State

end Sys2Proof.Machine
end

