-- ==== Sys2Proof/Machine/Ops.lean ====
section
/-! DEFINITION. The shared operations: registers, stores and their visibility, ready work, suspension, traps and reports, and the fault block. -/

namespace Sys2Proof.Machine

/-! ## Register pages (R170) -/

/-- A 64-bit number from 16-bit masks, four from n up; m0 reads 0xFFFF (R277). -/
def maskWord (m : Vector (BitVec 16) 8) (n : Nat) : Word :=
  word ((List.range 4).foldl (fun z i => z + (if n + i = 0 then 0xFFFF else (m.toList.getD (n + i) 0).toNat) * 2 ^ (16 * i)) 0)

/-- Word w of a register page. -/
def pageWord (c : Ctx) (w : Nat) : Word :=
  if w < 28 then (if w = 0 then 0 else c.x.toList.getD w 0)
  else if w < 32 then c.pdest.toList.getD (w - 28) 0
  else if 256 ≤ w then word ((c.v.toList.getD ((w - 256) / 8) 0).toNat / 2 ^ (64 * (w % 8)))
  else match w with
    | 32 => c.rtb
    | 33 => c.stat
    | 34 => c.scla
    | 35 => c.sclb
    | 36 => c.ela
    | 37 => c.elb
    | 38 => c.ssha
    | 39 => c.sshb
    | 40 => c.evc
    | 41 => word c.copyCount
    | 42 => c.copyErr
    | 48 => word c.rstack.length
    | 66 => maskWord c.m 0
    | 67 => maskWord c.m 4
    | _ => if 49 ≤ w ∧ w < 65 then (c.rstack.reverse ++ c.rdead).getD (w - 49) 0 else 0

namespace State

/-! ## Registers and the PC (R277, R295) -/

/-- A scalar register that is no port; x0 reads 0. -/
def rx (s : State) (r : Nat) : Word := if r = 0 then 0 else s.ctx.x.toList.getD r 0

def setCtx (s : State) (c : Ctx) : State := { s with ctx := c }

/-- Write a scalar register that is no port; x0 discards. -/
def wx (s : State) (r : Nat) (v : Word) : State :=
  if r = 0 then s else s.setCtx { s.ctx with x := s.ctx.x.setIfInBounds r v }

def setPc (s : State) (a : BitVec 57) : State := s.setCtx { s.ctx with pc := a, wait := .ready, word := none }

/-- The next instruction (R295). -/
def next (s : State) : State := s.setPc (s.ctx.pc + 4)

/-- The context waits (R169); it stays resident. -/
def await (s : State) (w : Wait) : State := s.setCtx { s.ctx with wait := w }

def pcWord (s : State) : Word := s.ctx.pc.setWidth 64

/-! ## Stores: visibility (R241 to R245) -/

/-- Lm: the latest end of the leases standing on a line, first-level and die leases, 0 for none; a lease outlives the copy under which it was granted (R207, R241). -/
def leaseEnd (s : State) (k : Nat) : Nat :=
  s.l2.foldl (fun m e => if e.line = lineKey k ∧ e.excl = false ∧ s.time < e.stop then max m e.stop else m)
    (s.leases.foldl (fun m l => if l.1 = lineKey k ∧ s.time < l.2.2 then max m l.2.2 else m) 0)

/-- The V of a write that arrives now (R241), never before that of one serialised earlier at its location (R243). -/
def formV (s : State) (k n : Nat) : Nat :=
  let lm := match storage k with
    | .hbm => s.leaseEnd k
    | .host => s.leaseEnd k
    | _ => 0
  let own := if lm = 0 then s.time else max s.time (lm + 2)
  s.arrived.foldl (fun m a => if a.key < k + n ∧ k < a.key + max 8 (a.bytes.foldl (fun z e => max z (e.1 + 1)) 0) then max m a.vis else m) own

/-- The byte that the last store serialised at a location left (R256). -/
def serialByte (s : State) (k : Nat) : Byte :=
  s.arrived.foldl (fun b a =>
    match (a.bytes.find? (fun e => a.key + e.1 == k)) with
    | some e => e.2
    | none => b) (s.byteAt k)

def serialNat (s : State) (k n : Nat) : Nat := ofBytes ((List.range n).map (fun i => s.serialByte (k + i)))

/-- The tag the last operation serialised at a word left (R266). -/
def serialTag (s : State) (k : Nat) : BitVec 2 :=
  s.arrived.foldl (fun t a => if a.key / 8 = k / 8 then a.tag.getD t else t) (s.tagAt k)

/-- The core whose L2 a write passes: a core's own, or that of the core whose engine writes; none for a hub, a memory core, the host and the device itself. -/
def writerCore (n : Nat) : Option Nat := if n < 16384 then some n else if 24576 ≤ n ∧ n < 40960 then some (n - 24576) else none

/-! ### The L2s (R206, R207) -/

/-- The L2 slice of a line on a die (R206), by the key of a byte of it. -/
def sliceOf (die k : Nat) : Nat := die * 16 + Nat.xor (Nat.xor (bits k 19 16) (bits k 15 12)) (lineIndex (k % 4096) % 16)

/-- The first address of a line key's line. -/
def lineAddr (line : Nat) : Nat := line / 32 * 4096 + 192 * (line % 32)

/-- How many lines of 192 bytes a slice of 8 MiB holds. -/
def sliceLines : Nat := 8388608 / 192

/-- Dirty bytes of a host line reach the host: its own copy is now the device's. -/
def writeBack (s : State) (line n : Nat) : State :=
  { s with host := { s.host with dirty := s.host.dirty.filter (fun d => decide (d.1 < line) || decide (line + n ≤ d.1)) } }

/-- A line leaves a die's L2 by eviction: dirty bytes of a host line go back, and its port's tracker drops the die (R53, R206). The leases granted on it stand. -/
def l2Evict (s : State) (e : L2Line) : State :=
  let a := lineAddr e.line
  let s := { s with l2 := s.l2.erase e }
  if storage a = .host then
    let s := s.writeBack a (lineLen a)
    { s with host := { s.host with tracker := s.host.tracker.filter (fun t => !(t.2.1 == a && t.2.2 == e.die)) } }
  else s

/-- A line comes into a die's L2, the oldest of a full slice leaving it (log 13). -/
def l2Put (s : State) (e : L2Line) : State :=
  let mine := s.l2.filter (fun x => x.die == e.die && sliceOf x.die (lineAddr x.line) == sliceOf e.die (lineAddr e.line))
  let s := match (if sliceLines ≤ mine.length then mine.head? else none) with | some o => s.l2Evict o | none => s
  { s with l2 := s.l2 ++ [e] }

def l2Find (s : State) (die line : Nat) : Option L2Line := s.l2.find? (fun e => e.die == die && e.line == line)

def l2Set (s : State) (die line : Nat) (f : L2Line → L2Line) : State :=
  { s with l2 := s.l2.map (fun (e : L2Line) => if e.die = die ∧ e.line = line then f e else e) }

/-- A die's L2 holds a line marked contended (R202). -/
def contended (s : State) (die line : Nat) : Bool := ((s.l2Find die line).map (·.contended)).getD false

/-- A die's L2 serves a read of a line and grants a lease on it (R207): under a shared copy, whose die lease is renewed as far as that lease needs, or as the exclusive holder; another die that held it exclusive has given that up and reported its latest lease end. -/
def l2Share (s : State) (die k stop : Nat) : State :=
  let line := lineKey k
  let s := { s with l2 := s.l2.map (fun (e : L2Line) => if e.line = line ∧ e.die ≠ die ∧ e.excl then { e with excl := false, stop := e.granted } else e) }
  match s.l2Find die line with
  | some _ => s.l2Set die line (fun (e : L2Line) => if e.excl then { e with granted := max e.granted stop } else { e with stop := max e.stop stop, granted := max e.granted stop })
  | none => s.l2Put { die := die, line := line, excl := false, stop := stop, granted := stop, contended := false }

/-- A line holds a word that is not VAL, as seen or as last serialised. -/
def lineNonVal (s : State) (k : Nat) : Bool :=
  s.tags.any (fun e => lineKey (e.1 * 8) == lineKey k) || s.arrived.any (fun a => lineKey a.key == lineKey k && a.tag.any (· != 0))

/-- A write reaches a line (R202, R207): the copies in other dies' L2s are invalid, and the L2 that it passes holds the line exclusive, marked where a lease that it granted to another core stands; a line that has a word which is not VAL, or comes to have one, no L2 keeps (R266). -/
def markLine (s : State) (core k : Nat) (nonval : Bool) : State :=
  let line := lineKey k
  if storage k ≠ .hbm ∧ storage k ≠ .host then s
  else
    let by' : Option Nat := if nonval || s.lineNonVal k then none else writerCore core
    let keep : Option Nat := by'.map dieOf
    let s := if s.l2.any (fun e => e.line == line && some e.die != keep) then { s with l2 := s.l2.filter (fun e => e.line != line || some e.die == keep) } else s
    match by' with
    | none => s
    | some n =>
      let hit := s.leases.any (fun l => l.1 == line && l.2.1 != n && dieOf l.2.1 == dieOf n && decide (s.time < l.2.2))
      match s.l2Find (dieOf n) line with
      | some _ => s.l2Set (dieOf n) line (fun (e : L2Line) => { e with excl := true, contended := e.contended || hit })
      | none => s.l2Put { die := dieOf n, line := line, excl := true, stop := 0, granted := 0, contended := hit }

def markContended (s : State) (core k : Nat) : State := s.markLine core k false

/-! ## Gating (R24) -/

/-- A unit is woken: its gating sequence ends, or its mark goes; a quad's die wakes with it. -/
def wakeUnit (s : State) (isDie : Bool) (unit : Nat) : State :=
  { s with gating := s.gating.filter (fun g => !((g.isDie == isDie && g.unit == unit) || (g.isDie && !isDie && g.unit == unit / 256))) }

/-- A core that a placement or a task needs is woken; the model lets no time pass for it (log 36). -/
def wakeCore (s : State) (core : Nat) : State := if s.gating.isEmpty ∨ isMc core then s else s.wakeUnit false (core / 4)

/-! ## Ready work (R162, R166) -/

def getInstar (s : State) (k : Key) : Option Instar := (s.instars.find? (fun p => p.1 == k)).map (·.2)

def setInstar (s : State) (k : Key) (i : Instar) : State :=
  { s with instars := if (s.getInstar k).isSome then s.instars.map (fun p => if p.1 = k then (k, i) else p) else s.instars ++ [(k, i)] }

def freeInstar (s : State) (k : Key) : State := { s with instars := s.instars.filter (fun p => p.1 != k) }

/-- The first number from n up, of fuel tried, that a test accepts. -/
def firstFrom (ok : Nat → Bool) : Nat → Nat → Option Nat
  | 0, _ => none
  | fuel + 1, n => if ok n then some n else firstFrom ok fuel (n + 1)

/-- A free number among n, of those that a test calls free: which one is not promised (R160, R272), so the search starts where the state's next pick says and goes round. -/
def pickFree (s : State) (ok : Nat → Bool) (n : Nat) : Option Nat :=
  let h := s.picks.headD 0 % n
  (firstFrom ok (n - h) h).or (firstFrom ok h 0)

/-- A free instar slot of an owner's die part (R160: which one is not promised). -/
def freeSlot (s : State) (owner die : Nat) : Option Nat :=
  s.pickFree (fun n => (s.getInstar { owner := owner, die := die, slot := n }).isNone) 8192

def ringKey (owner die prio : Nat) : Nat := (owner * 16 + die) * 4 + prio

/-- A ring as it stands, the items that are held behind it last. -/
def queued (s : State) (owner die prio : Nat) : List Queued := SMap.get [] s.rings (ringKey owner die prio)

def ring (s : State) (owner die prio : Nat) : List Item := (s.queued owner die prio).map (·.item)

def setRing (s : State) (owner die prio : Nat) (l : List Queued) : State :=
  { s with rings := SMap.set [] s.rings (ringKey owner die prio) l }

def handleOf (k : Key) : Word := word (k.owner * 2 ^ 48 + k.die * 2 ^ 44 + k.slot * 2 ^ 28)

/-- The key an instar handle names (R162). -/
def keyOf (h : Word) : Key := { owner := wbits h 63 48, die := wbits h 47 44, slot := wbits h 43 28 }

/-! ## What a target refuses (R142, R208, R214) -/

/-- The die whose L2 serves an agent: a core's own. An agent that is on no compute die, a memory core, a hub engine or an edge, the spec gives no L2 and no port (R32): the model's choice is a die that borders its hub, and that die's port (log 38). -/
def l2Die (core : Nat) : Nat :=
  let u := if 24576 ≤ core then core - 24576 else core
  if u < 16384 then dieOf u else if u < 16896 then nearDieOfMc (u - 16384) else if u < 17408 then (hubDies ((u - 16896) / 128)).1 else if 17500 ≤ u ∧ u < 17504 then (hubDies (u - 17500)).1 else 0

/-- The port by which a die's host and pooled requests leave (R32): none where no port has CXL.cache. -/
def hostPort (s : State) (die : Nat) : Option Nat :=
  let up (p : Nat) : Bool := ((s.host.links.toList.getD p Link.fresh).cache)
  let p := if die < 8 then 0 else 1
  if up p then some p else if up (1 - p) then some (1 - p) else none

/-- Whether a pooled address lies in an enabled window (R214). -/
def pooledGood (s : State) (k : Nat) : Bool :=
  let base := wbits s.host.poolbase 51 28 * 268435456
  s.host.poolen && decide (base ≤ poolAddr k) && decide (poolAddr k < base + wbits s.host.poolsize 49 28 * 268435456)

/-- The code with which a store's target refuses it whatever the tags: 0 for none (R142, R198, R208, R211, R214). -/
def storeCode (s : State) (die owner k : Nat) : Nat :=
  match storage k with
  | .hbm => if s.holder 4 (k / 2097152) ≠ owner then 3 else 0
  | .sram =>
    let c := (k - sramBase) / 2097152
    if s.coreOwner c ≠ owner ∨ scratchSize c (s.getCore c) ≤ (k - sramBase) % 2097152 then 3 else 0
  | .host => if (s.hostPort die).isNone then 9 else 0
  | .pooled => if (s.hostPort die).isNone ∨ ¬ s.pooledGood k then 9 else 0
  | .weight => 3
  | .none => 3

/-- The log entry of a refused access, at the unit that refuses it, with the owner it names and the one that asks (R73, R87, R88); a request from another package is logged as its edge answers it. -/
def logTo (s : State) (core town owner va k c : Nat) : State :=
  if 16896 ≤ core ∧ core < 17408 then s else
  let u : Nat × Nat := match storage k with
    | .hbm => (1, homeCore k)
    | .weight => (3, (k - 2 ^ 40) / 67108864)
    | .host => (6, if l2Die core < 8 then 0 else 1)
    | .pooled => (6, if l2Die core < 8 then 0 else 1)
    | _ => if core < 16384 then (0, core) else (1, core - 16384)
  s.logEntry 2 u.1 u.2 (word va) (word (c + town * 2 ^ 48 + owner * 2 ^ 32))

/-- The same for an access in its own owner's space. -/
def logCode (s : State) (core owner va k c : Nat) : State := s.logTo core owner owner va k c

/-! ## The work area (R160, R163) -/

def workVa (die slot : Nat) : Nat := 0x1FE000000000000 + die * 0x800000 + 0x400000 + slot * 0x200

/-- The saved registers, ascending. -/
def savedRegs (i : Instar) : List Word :=
  ((List.range 27).filter (fun n => bits i.mask n n == 1)).map (fun n => i.regs.toList.getD (n + 1) 0)

/-- An instar's record, as the words of its slot (R163, R273, R281, R391): words 0 to 23, then the return stack and the context registers. -/
def instarWords (k : Key) (i : Instar) : List (Nat × Word) :=
  let w0 := word (bit i.long * 2 ^ 63 + wbits i.stat 63 63 * 2 ^ 62 + i.why * 2 ^ 59 + i.prio * 2 ^ 57 + i.pc.toNat / 4)
  let w1 := word (k.owner * 2 ^ 48 + i.flight * 2 ^ 16 + i.dreg * 2 ^ 11 + wbits i.stat 55 48 * 8)
  let w2 := word ((match i.link with | some l => (handleOf l).toNat | none => 0) + bit i.tethered.isSome * 2 ^ 27 + i.mask)
  let n := if i.long then 16 else 5
  let regs := ((List.range n).zip ((savedRegs i ++ List.replicate n 0).take n)).map (fun e => ((3 + e.1) * 8, e.2))
  let st := i.rstack.reverse
  [(0, w0), (8, w1), (16, w2)] ++ regs ++ (if i.long then (19 * 8, i.wakev) :: (List.range 4).map (fun n => ((20 + n) * 8, (0 : Word))) else [])
    ++ [(0xC0, i.evc), (0x100, word st.length)] ++ ((List.range st.length).zip st).map (fun e => (0x108 + 8 * e.1, e.2))
    ++ ((List.range 12).zip ([i.stat, i.rtb] ++ i.pdest.toList ++ [i.scla, i.sclb, i.ela, i.elb, i.ssha, i.sshb])).map (fun e => (0x188 + 8 * e.1, e.2))
    ++ [(0x1E8, word i.copyCount), (0x1F0, i.copyErr)]

/-- Where the device writes for itself: the store key, and the address, interface and end of the translation that gave it (R226). -/
structure Dest where
  key   : Nat
  va    : Nat
  iface : Nat
  stop  : Nat
  deriving DecidableEq, Repr

/-- The place n bytes on, in the same page. -/
def Dest.plus (d : Dest) (n : Nat) : Dest := { d with key := d.key + n, va := d.va + n }

/-- A place of an owner's space for a device write from an interface. -/
def devicePlace (s : State) (iface owner va : Nat) : Except Service Dest × State :=
  let r := s.lookUp iface owner va .write
  (r.1.map (fun t => { key := t.1, va := va, iface := iface, stop := t.2.1.stop }), match r.1 with | .error v => r.2.logOnce owner va v | .ok _ => r.2)

/-- The place of an instar slot in its owner's space. -/
def workPa (s : State) (iface : Nat) (k : Key) : Except Service Dest × State := s.devicePlace iface k.owner (workVa k.die k.slot)

/-- The number under which the device's own writes of records and dirty rings stand. -/
def deviceCore : Nat := 20001

/-- Writes of the device itself that wait for a line that the host holds (R50): they arrive in the order in which they were made. -/
def deviceWaits (s : State) (core : Nat) : Bool := s.inflight.any (fun f => f.core == core)

/-- A write of the device itself on its way to its home, for an owner. -/
def deviceWrite (s : State) (core owner : Nat) (e : Dest × Word) : Flying :=
  { key := e.1.key, bytes := (List.range 8).zip (toBytes 8 e.2.toNat), owner := owner, core := core, slot := 0, va := e.1.va, stop := e.1.stop, issue := s.time, home := e.1.iface }

/-- The device's own writes of an owner's words: at once, or after their lines come free where the host holds them, a scrub runs, a lease stands or an earlier such write waits (R50, R133, R241). -/
def deviceStore (s : State) (owner : Nat) (ws : List (Dest × Word)) : State :=
  if s.deviceWaits deviceCore ∨ ws.any (fun e => s.scrubbing e.1.key || (s.hostHolds e.1.key).isSome || s.formV e.1.key 8 != s.time) then
    { s with inflight := s.inflight ++ ws.map (s.deviceWrite deviceCore owner) }
  else ws.foldl (fun s e => s.setWord e.1.key e.2) s

/-- Write an instar's record where its slot is mapped to memory that its owner may write; where the slot's page needs service first, the write stays to be made (R161). -/
def writeImage (s : State) (iface : Nat) (k : Key) : State :=
  match s.getInstar k, s.workPa iface k with
  | some i, (.ok d, s) =>
    let c := s.storeCode k.die k.owner d.key
    if c = 0 then s.deviceStore k.owner ((instarWords k i).map (fun e => (d.plus e.1, e.2)))
    else s.logCode (k.die * 1024) k.owner (workVa k.die k.slot) d.key c
  | some _, (.error _, s) => if s.unwritten.contains (iface, k) then s else { s with unwritten := s.unwritten ++ [(iface, k)] }
  | none, (_, s) => s

/-! ### The ready rings (R160 to R162, R166) -/

/-- The VA of entry n of a ready ring. -/
def ringVa (die prio n : Nat) : Nat := 0x1FE000000000000 + die * 0x800000 + prio * 0x8000 + 8 * n

/-- An item as its ring entry (R162). -/
def itemWord : Item → Word
  | .task h _ _ _ => word (2 ^ 62 + h)
  | .instar n d _ => word (2 ^ 63 + d * 2 ^ 44 + n * 2 ^ 28)

/-- The entry that the next item of a ring takes: after the last one's, the next that is free; none while all 4,096 are taken (R166, log 43). -/
def ringNext (l : List Queued) : Option Nat :=
  let used := l.filterMap (·.spot)
  let from' := match used.getLast? with | some n => (n + 1) % 4096 | none => 0
  if 4096 ≤ used.length then none
  else (firstFrom (fun n => !used.contains n) (4096 - from') from').or (firstFrom (fun n => !used.contains n) from' 0)

/-- Write the first held item of a ring to its entry: the service that this needs, if any, and whether it was written. -/
def placeOne (s : State) (owner die prio : Nat) : Option Service × Bool × State :=
  let l := s.queued owner die prio
  match l.findIdx? (fun q => q.spot.isNone), ringNext l with
  | some i, some n =>
    match s.devicePlace die owner (ringVa die prio n) with
    | (.error v, s) => (some v, false, s)
    | (.ok d, s) =>
      let q := l.getD i { item := .instar 0 0 0, spot := none }
      let c := s.storeCode die owner d.key
      let s := s.setRing owner die prio (l.set i { q with spot := some n })
      (none, true, if c = 0 then s.deviceStore owner [(d, itemWord q.item)] else s.logCode (die * 1024) owner (ringVa die prio n) d.key c)
  | _, _ => (none, false, s)

/-- An item joins the tail of a ring: written to the next entry, or held in order while the ring is full or its page cannot be written yet (R161, R166). -/
def pushRing (s : State) (owner die prio : Nat) (i : Item) : State :=
  (State.placeOne (s.setRing owner die prio (s.queued owner die prio ++ [{ item := i, spot := none }])) owner die prio).2.2

/-- Some slot of a core has drawn an instar and not read it in yet. -/
def drawnAlready (s : State) (core : Nat) (k : Key) : Bool :=
  (s.getCore core).slots.toList.any (fun sl => match sl with | .drawn (.instar n d _) _ => n == k.slot && d == k.die | _ => false)

/-- An instar becomes ready at its priority, on the die of its slot (R166); a tethered one stays on its core's list (R174). -/
def readyInstar (s : State) (k : Key) (i : Instar) : State :=
  let s := s.setInstar k { i with state := .ready }
  if i.tethered.isSome then s else s.pushRing k.owner k.die i.prio (.instar k.slot k.die i.flight)

/-- An instar becomes ready, and its record holds what it is to be resumed with (R163). -/
def readyImage (s : State) (k : Key) (i : Instar) : State := (s.readyInstar k i).writeImage k.die k

/-! ## Ports of the fabric (R71, R72, R76) -/

/-- A port that carries traffic (R79). -/
def portUp (p : Port) : Bool := p.state == 2 || p.state == 3

/-- A port that stands in its groups: one that is up, or whose retraining keeps its replay buffer (R64, R78). -/
def inService (p : Port) : Bool := portUp p || (p.state == 1 && p.kept)

/-- The ports in service of the group that routes to a package (R71, R78). -/
def groupPorts (s : State) (pkg : Nat) : List Nat :=
  match SMap.get none s.fabric.routes pkg with
  | none => []
  | some g => (List.range 144).filter (fun p => bits (SMap.get 0 s.fabric.groups g) p p == 1 && inService (s.getPort p))

/-- An owner holds a share of a port (R76). -/
def holdsShare (s : State) (o p : Nat) : Bool := (List.range 16).any (fun i => s.holder 7 (p * 16 + i) == o)

/-- The up ports of the group that routes to a package on which an owner holds a share (R72, R76). -/
def usablePorts (s : State) (o pkg : Nat) : List Nat := (s.groupPorts pkg).filter (fun p => s.holdsShare o p)

/-- The port by which a request or message leaves, by the group's hash (R72, R76): none where the owner has no share on an up port. -/
def pickPort (s : State) (o cls pkg key : Nat) : Option Nat :=
  let l := s.usablePorts o pkg
  if l.length = 0 then none else l[Config.portHash cls pkg key % l.length]?

/-- A transaction leaves on a port, in a data flit that stays in the replay buffer (R64); a request or message has spent the ticks since in transit (R75). -/
def sendNow (s : State) (p since : Nat) (t : Txn) : State :=
  let q := s.getPort p
  let c := classOf (wbits t.w0 63 59)
  let t := if c = 0 ∨ c = 2 then { t with w1 := word (wbits t.w1 63 32 * 2 ^ 32 + (wbits t.w1 31 0 + (s.time - since)) % 2 ^ 32) } else t
  (s.setPort p { q with replay := q.replay ++ [(q.txSeq, t)], txSeq := (q.txSeq + 1) % 4096, ackAt := if q.replay.isEmpty then s.time else q.ackAt }).answer (.fabric p t (flitBytes q.txSeq q.rxSeq 0 0 (txnBytes t)))

/-- Send a transaction; one of a class that the peer has stopped waits (R66), and so does one that finds the replay buffer's 1,024 flits taken or the link training (R64). -/
def emit (s : State) (p since : Nat) (t : Txn) : State :=
  let q := s.getPort p
  if q.stops.getD (classOf (wbits t.w0 63 59)) false ∨ 1024 ≤ q.replay.length ∨ portUp q = false then s.setPort p { q with held := q.held ++ [(since, t)] } else s.sendNow p since t

/-- Two message words of one send port, for one destination (R72, R178). -/
def sameWay (a b : Txn) : Bool :=
  wbits a.w0 63 59 == 5 && wbits b.w0 63 59 == 5 && wbits a.w0 55 43 == wbits b.w0 55 43 && wbits a.w0 42 16 == wbits b.w0 42 16 && wbits a.w3 60 60 == wbits b.w3 60 60 && wbits a.w3 21 0 == wbits b.w3 21 0

/-- Words of a word's send port for its destination that a port still has: waiting there, or sent and not acknowledged. -/
def waysAt (s : State) (t : Txn) (p : Nat) : Bool × Bool := ((s.getPort p).held.any (fun e => sameWay t e.2), (s.getPort p).replay.any (fun e => sameWay t e.2))

/-- A message word leaves by a port, but never past an earlier one from its send port to its destination (R72, R178): while another port has such a word, it goes there, behind it, and takes its way from there as that word does (R77, R78). -/
def emitWord (s : State) (q since : Nat) (t : Txn) : State :=
  match (s.fabric.ports.map (·.1)).find? (fun p => let w := s.waysAt t p; w.1 || w.2) with
  | some p =>
    if p = q ∧ (s.waysAt t p).1 = false then s.emit q since t
    else s.setPort p { s.getPort p with held := (s.getPort p).held ++ [(since, t)] }
  | none => s.emit q since t

/-- Send a transaction that needs no share (R76), a response or a control transaction; with no port up it is lost (R78). -/
def sendFree (s : State) (pkg key : Nat) (t : Txn) : State :=
  let l := s.groupPorts pkg
  match l[Config.portHash (classOf t.kind) pkg key % l.length]? with
  | some p => s.emit p s.time t
  | none => s

/-! ## Applying arrivals (R242, R271) -/

/-- Send a WAKE to the package whose loader a proxy stands for (R269, R271). -/
def sendWake (s : State) (pkg score rid : Nat) (v : Word) : State :=
  s.sendFree pkg score { w0 := word (10 * 2 ^ 59 + pkg * 2 ^ 43 + s.pkgNum * 2 ^ 30 + score * 2 ^ 16 + rid * 16), w1 := 0, w2 := 0, w3 := word (3 * 2 ^ 61), data := toBytes 8 v.toNat }

/-- Wake a waiter list from its head with the value (R271): every instar gets WAKEV and becomes ready; proxies are answered and freed. -/
def wakeList (s : State) (v : Word) : Nat → Option Key → State
  | 0, _ => s
  | _ + 1, none => s
  | n + 1, some k =>
    match s.getInstar k with
    | none => s
    | some i =>
      match i.state with
      | .remote rid pkg score _ => ((s.sendWake pkg score rid v).freeInstar k).wakeList v n i.link
      | _ => (s.readyImage k { i with wakev := v, link := none }).wakeList v n i.link

/-- The owner of a store key: the holder of its extent, or of its core (R142, R198). -/
def ownerOfKey (s : State) (k : Nat) : Nat :=
  match storage k with
  | .hbm => s.holder 4 (k / 2097152)
  | .weight => s.holder 5 ((k - 2 ^ 40) / 67108864)
  | .sram => s.coreOwner ((k - sramBase) / 2097152)
  | _ => 0

/-- The head of the waiter list that an EMPTY or ECLO word of an owner's memory holds (R264). -/
def waiterHead (o : Nat) (w : Word) : Option Key :=
  if wbits w 63 63 = 1 then some { owner := o, die := wbits w 62 59, slot := wbits w 58 46 } else none

/-- The head of the list at a store key. -/
def listHead (s : State) (k : Nat) (w : Word) : Option Key := waiterHead (s.ownerOfKey k) w

/-- Free an evaluation number and clear what waits on it (R272). -/
def freeEval (s : State) (evid : Nat) : State :=
  { s with evals := s.evals.filter (fun e => e.evid != evid) }

/-- The evaluators parked on a cell no longer wait on it (R272). -/
def clearWaitev (s : State) (evid : Nat) : State :=
  { s with evals := s.evals.map (fun e => if e.waitev = some evid then { e with waitev := none } else e) }

/-- A word written whole is poisoned no more. -/
def unpoison (s : State) (k : Nat) (bs : List (Nat × Byte)) : State :=
  { s with poison := s.poison.filter (fun p => !((List.range 8).all (fun i => bs.any (fun b => k + b.1 == p * 8 + i)))) }

/-- One arrival becomes visible: its bytes, its tag, and for a fill its wakes (R242, R271). -/
def applyArrived (s : State) (a : Arrived) : State :=
  let w := s.wordAt a.key
  let t := s.tagAt a.key
  let s := (s.setOffsets a.key a.bytes).unpoison a.key a.bytes
  let s := match a.tag with
    | some t' => s.setTag a.key t'
    | none => s
  if a.wake ∧ (t = 1 ∨ t = 3) then
    let s' := s.wakeList (s.wordAt a.key) (s.instars.length + 1) (s.listHead a.key w)
    if t = 3 then (s'.freeEval (wbits w 15 0)).clearWaitev (wbits w 15 0) else s'
  else s

/-- Apply, in order, the arrivals whose V has come. -/
def settleList (s : State) : List Arrived → State
  | [] => s
  | a :: as => if a.vis ≤ s.time then (s.applyArrived a).settleList as else s.settleList as

/-- The answers whose time has come leave. -/
def flushDue (s : State) : State :=
  (s.due.filter (fun d => decide (d.1 ≤ s.time))).foldl (fun s d => match d.2 with | .fabric _ t _ => s.sendFree t.dpkg t.score t | o => s.answer o) { s with due := s.due.filter (fun d => decide (s.time < d.1)) }

/-- Every arrival whose V has come becomes visible (STORE_VISIBLE), and the answers that waited for it leave. -/
def settle (s : State) : State :=
  (State.settleList { s with arrived := s.arrived.filter (fun a => decide (s.time < a.vis)) } s.arrived).flushDue

/-- A write arrives at its point of serialisation (R241), with a V no earlier than v0: it becomes visible at once when its V is now. -/
def arriveFor (s : State) (b : By) (v0 k : Nat) (bs : List (Nat × Byte)) (tag : Option (BitVec 2)) (wake : Bool) : State :=
  let s := s.markLine b.core k (tag.any (· != 0))
  let n := bs.foldl (fun z e => max z (e.1 + 1)) 0
  let v := max v0 (s.formV k n)
  State.settle { s with arrived := s.arrived ++ [{ key := k, bytes := bs, tag := tag, wake := wake, vis := v, core := b.core, slot := b.slot, home := b.home, inst := b.inst }] }

def arriveAt (s : State) (v0 core slot k : Nat) (bs : List (Nat × Byte)) (tag : Option (BitVec 2)) (wake : Bool) : State := s.arriveFor { core := core, slot := slot } v0 k bs tag wake

def arrive (s : State) (core slot k : Nat) (bs : List (Nat × Byte)) (tag : Option (BitVec 2)) (wake : Bool) : State := s.arriveAt 0 core slot k bs tag wake

def offsets (bs : List Byte) : List (Nat × Byte) := (List.range bs.length).zip bs

/-- A write that takes no notice of tags, by a memory core or the host (R267, R51): each word it touches becomes VAL, and the waiters of an EMPTY or ECLO word are woken with the resulting word. -/
def rawWriteFor (s : State) (b : By) (v0 k : Nat) (bs : List (Nat × Byte)) : State :=
  let ws := firsts (bs.map (fun b => (k + b.1) / 8))
  ws.foldl (fun s w =>
    let own := (bs.filter (fun b => (k + b.1) / 8 == w)).map (fun b => (k + b.1 - w * 8, b.2))
    s.arriveFor b v0 (w * 8) own (if s.serialTag (w * 8) = 0 then none else some 0) true) s

def rawWrite (s : State) (core slot k : Nat) (bs : List (Nat × Byte)) : State := s.rawWriteFor { core := core, slot := slot } 0 k bs

/-- Device writes of words, each visible no earlier than the one before; the last V (R117, R183, R237). -/
def arriveSeq (s : State) (core : Nat) : List (Dest × Word) → Nat → Nat × State
  | [], v => (v, s)
  | e :: l, v =>
    let v := max v (s.formV e.1.key 8)
    (s.arriveAt v core 0 e.1.key (offsets (toBytes 8 e.2.toNat)) none false).arriveSeq core l v

/-- The device's own writes of an owner's words, in order: at once, or after the host has given up the lines it holds (R50). -/
def deviceSeq (s : State) (core owner : Nat) (l : List (Dest × Word)) : State :=
  if s.deviceWaits core ∨ l.any (fun e => (s.hostHolds e.1.key).isSome) then { s with inflight := s.inflight ++ l.map (s.deviceWrite core owner) } else (s.arriveSeq core l s.time).2

/-- A word as the device's own writes under a number will have left it. -/
def deviceNat (s : State) (core k : Nat) : Nat :=
  match (s.inflight.filter (fun f => f.core == core && f.key == k)).getLast? with
  | some f => ofBytes (f.bytes.map (·.2))
  | none => s.serialNat k 8

/-! ## Trap queue and reports (R182 to R184) -/

/-- The interface that serves the device's reports to an owner: that of its fault service core's die. -/
def deviceIface (s : State) (o : Nat) : Nat := dieOf (s.ownerRec o).fsc

/-- The interface that serves a trap entry: that of the die of the core whose context trapped (R217), which its instar's handle names. -/
def trapIface (s : State) (o : Nat) (t : TrapPost) : Nat :=
  match t.key with
  | some k => k.die
  | none => s.deviceIface o

/-- Where the next trap entry can go. -/
inductive TrapSpot where
  | at (h e : Dest) (prod : Nat)  -- its header's place, its own and its number
  | full                   -- the queue is full or counts as full (R184)
  | waits                  -- the device only has to wait
  deriving DecidableEq, Repr

/-- The first core of the die, or memory core of the hub, that an interface serves: it stands for the interface's agent. -/
def agentCore (i : Nat) : Nat := if i < 16 then i * 1024 else 16384 + (i - 16) * 128

/-- The place of a word of a trap queue or a dirty ring, for the device: else whether the device only has to wait, for a page table read, for the end of a scrub (R133) or for a line that the host holds (R50), where neither its translation fails nor its target refuses it. -/
def trapWord (s : State) (iface o va : Nat) : Except Bool Dest × State :=
  match s.devicePlace iface o va with
  | (.error v, s) => (.error (v.kind == 8), s)
  | (.ok d, s) =>
    let c := s.storeCode (l2Die (agentCore iface)) o d.key
    if c ≠ 0 then (.error false, s.logCode (agentCore iface) o va d.key c)
    else if s.scrubbing d.key then (.error true, s)
    else match s.hostHolds d.key with
      | some p => (.error true, s.askHost p (lineStart d.key) true)
      | none => (.ok d, s)

/-- The count of entries consumed, which stands 8 bytes after a header. -/
def consumed (s : State) (h : Dest) : Nat := s.natAt (h.key + 8) 8

/-- The trap queue's place for the next entry (R183, R184). -/
def trapSlot (s : State) (iface o : Nat) : TrapSpot × State :=
  let r := s.ownerRec o
  let none' (w : Bool) : TrapSpot := if w then .waits else .full
  if r.trapq = 0 then (.full, s)
  else match s.trapWord iface o r.trapq with
    | (.error w, s) => (none' w, s)
    | (.ok h, s) =>
      let prod := s.deviceNat 20000 h.key
      if r.tqlog < 4 ∨ 12 < r.tqlog ∨ 2 ^ r.tqlog ≤ (prod + 2 ^ 64 - s.consumed h) % 2 ^ 64 then (.full, s)
      else match s.trapWord iface o (r.trapq + 64 * (1 + prod % 2 ^ r.tqlog)) with
        | (.error w, s) => (none' w, s)
        | (.ok e, s) => (.at h e prod, s)

/-- Write an entry: words 1 to 7, then word 0, then PROD (R183). -/
def writeTrap (s : State) (o : Nat) (h e : Dest) (prod : Nat) (t : TrapPost) : State :=
  let ws : List (Nat × Word) :=
    [(8, match t.key with | some k => handleOf k | none => 0), (16, t.addr), (24, t.detail), (32, word t.time), (40, t.pc), (48, 0), (56, 0),
     (0, word ((prod + 1) % 2 ^ 32 * 2 ^ 32 + t.cause * 2 ^ 24))]
  s.deviceSeq 20000 o (ws.map (fun w => (e.plus w.1, w.2)) ++ [(h, word (prod + 1))])

/-- A report is dropped, and DROPS counted (R184). -/
def dropReport (s : State) (o : Nat) : State :=
  if (s.ownerRec o).trapq = 0 then s
  else match s.trapWord (s.deviceIface o) o ((s.ownerRec o).trapq + 16) with
    | (.ok d, s) => s.deviceSeq 20000 o [(d, word (s.deviceNat 20000 d.key + 1))]
    | (.error _, s) => s

/-- Post a report: dropped when the queue is full (R184), kept with the held entries while the device only has to wait for the queue's place. -/
def report (s : State) (o cause : Nat) (addr detail : Word) : State :=
  let t : TrapPost := { cause := cause, key := none, addr := addr, detail := detail, time := s.time, pc := 0 }
  if s.isLive o then
    match s.trapSlot (s.deviceIface o) o with
    | (.at h e p, s) => s.writeTrap o h e p t
    | (.waits, s) => s.setOwner o { s.ownerRec o with held := (s.ownerRec o).held ++ [t] }
    | (.full, s) => s.dropReport o
  else s

/-- Write an instar's trap entry at its place in the queue: the instar is posted. -/
def putTrap (s : State) (o : Nat) (h e : Dest) (prod : Nat) (t : TrapPost) : State :=
  let s := s.writeTrap o h e prod t
  match t.key with
  | some k => match s.getInstar k with
    | some i => s.setInstar k { i with state := .posted }
    | none => s
  | none => s

/-- Post an instar's trap entry, or hold it: behind those that are held (R184). -/
def postTrap (s : State) (o : Nat) (t : TrapPost) : State :=
  match (if (s.ownerRec o).held.isEmpty then s.trapSlot (s.trapIface o t) o else (.full, s)) with
  | (.at h e p, s) => s.putTrap o h e p t
  | (_, s) =>
    let r := s.ownerRec o
    let s := match (r.held.filterMap (·.key)).getLast?, t.key with
      | some l, some k => match s.getInstar l with
        | some i => (s.setInstar l { i with link := some k }).writeImage l.die l
        | none => s
      | _, _ => s
    s.setOwner o { r with held := r.held ++ [t] }

/-- Post what was held, oldest first, as room appears (R184). -/
def postHeld (s : State) (o : Nat) : State :=
  let r := s.ownerRec o
  match r.held with
  | [] => s
  | t :: rest =>
    match s.trapSlot (s.trapIface o t) o with
    | (.at h e p, s) =>
      let s := match t.key with
        | some k => match s.getInstar k with
          | some i => (s.setInstar k { i with link := none }).writeImage k.die k
          | none => s
        | none => s
      (s.setOwner o { r with held := rest }).putTrap o h e p t
    | (.full, s) => if t.key.isNone then (s.setOwner o { r with held := rest }).dropReport o else s
    | (.waits, s) => s

/-! ## Draining and arriving (R203, R217, R343) -/

/-- Whether a VA lies in the core window (R198). -/
def inWindow (va : Nat) : Bool := bits va 56 48 == 0x1FF

/-- The core a window address names: none where VA[33:21] is not zero. -/
def windowCore (va : Nat) : Option (Nat × Nat) :=
  if bits va 33 21 = 0 then some (bits va 47 44 * 1024 + bits va 43 34, bits va 20 0) else none

/-- Whether a SPLIT change under way on a core holds n bytes of its local space (R197): their bank changes portion. -/
def splitSpan (s : State) (core off n : Nat) : Bool :=
  match (s.getCore core).splitChange with
  | some (_, cb, _) =>
    let x := scratchSize core (s.getCore core)
    let y := 98304 * (16 - cb)
    decide (min x y < off + n) && decide (off < max x y)
  | none => false

/-- The store key of n bytes in the core window (R198): none where the core is another owner's or the bytes are not all scratchpad. -/
def windowKey (s : State) (owner va n : Nat) : Option Nat :=
  match windowCore va with
  | some (c, off) =>
    if s.coreOwner c = owner ∧ off + n ≤ scratchSize c (s.getCore c) then some (sramKey c off) else none
  | none => none

/-- The tracker of a port records the die that comes to hold a host line (R53). A die that is gated or about to be is woken for it, so that what it holds can be written back (R23, R24); the model lets no time pass for that (log 36). -/
def trackLine (s : State) (core k : Nat) : State :=
  let e := ((s.hostPort (l2Die core)).getD 0, lineStart k, l2Die core)
  if storage k ≠ .host then s
  else
    let s := if s.gating.isEmpty then s else s.wakeUnit true (l2Die core)
    if s.host.tracker.contains e then s else { s with host := { s.host with tracker := e :: s.host.tracker } }

/-- The host's own copy of a byte is kept beside the device's dirty one until it is written back (R33, R54), and the tracker records the line. -/
def shadowHost (s : State) (core k : Nat) (bs : List (Nat × Byte)) : State :=
  if storage k = .host then
    bs.foldl (fun s e =>
      if s.host.dirty.any (fun d => d.1 == k + e.1) then s
      else { s with host := { s.host with dirty := SMap.put s.host.dirty (k + e.1) (s.byteAt (k + e.1)) } }) (s.trackLine core k)
  else s

/-- Whether the word a key lies in is VAL, as last serialised (R256, R266). -/
def plainWord (s : State) (k : Nat) : Bool := s.serialTag k == 0

/-- The address of the store that opened an entry: its bytes are kept in the order in which they were first stored (R344, log 18). -/
def storeVa (va : Nat) (bs : List (Nat × Byte)) : Nat := va + (match bs with | b :: _ => b.1 | [] => 0)

/-- The stores to which the bytes of a flying sector belong, as far as a refusal tells them apart: a 16-byte store by its offset (R255, R343), any other by the word it lies in. -/
def storeUnit (f : Flying) (b : Nat) : Bool × Nat :=
  match f.pairs.find? (fun p => p.1 == b) with
  | some p => (true, p.2)
  | none => (false, (f.key + b) / 8)

/-- Whether every word that a byte's store writes is VAL. -/
def unitPlain (s : State) (f : Flying) (b : Nat) : Bool :=
  match storeUnit f b with
  | (true, o) => s.plainWord (f.key + o) && s.plainWord (f.key + o + 8)
  | (false, w) => s.plainWord (w * 8)

/-- A store reaches its point of serialisation (R241): refused with a STOREERR report, whole or for those of its stores that meet a word that is not VAL (R267, R343), or arrived; a memory core's writes whatever the tag. -/
def arriveFlying (s : State) (f : Flying) : State :=
  let device := f.core == 20000 || f.core == deviceCore
  let c := s.storeCode (if device then l2Die (agentCore f.home) else l2Die f.core) f.owner f.key
  let by' : By := { core := f.core, slot := f.slot, home := f.home, inst := f.inst }
  if device then
    -- the device's own: no word is visible before the one that it follows
    if c ≠ 0 then s.logCode (agentCore f.home) f.owner f.va f.key c
    else s.arriveFor by' (s.arrived.foldl (fun m a => if a.core = f.core then max m a.vis else m) s.time) f.key f.bytes none false
  else if c ≠ 0 then (s.logCode f.core f.owner (storeVa f.va f.bytes) f.key c).report f.owner 0x46 (word (storeVa f.va f.bytes)) (word c)
  else if isMc f.core then s.rawWriteFor by' (s.formV f.key (f.bytes.foldl (fun z e => max z (e.1 + 1)) 0)) f.key f.bytes
  else
    let good := f.bytes.filter (fun b => s.unitPlain f b.1)
    let bad := f.bytes.filter (fun b => !s.unitPlain f b.1)
    let s := (firsts (bad.map (fun b => storeUnit f b.1))).foldl (fun s u =>
      let va := storeVa f.va (bad.filter (fun b => storeUnit f b.1 == u))
      (s.logCode f.core f.owner va f.key 10).report f.owner 0x46 (word va) 10) s
    if good.isEmpty then s else (s.shadowHost f.core f.key good).arriveFor by' 0 f.key good none false

/-! ## Lines that an engine holds (R55, R257) -/

end State

/-- The window address of a byte of a core's local space (R198). -/
def windowVa (core off : Nat) : Nat := 0x1FF * 2 ^ 48 + core / 1024 * 2 ^ 44 + core % 1024 * 2 ^ 34 + off

namespace CopyCmd

/-- Addresses wrap at 57 bits. -/
def wrap (a : Int) : Nat := (a % (2 ^ 57 : Int)).toNat

/-- Where the next byte to write lies: none while a pool reads. -/
def dest (c : CopyCmd) : Option Nat :=
  if c.kind = 3 ∧ c.row < c.rows then none
  else if c.kind = 3 ∨ c.kind = 1 then some (wrap (c.dst + c.off))
  else some (wrap (c.dst + c.row * c.dstride + c.off))

/-- A gather reads the whole of a row before it pushes it (R395). -/
def reading (c : CopyCmd) : Bool := c.kind == 2 && decide (c.sums.length < c.rowb)

/-- The first byte not written (R390). -/
def unwritten (c : CopyCmd) : Nat := match c.dest with | some d => d | none => wrap c.dst

/-- The bytes of the row under way. -/
def rowLen (c : CopyCmd) : Nat := if c.kind = 3 ∧ c.rows ≤ c.row then 4 * c.sums.length else c.rowb

/-- Some byte of n at a virtual address is still to be written by the command: of the row under way, or of a later one. -/
def ahead (c : CopyCmd) (va n : Nat) : Bool :=
  (match c.dest with
  | some d => decide (d < va + n) && decide (va < d + (c.rowLen - c.off))
  | none => false) ||
  ((c.kind == 0 || c.kind == 2) && (List.range (min (c.rows - c.row - 1) 4200)).any (fun i =>
    let d := wrap (c.dst + (c.row + 1 + i : Nat) * c.dstride)
    decide (d < va + n) && decide (va < d + c.rowb)))

/-- The address of the last byte that the command has moved: none before the first. -/
def last (c : CopyCmd) : Option Nat :=
  if 0 < c.off then (c.dest).map (· - 1)
  else if 0 < c.row ∧ c.kind ≠ 3 then some (wrap (c.dst + (c.row - 1 : Nat) * c.dstride + c.rowb - 1))
  else none

/-- The engine stands where a page of its destination ends: before its first byte, or where the next byte lies in another page than the last (R189, R136). -/
def pageEnd (c : CopyCmd) : Bool :=
  !c.started || (c.res.isNone && decide (c.row < c.rows) && (match c.last, c.dest with | some a, some b => a / 4096 != b / 4096 | _, _ => true))

/-- Some byte that the command is still to write lies from one local address of a core up to another. -/
def into (core lo hi : Nat) (c : CopyCmd) : Bool :=
  let base := windowVa core 0
  c.res.isNone && (c.kind == 0) && (List.range (c.rows - c.row)).any (fun i =>
    let d := wrap (c.dst + (c.row + i : Nat) * c.dstride)
    decide (d < base + hi) && decide (base + lo < d + c.rowb))

/-- Some byte that the command is still to write lies in the core window's part of a core (R174). -/
def intoOwn (core : Nat) (c : CopyCmd) : Bool := c.into core 0 2097152

end CopyCmd

/-- The frame of a page under a translation. -/
def pageFrame (t : Trans) (page : Nat) : Nat := t.pa + (page * 4096 - t.va)

namespace State

/-- Every copy command of the package. -/
def allCopies (s : State) : List CopyCmd := s.core.copyq ++ ((s.cores.filter (fun e => e.1 != s.coreNo)).map (fun e => e.2.copyq)).flatten

/-- Every matrix command of the package. -/
def allMatrix (s : State) : List MatCmd := s.core.matq ++ ((s.cores.filter (fun e => e.1 != s.coreNo)).map (fun e => e.2.matq)).flatten

/-- An engine that has reached a destination page holds the lines of it that it has not finished (R55, R257): whether n bytes at a key are in one. -/
def engineHolds (s : State) (k n : Nat) : Bool :=
  (s.allCopies ++ (s.hubCopy.toList.flatten).map (·.2)).any (fun c =>
    c.started && c.res.isNone && c.pages.any (fun e => e.2.1 && pageFrame e.2.2 e.1 == k / 4096 * 4096 && c.ahead (e.1 * 4096 + k % 4096) n))

/-- The same for the line of a key, outside local SRAM. -/
def lineHeld (s : State) (k : Nat) : Bool := storage k != .sram && s.engineHolds (lineStart k) (lineLen k)

/-- A V that has not come: of what an engine has written to a line that it still holds (R257). -/
def unreleased : Nat := 2 ^ 64

/-- Arrivals in the order of their serialisation, those to lines that an engine held and has released with their V (R241, R257): no earlier than that of one serialised before at the same bytes. -/
def released (s : State) : List Arrived → List Arrived → List Arrived
  | done, [] => done
  | done, a :: as =>
    let v := if a.vis < unreleased ∨ s.lineHeld a.key then a.vis
      else
        let lm := s.leaseEnd a.key
        done.foldl (fun m b => if b.key < a.key + a.bytes.length ∧ a.key < b.key + b.bytes.length then max m b.vis else m) (if lm = 0 then s.time else max s.time (lm + 2))
    s.released (done ++ [{ a with vis := v }]) as

/-- The engines release the lines that they have finished or no longer hold (R257). -/
def releaseLines (s : State) : State :=
  if s.arrived.any (fun a => decide (unreleased ≤ a.vis)) then State.settle { s with arrived := s.released [] s.arrived } else s

/-! ## A gang that has stopped (R189) -/

/-- A gang that has reached its T. -/
def stopped (s : State) (f : Flight) : Bool := f.state == .switching && (match f.switchAt with | some t => decide (t ≤ s.time) | none => false)

/-- A context's gang is stopped: it issues nothing. -/
def ctxStopped (s : State) (owner num : Nat) : Bool := s.flights.list.any (fun f => f.num == num && f.owner == owner && s.stopped f)

/-- A core has been reclaimed or salvaged, and its contexts are stopping (R418). -/
def coreLeaves (s : State) (core : Nat) : Bool := s.leaving.any (fun l => l.entry == entryOfCore core)

/-- A core's gang is stopped, or the core is taken from it: none of its queued commands starts, and its copy engine goes no further than the end of a page. -/
def coreStopped (s : State) (core : Nat) : Bool := s.coreLeaves core || s.flights.list.any (fun f => s.stopped f && f.groups.any (·.contains core))

/-! ## Local ranges of matrix commands (R377) -/

/-- The bytes of local space that a queued command reads or writes: 4 KiB of MLOAD, the tile of MSTORE. -/
def matLen (m : MatCmd) : Nat := if m.op = 2 then 4096 else if m.op = 6 then 128 * widthOf m.fmt else 0

/-- The local addresses that leave the scratchpad by a SPLIT change under way on a core (R197). -/
def splitLeaves (s : State) (core : Nat) : Option (Nat × Nat) :=
  match (s.getCore core).splitChange with
  | some (_, cb, _) =>
    let lo := 98304 * (16 - cb)
    let hi := scratchSize core (s.getCore core)
    if lo < hi then some (lo, hi) else none
  | none => none

/-- A queued matrix command names local addresses of a range. -/
def matInto (m : MatCmd) (lo hi : Nat) : Bool := matLen m != 0 && decide (lo < m.addr + matLen m) && decide (m.addr < hi)

/-- A SPLIT change under way on some core waits for commands that stand in a core's queues (R197). -/
def splitNeeds (s : State) (n : Nat) : Bool :=
  (s.coreNo :: s.cores.map (·.1)).any (fun m => match s.splitLeaves m with
    | some (lo, hi) => (s.getCore n).copyq.any (·.into m lo hi) || (m == n && (s.getCore n).matq.any (fun q => matInto q lo hi))
    | none => false)

/-- The engines of a stopped core start no more commands and go no further than the end of a page (R189), but for what a SPLIT change that has issued waits for (R188, R197; log 33). -/
def enginesHalt (s : State) (core : Nat) : Bool := s.coreStopped core && !(s.splitNeeds core)

/-- Whether an uncompleted MSTORE, or for a write also an MLOAD, holds n bytes at an offset of a core's local space. -/
def matHolds (s : State) (core off n : Nat) (write : Bool) : Bool :=
  (s.getCore core).matq.any (fun m => (m.op == 6 || (write && m.op == 2)) && decide (off < m.addr + matLen m) && decide (m.addr < off + n))

/-- The same for a store key, and whether a SPLIT change of its core holds it (R197). -/
def matHoldsKey (s : State) (k n : Nat) (write : Bool) : Bool :=
  storage k == .sram && (s.matHolds ((k - sramBase) / 2097152) ((k - sramBase) % 2097152) n write || s.splitSpan ((k - sramBase) / 2097152) ((k - sramBase) % 2097152) n)

/-- The agent that holds the HARVEST line of an owner exclusive (R237, R238), where an address of the owner's space lies in that line. -/
def harvestLine (s : State) (va owner : Nat) : Option Nat :=
  let base := 0x1FE001000000000
  if base ≤ va ∧ va < base + 20 * 0x200000 ∧ (va - base) % 0x200000 < 192 ∧ s.harvest.contains ((va - base) / 0x200000, owner) = true then
    some ((va - base) / 0x200000)
  else none

/-- The device's own writes. -/
def ofDevice (f : Flying) : Bool := f.core == 20000 || f.core == deviceCore

/-- The agent that holds the line that a store in flight writes (R238). -/
def harvestOf (s : State) (f : Flying) : Option Nat := if ofDevice f then none else s.harvestLine f.va f.owner

/-- How far a store's bytes reach. -/
def reach (bs : List (Nat × Byte)) : Nat := bs.foldl (fun z e => max z (e.1 + 1)) 0

/-- Two stores of one context. -/
def sameContext (f g : Flying) : Bool := g.home == f.home && g.slot == f.slot && g.inst == f.inst

/-- The stores of a context arrive in the order in which they drained (R245), and the device's own writes in theirs; those to pooled memory are unordered (R59). -/
def inTurn (s : State) (f : Flying) : Bool :=
  let before (g : Flying) : Bool := if ofDevice f then g.core == f.core else sameContext f g && storage g.key != .pooled
  (storage f.key == .pooled && !ofDevice f) || (s.inflight.find? before).all (· == f)

/-- Whether a store in flight can be taken by its home now (R50, R133, R197, R238, R245, R257, R377). -/
def canArrive (s : State) (f : Flying) : Bool :=
  (s.hostHolds f.key).isNone && !(s.scrubbing f.key) && (s.harvestOf f).isNone && !(s.lineHeld f.key) && !(s.matHoldsKey f.key (reach f.bytes) true) && s.inTurn f

/-- The stores in flight among which the next to arrive may be chosen, in the order in which they left. -/
def arrivable (s : State) : List Flying := s.inflight.filter s.canArrive

/-- A store as a combining entry again, the first to drain. -/
def entryOf (f : Flying) (slot : Nat) : Combine :=
  { slot := slot, va := f.va, bytes := f.bytes, opened := 0, owner := f.owner, first := storeVa f.va f.bytes, pairs := f.pairs }

/-- A store whose translation needs service as its interface makes it afresh goes back to its context, and the context's later stores behind it (R226, R245, R344); where the context is in no slot and no instar any more, it is answered FAULT. -/
def sendBack (s : State) (f : Flying) : State :=
  let mine := (s.inflight.dropWhile (· != f)).filter (sameContext f)
  let out : State := { s with inflight := s.inflight.filter (fun g => !mine.contains g) }
  match f.inst with
  | some k => match s.getInstar k with
    | some i => out.setInstar k { i with stores := mine.map (fun g => entryOf g g.slot) ++ i.stores }
    | none => (State.report { s with inflight := s.inflight.erase f } f.owner 0x46 (word (storeVa f.va f.bytes)) 4)
  | none => match s.slotOf f.home f.slot with
    | .busy _ =>
      let c := out.getCore f.home
      out.setCore f.home { c with combining := mine.map (fun g => entryOf g g.slot) ++ c.combining }
    | _ => (State.report { s with inflight := s.inflight.erase f } f.owner 0x46 (word (storeVa f.va f.bytes)) 4)

/-! ### Dirty rings (R236, R237) -/

/-- The interfaces that an agent serves: a die's own, or a hub's with its edge. -/
def agentIfaces (a : Nat) : List Nat := if a < 16 then [a] else [a, a + 4]

/-- The VA of an owner's dirty ring for an agent. -/
def dirtyRing (a : Nat) : Nat := 0x1FE001000000000 + a * 0x200000

/-- A dirty entry as its ring word. -/
def dirtyWord (e : Nat × Nat × Nat) : Word := word (2 ^ 63 + e.2.2 * 2 ^ 45 + e.2.1 / 4096)

/-- One owner's entries go to its ring: none is kept where a page of the ring cannot be written without service. Whether the agent only has to wait: for a place of the ring, or for earlier writes of the device's own to arrive. -/
def mergeOwner (s : State) (a o : Nat) (l : List (Nat × Nat × Nat)) : Bool × State :=
  if s.deviceWaits deviceCore then (true, s) else
  match s.trapWord a o (dirtyRing a) with
  | (.error w, s) => (w, s)
  | (.ok h, s) =>
    let prod := s.deviceNat deviceCore h.key
    let room := 131072 - (prod + 2 ^ 64 - s.consumed h) % 2 ^ 64
    let put := l.take room
    let lost := l.length - put.length
    let spots := (List.range put.length).foldl (fun (r : Except Bool (List Dest) × State) i =>
      match r.1 with
      | .error _ => r
      | .ok ks => match r.2.trapWord a o (dirtyRing a + 0x100000 + 8 * ((prod + i) % 131072)) with
        | (.ok k, s) => (.ok (ks ++ [k]), s)
        | (.error w, s) => (.error w, s)) (.ok [], s)
    match spots with
    | (.error w, s) => (w, s)
    | (.ok ks, s) =>
      let ws := ks.zip (put.map dirtyWord) ++ [(h, word (prod + put.length))] ++ (if lost = 0 then [] else [(h.plus 16, word (s.deviceNat deviceCore (h.key + 16) + lost))])
      (false, s.deviceSeq deviceCore o ws)

/-- A merge by an agent, of every owner's entries or of one's; an owner's entries stay in the logs while the agent only has to wait for its ring. -/
def merge (s : State) (a : Nat) (one : Option Nat) : State :=
  let mine (e : Nat × Nat × Nat) : Bool := match one with | some o => e.1 == o | none => true
  let all := (agentIfaces a).flatMap (fun i => (s.getIface i).dirty.filter mine)
  (firsts (all.map (·.1))).foldl (fun s o =>
    let r := if s.isLive o then s.mergeOwner a o (firsts (all.filter (fun e => e.1 == o))) else (false, s)
    if r.1 then r.2
    else (agentIfaces a).foldl (fun s i => s.setIface i { s.getIface i with dirty := (s.getIface i).dirty.filter (fun e => e.1 != o) }) r.2) s

/-- A write that finds the log of its interface full waits for a merge, which makes room (R236). -/
def dirtyRoom (s : State) (iface : Nat) : State :=
  if 4096 ≤ (s.getIface iface).dirty.length then s.merge (if iface < 16 then iface else 16 + iface % 4) none else s

/-- The instar's record, or the ring's entry, that a write of the device's own belongs to, in its owner's work area (R160): the die and the offset in its part. -/
def workPart (va : Nat) : Option (Nat × Nat) :=
  let base := 0x1FE000000000000
  if base ≤ va ∧ va < base + 16 * 0x800000 then some ((va - base) / 0x800000, (va - base) % 0x800000) else none

/-- A write of the device's own that has lost its translation: a work-area write is still to be made once its page can be written, a record whole and a ring entry by its item (R161); any other is dropped, as R184 and R237 drop one that they cannot make (log 12). -/
def deviceLost (s : State) (f : Flying) : State :=
  let s := { s with inflight := s.inflight.erase f }
  match workPart f.va with
  | some (d, off) =>
    if 0x400000 ≤ off then
      let k : Key := { owner := f.owner, die := d, slot := (off - 0x400000) / 0x200 }
      let s := { s with inflight := s.inflight.filter (fun g => !(ofDevice g && g.owner == f.owner && g.va / 0x200 == f.va / 0x200)) }
      if (s.getInstar k).isNone ∨ s.unwritten.contains (f.home, k) then s else { s with unwritten := s.unwritten ++ [(f.home, k)] }
    else s.setRing f.owner d (off / 0x8000 % 4) ((s.queued f.owner d (off / 0x8000 % 4)).map (fun q => if q.spot = some (off % 0x8000 / 8) then { q with spot := none } else q))
  | none => s

/-- A store that comes later than its translation's end and SKB goes back to its interface, which translates it afresh (R226): a write that finds the dirty log full waits there (R236), and one that needs service goes back to its context. -/
def retranslate (s : State) (f : Flying) : State :=
  let put (s : State) (k stop : Nat) : State := { s with inflight := s.inflight.map (fun g => if g = f then { f with key := k, stop := stop } else g) }
  if ofDevice f then
    match s.devicePlace f.home f.owner f.va with
    | (.ok d, s) => put s d.key d.stop
    | (.error v, s) => if v.kind = 8 then s else s.deviceLost f
  else
    let s := s.dirtyRoom (ifaceOf f.core)
    if 4096 ≤ (s.getIface (ifaceOf f.core)).dirty.length then s
    else match s.translate (ifaceOf f.core) f.owner f.va .write with
      | (.ok (k, t), s) => put s k t.stop
      | (.error v, s) => if v.kind = 8 then s else s.sendBack f

/-- The nth of those arrives, the first where there are not so many (STORE_ARRIVE); one to a line the host holds waits while a BISnpInv is out (R50), one to a HARVEST word waits for the merge (R238), one to a line that an engine holds waits for the engine's write (R257), one to a range that a matrix command or a SPLIT change holds waits for it (R197, R377), one to a resource under scrub for its end (R133), and one whose translation has ended is translated afresh first (R226). -/
def arriveNth (s : State) (n : Nat) : State :=
  match (s.arrivable[n]?).or s.arrivable.head? with
  | none =>
    match s.inflight.findSome? (fun f => (s.hostHolds f.key).map (fun p => (p, lineStart f.key))) with
    | some (p, a) => s.askHost p a true
    | none => s
  | some f => if f.stop + s.clock.skb < s.time then s.retranslate f else State.arriveFlying { s with inflight := s.inflight.erase f } f

/-- The first of those arrives. -/
def arriveNext (s : State) : State := s.arriveNth 0

def arriveMany (s : State) : Nat → State
  | 0 => s
  | n + 1 => s.arriveNext.arriveMany n

/-- An agent that is asked for a HARVEST line (R238): the owner's entries are merged, and once PROD is visible the line is given up. Whether it still holds the line. -/
def harvestAsked (s : State) (a o : Nat) : Bool × State :=
  let left (s : State) : Bool := (agentIfaces a).any (fun i => (s.getIface i).dirty.any (fun e => e.1 == o))
  let s := if left s then s.merge a (some o) else s
  if s.arrived.any (fun x => x.core == deviceCore) ∨ s.inflight.any (fun x => x.core == deviceCore) ∨ left s = true then (true, s)
  else (false, { s with harvest := s.harvest.filter (· != (a, o)) })

/-- An access to a line that an agent holds recalls it (R238, R257): whether the access waits. -/
def harvestWaits (s : State) (va owner : Nat) : Bool × State :=
  match s.harvestLine va owner with
  | some a => s.harvestAsked a owner
  | none => (false, s)

/-- The key of a store to the core window whose address names no core (R198): no target takes it. -/
def nowhere : Nat := 2 ^ 50 - 4096

/-- A combining entry drains (R203): translated for write, then on its way; in the core window, to the core it names. A write that finds the dirty log full, and no room made, waits (R236). -/
def drainFor (s : State) (core : Nat) (inst : Option Key) (e : Combine) : Except Service Unit × State :=
  let fly (s : State) (k stop : Nat) : State :=
    let s := { s with inflight := s.inflight ++ [({ key := k, bytes := e.bytes, owner := e.owner, core := core, slot := e.slot, va := e.va, stop := stop, issue := s.time, inst := inst, pairs := e.pairs } : Flying)] }
    match s.hostHolds k with
    | some p => s.askHost p (lineStart k) true
    | none => s
  if inWindow e.va then (.ok (), fly s (match windowCore e.va with | some (c, off) => sramKey c off | none => nowhere) (2 ^ 64))
  else
    let s := s.dirtyRoom (ifaceOf core)
    if 4096 ≤ (s.getIface (ifaceOf core)).dirty.length then (.error { kind := 8, level := 0, pte := 0 }, s)
    else match s.translate (ifaceOf core) e.owner e.va .write with
      | (.error v, s) => (.error v, s)
      | (.ok (pa, t), s) => (.ok (), fly s pa t.stop)

def drainEntry (s : State) (core : Nat) (e : Combine) : Except Service Unit × State := s.drainFor core none e

/-- Drain the entries that a test picks, oldest first; stop at the first that needs service. -/
def drainList (s : State) (core : Nat) : List Combine → Except (Combine × Service) Unit × State
  | [] => (.ok (), s)
  | e :: es =>
    match s.drainEntry core e with
    | (.error v, s) => (.error (e, v), s)
    | (.ok _, s) =>
      let c := s.getCore core
      (s.setCore core { c with combining := c.combining.erase e }).drainList core es

/-- Drain the running context's entries (R203). -/
def drainOwn (s : State) : Except (Combine × Service) Unit × State :=
  s.drainList s.coreNo (s.core.combining.filter (fun e => e.slot == s.running))

/-- Whether a store to a key counts for a release at a scope (R251). -/
def covers (scope k : Nat) : Bool :=
  if scope ≤ 1 then false
  else match storage k with
    | .host => scope == 7
    | .pooled => scope == 7
    | _ => true

/-- A store in flight, arrived or outstanding belongs to a context, by where that is now; the device's own writes are no context's. -/
def isBy (b : By) (core home slot : Nat) (inst : Option Key) : Bool :=
  core != 20000 && core != deviceCore && (match b.inst with
  | some k => inst == some k
  | none => inst.isNone && home == b.home && slot == b.slot)

/-- Whether the V of every store of a context, wherever it is, that a scope covers has passed (R251), those that have left its combining entries. -/
def sentDone (s : State) (b : By) (scope : Nat) : Bool :=
  s.inflight.all (fun f => !(isBy b f.core f.home f.slot f.inst && covers scope f.key)) &&
  s.arrived.all (fun a => !(isBy b a.core a.home a.slot a.inst && covers scope a.key)) &&
  (scope != 5 && scope != 7 || s.fabric.requests.all (fun r => !(decide (8 ≤ r.slot) && isBy b r.acc.core r.home (r.slot - 8) r.key)))

/-- Whether the V of every earlier store of a context that a scope covers has passed (R251). -/
def storesDone (s : State) (core slot scope : Nat) : Bool :=
  decide (scope ≤ 1) || (s.getCore core).combining.all (fun e => e.slot != slot) && s.sentDone { core := core, slot := slot } scope

/-- An instar's context has blocked on a store's drain, which the reply is to perform (R344). -/
def retryStore (i : Instar) : Bool := match i.retry with | some a => a.kind == .store | none => false

/-- Whether an instar's context has no store whose V is still to come (R262): none on its way, and none that is still to drain. -/
def instarSeen (s : State) (k : Key) : Bool :=
  s.sentDone { core := 0, slot := 0, inst := some k } 7 && ((s.getInstar k).map (fun i => i.stores.isEmpty && !retryStore i)).getD true

/-- The latest V of the stores of a context that have arrived: its instar is not ready before, nor before those that are still on their way have arrived too (R262). -/
def lastV (s : State) (core slot : Nat) : Nat :=
  s.arrived.foldl (fun m a => if isBy { core := core, slot := slot } a.core a.home a.slot a.inst then max m a.vis else m) s.time

/-! ## Faults for the fault service core (R185, R186, R436) -/

def faultPage (s : State) (core : Nat) : List FaultEntry :=
  SMap.get (List.replicate 64 FaultEntry.fresh) s.faults core

def setFaultPage (s : State) (core : Nat) (l : List FaultEntry) : State :=
  { s with faults := SMap.set (List.replicate 64 FaultEntry.fresh) s.faults core l }

/-- Whether the owner's FSC can take a fault that arises on a core (R186). -/
def fscGood (s : State) (o core : Nat) : Bool :=
  let f := (s.ownerRec o).fsc
  s.isLive o && f != core && (s.holder 1 f == o || (s.isService f && s.holder 1 f == 1))

/-- Whether a waiter already stands in some fault entry. -/
def waiting (s : State) (w : Waiter) : Bool := s.faults.any (fun p => p.2.any (fun e => e.valid && e.waiters.contains w))

/-- What became of a fault. -/
inductive Posted where
  | posted
  | full      -- all 64 entries valid: it waits at the interface
  | unposted  -- it cannot be posted
  deriving DecidableEq, Repr

/-- The instars among a fault entry's waiters. -/
def waiterKeys (ws : List Waiter) : List Key := ws.filterMap (fun w => match w with | .instar k => some k | _ => none)

/-- An instar's LINK names the next of its list, in its record too (R163, R185). -/
def linkTo (s : State) (l : Key) (k : Option Key) : State :=
  match s.getInstar l with
  | some i => (s.setInstar l { i with link := k }).writeImage l.die l
  | none => s

/-- The instar before another in a list of waiters comes to name the one after it (R185). -/
def bridge (s : State) (k : Key) : State :=
  (s.faults.flatMap (·.2)).foldl (fun s e =>
    let ks := waiterKeys e.waiters
    if e.valid ∧ ks.contains k ∧ 0 < ks.idxOf k then s.linkTo (ks.getD (ks.idxOf k - 1) k) ks[ks.idxOf k + 1]? else s) s

/-- A waiter leaves every fault entry's list; an entry left with no waiter is freed, and its GEN advances (R187). -/
def removeWaiter (s : State) (w : Waiter) : State :=
  let s := match w with | .instar k => s.bridge k | _ => s
  { s with faults := s.faults.map (fun (p : Nat × List FaultEntry) => (p.1, p.2.map (fun e =>
      if e.valid ∧ e.waiters.contains w then
        let l := e.waiters.filter (· != w)
        if l.isEmpty then { e with valid := false, gen := (e.gen + 1) % 512, waiters := [] } else { e with waiters := l }
      else e))) }

/-- An agent no longer waits for a reply, nor holds one that was FAIL = 1 (R136, R161, R187). -/
def forget (s : State) (u : Nat) : State := State.removeWaiter { s with denied := s.denied.filter (· != u) } (.agent u)

/-- The words of a fault entry (R185). -/
def faultWord (idx : Nat) (e : FaultEntry) (n : Nat) : Word :=
  let keys := waiterKeys e.waiters
  let hd (k : Option Key) : Word := match k with | some k => handleOf k | none => 0
  match n with
  | 0 => word (bit e.valid * 2 ^ 63 + (idx * 512 + e.gen) * 2 ^ 48 + e.kind * 2 ^ 40 + e.level * 2 ^ 37 + bit e.w * 2 ^ 36 + e.owner * 2 ^ 16 + e.waiters.length % 65536)
  | 1 => word e.va
  | 2 => hd keys.head?
  | 3 => hd keys.getLast?
  | 4 => e.pte
  | 5 => word e.issue
  | 7 => e.reply
  | _ => 0

/-- Post or merge a fault (R185, R186, R420): the waiter joins the list, the one before it linked to it; a walk that only has to wait posts nothing; a new entry takes the lowest free place and sends its notice word to port n3. -/
def postFault (s : State) (o core va : Nat) (v : Service) (write : Bool) (w : Waiter) : Posted × State :=
  let f := (s.ownerRec o).fsc
  if v.kind = 8 then (.full, s)
  else if ¬ s.fscGood o core then (.unposted, s)
  else
    let page := s.faultPage f
    match page.findIdx? (fun e => e.valid && e.owner == o && e.va / 4096 == va / 4096) with
    | some i =>
      let e := page.getD i FaultEntry.fresh
      let s := match w, (waiterKeys e.waiters).getLast? with
        | .instar k, some l => s.linkTo l (some k)
        | _, _ => s
      (.posted, s.setFaultPage f (page.set i { e with waiters := e.waiters ++ [w], w := e.w || write }))
    | none =>
      match page.findIdx? (fun e => !e.valid) with
      | none => (.full, s)
      | some i =>
        let e := page.getD i FaultEntry.fresh
        let e' : FaultEntry := { valid := true, gen := e.gen, kind := v.kind, level := v.level, w := write, owner := o, va := va, pte := v.pte, issue := s.time, waiters := [w], reply := e.reply }
        let notice : NetWord := { core := 20000, txport := 3, kind := 0, unit := f, town := s.holder 1 f, port := 3, value := word (2 ^ 63 + (i * 512 + e.gen) * 2 ^ 48 + o * 2 ^ 32), closing := false, spilled := 0 }
        (.posted, { (s.setFaultPage f (page.set i e')) with net := s.net ++ [notice] })

/-! ## Leaving the ring (R164, R170) -/

/-- An instar that saves the running context (R163, R164, R281). -/
def mkInstar (s : State) (why dreg mask : Nat) (long : Bool) (pc : BitVec 57) : Instar :=
  let c := s.ctx
  { state := .ready, long := long, why := why, prio := c.prio, pc := pc, flight := c.flight, dreg := dreg, mask := mask, regs := c.x, wakev := 0, link := none,
    tethered := if s.core.copyq.any (fun q => q.ring == s.running && q.home == s.coreNo && q.key.isNone && q.intoOwn s.coreNo) then some s.coreNo else none,
    rstack := c.rstack, stat := c.stat, rtb := c.rtb, pdest := c.pdest, scla := c.scla, sclb := c.sclb, ela := c.ela, elb := c.elb, ssha := c.ssha, sshb := c.sshb,
    evc := c.evc, evcell := c.evcell, copyCount := c.copyCount, copyErr := c.copyErr, readyAt := s.lastV s.coreNo s.running, retry := none, retryPc := pc, stores := [], origin := s.coreNo }

/-- The lines of a slot's page are written when the page is left or saved (R170). -/
def writePage (s : State) (core page : Nat) (c : Ctx) : State :=
  if isMc core then s
  else
    let base := sramKey core (0x17B000 + 4096 * page)
    let ws : List (Nat × Word) := ((List.range 68 ++ (List.range 256).map (· + 256)).map (fun w => (w, pageWord c w))).filter (fun e => e.2 != 0)
    ws.foldl (fun s e => s.setWord (base + 8 * e.1) e.2) ((s.clearMem base (base + 0x220)).clearMem (base + 0x800) (base + 0x1000))

/-- The running slot's page is left. -/
def savePage (s : State) : State := s.writePage s.coreNo (s.core.pages.toList.getD s.running 0) s.ctx

/-- The running slot empties: its page is written, it continues on the spare page, and the old page becomes the spare (R170). -/
def emptySlot (s : State) : State :=
  let s := s.savePage
  let p := s.core.pages.toList.getD s.running 0
  let q := s.core.pages.toList.getD 4 0
  { s with live := false,
           core := { s.core with slots := s.core.slots.setIfInBounds s.running (.empty 0),
                                 pages := (s.core.pages.setIfInBounds s.running q).setIfInBounds 4 p,
                                 splitWaits := s.core.splitWaits.filter (· != s.running) } }

/-- Change the copy commands and the matrix commands of every core's queues. -/
def mapCommands (s : State) (f : CopyCmd → CopyCmd) (m : MatCmd → MatCmd) : State :=
  let g (c : Core) : Core := if c.copyq.isEmpty ∧ c.matq.isEmpty then c else { c with copyq := c.copyq.map f, matq := c.matq.map m }
  { s with core := g s.core, cores := s.cores.map (fun e => (e.1, g e.2)) }

/-- What is under way for a context that moves from where a test finds it: to an instar, or to a ring slot of a core. -/
def moveWork (s : State) (here : Nat → Nat → Option Key → Bool) (home slot : Nat) (inst : Option Key) : State :=
  let s := s.mapCommands (fun q => if here q.home q.ring q.key then { q with home := home, ring := slot, key := inst } else q)
    (fun m => if here m.home m.ring m.key then { m with home := home, ring := slot, key := inst } else m)
  { s with inflight := s.inflight.map (fun f => if here f.home f.slot f.inst && !ofDevice f then { f with home := home, slot := slot, inst := inst } else f),
           arrived := s.arrived.map (fun a => if here a.home a.slot a.inst && a.core != 20000 && a.core != deviceCore then { a with home := home, slot := slot, inst := inst } else a),
           fabric := { s.fabric with requests := s.fabric.requests.map (fun r => if decide (8 ≤ r.slot) && here r.home (r.slot - 8) r.key then { r with home := home, slot := 8 + slot, key := inst } else r) } }

/-- A context's commands and its stores under way follow it into its instar (R262, R391). -/
def rekey (s : State) (k : Key) : State :=
  s.moveWork (fun home slot inst => inst.isNone && home == s.coreNo && slot == s.running) s.coreNo s.running (some k)

/-- And out of it, to the slot that resumes it. -/
def unkey (s : State) (k : Key) : State := s.moveWork (fun _ _ inst => inst == some k) s.coreNo s.running none

/-- The running context's combining entries, oldest first. -/
def ownEntries (s : State) : List Combine := s.core.combining.filter (fun e => e.slot == s.running)

/-- The running context leaves the ring as the instar i at key k: what it still has in combining entries drains in order (R203), a store that needs service and those behind it staying with the instar, and all of them where it leaves for an earlier store that needs service; its record is written to the work area. -/
def leave (s : State) (k : Key) (i : Instar) : State :=
  let s := if retryStore i then s else (s.drainList s.coreNo s.ownEntries).2
  let rest := s.ownEntries
  let s := if rest.isEmpty then s else { s with core := { s.core with combining := s.core.combining.filter (fun e => e.slot != s.running) } }
  (((s.rekey k).setInstar k { i with stores := rest }).writeImage (ifaceOf s.coreNo) k).emptySlot

/-- The die whose part of the work area serves the running context (R160, R409). -/
def workDie (s : State) : Nat := if s.coreNo < 16384 then dieOf s.coreNo else nearDieOfMc (s.coreNo - 16384)

/-- Where a suspension can put its instar (R161). -/
inductive Room where
  | at (slot : Nat)
  | later                  -- no free slot, or service posted: the context stays resident
  | refused (va : Nat) (failed : Bool)  -- cannot be served: the fault cannot be posted, or the reply was FAIL = 1
  deriving DecidableEq, Repr

/-- A work-area access of a ring slot needs service (R161, R436): it is posted for that slot, which waits for the reply. -/
def workFault (s : State) (o core slot va : Nat) (v : Service) (write : Bool) : Room × State :=
  let w := core * 4 + slot
  if s.denied.contains w then (.refused va true, { s with denied := s.denied.filter (· != w) })
  else if s.waiting (.agent w) then (.later, s)
  else match s.postFault o core va v write (.agent w) with
    | (.unposted, s) => (.refused va false, s)
    | (_, s) => (.later, s)

/-- A work-area access of a ring slot waits for its reply (R161). -/
def workWaits (s : State) (core slot : Nat) : Bool := s.waiting (.agent (core * 4 + slot))

/-- Find an instar slot for the running context and see its page mapped (R161, R436). -/
def findRoom (s : State) : Room × State :=
  match (if s.workWaits s.coreNo s.running then none else s.freeSlot s.owner s.workDie) with
  | none => (.later, s)
  | some n =>
    if s.denied.contains (s.coreNo * 4 + s.running) then (.refused (workVa s.workDie n) true, { s with denied := s.denied.filter (· != s.coreNo * 4 + s.running) }) else
    match s.workPa (ifaceOf s.coreNo) { owner := s.owner, die := s.workDie, slot := n } with
    | (.ok _, s) => (.at n, s)
    | (.error v, s) => s.workFault s.owner s.coreNo s.running (workVa s.workDie n) v true

/-- The cause and the DETAIL of a work-area access that could not be served (R161, R187, R436): FARERR with FAULT where the reply was FAIL = 1, else WORKAREA on the fault service core and SELFFAULT elsewhere. -/
def workTrap (s : State) (o core va : Nat) (failed : Bool) : Nat × Word :=
  if failed then (0x0C, 4) else (if (s.ownerRec o).fsc = core then 0x11 else 0x12, word va)

/-! ## Taking an exception (R181 to R184) and the fault block (R185) -/

/-- Freeze the running context as a WHY 4 instar at slot n, whose PC is pc, and post its trap entry, which names the trapping instruction (R183). -/
def freeze (s : State) (n cause : Nat) (addr detail : Word) (pc : BitVec 57) : State :=
  let k : Key := { owner := s.owner, die := s.workDie, slot := n }
  let o := s.owner
  let i := s.mkInstar 4 0 0xFFFF true pc
  let i := { i with state := .held }
  (s.leave k i).postTrap o { cause := cause, key := some k, addr := addr, detail := detail, time := s.time, pc := s.pcWord }

/-- What follows a drain that needs service: the context blocks at its unexecuted instruction, and the reply performs the store (R344). -/
def drainAccess (s : State) (e : Combine) : Access :=
  { kind := .store, owner := e.owner, space := e.owner, core := s.coreNo, va := e.va, size := 48, data := 0, cmp := 0, bytes := e.bytes, dreg := 0, flight := s.ctx.flight, evid := none, pairs := e.pairs }

/-- A combining entry is given up. -/
def dropEntry (s : State) (e : Option Combine) : State :=
  match e with
  | some e => { s with core := { s.core with combining := s.core.combining.erase e } }
  | none => s

/-- Freeze where the work area cannot be written; it waits while no slot is free. -/
def freezeRefused (s : State) (va : Nat) (failed : Bool) : State :=
  match s.freeSlot s.owner s.workDie with
  | none => s.await (.again 0)
  | some n =>
    let c := s.workTrap s.owner s.coreNo va failed
    s.freeze n c.1 (word va) c.2 s.ctx.pc

/-- The running context blocks on a fault (R185): a WHY 3 instar in the entry's list, with what the reply performs; it waits while the page is full, and traps with SELFFAULT where the fault cannot be posted. The combining entry whose drain faulted leaves with it. -/
def blockAt (s : State) (o va : Nat) (v : Service) (write : Bool) (dreg : Nat) (pc : BitVec 57) (acc : Option Access) (ent : Option Combine) : State :=
  if v.kind = 8 then s.await (.again 0)
  else match s.findRoom with
  | (.later, s) => s.await (.again 0)
  | (.refused va' f, s) => (s.dropEntry ent).freezeRefused va' f
  | (.at n, s) =>
    let k : Key := { owner := s.owner, die := s.workDie, slot := n }
    match s.postFault o s.coreNo va v write (.instar k) with
    | (.full, s) => s.await (.again 0)
    | (.unposted, s) =>
      let w := word (match acc with | some a => storeVa a.va a.bytes | none => va)
      (s.dropEntry ent).freeze n 0x12 w w s.ctx.pc
    | (.posted, s) =>
      let s := s.dropEntry ent
      let i := s.mkInstar 3 dreg 0xFFFF true pc
      s.leave k { i with state := .blocked, retry := acc, retryPc := s.ctx.pc, blockVa := match acc with | some a => storeVa a.va a.bytes | none => va }

/-- Drain the context's stores, then go on; a drain that needs service blocks the context at this instruction (R344). -/
def drained (s : State) (k : State → State) : State :=
  match s.drainOwn with
  | (.ok _, s) => k s
  | (.error (e, v), s) => s.blockAt e.owner e.va v true 0 s.ctx.pc (some (s.drainAccess e)) (some e)

/-- TAKE AN EXCEPTION (R181): the context's stores drain, it is frozen with PC pc as a long-form WHY 4 instar in its owner's work area, and an entry with the cause, address and DETAIL is posted to its owner's trap queue, or held. -/
def trapAt (s : State) (cause : Nat) (addr detail : Word) (pc : BitVec 57) : State :=
  s.drained fun s =>
    match s.findRoom with
    | (.at n, s) => s.freeze n cause addr detail pc
    | (.later, s) => s.await (.again 0)
    | (.refused va f, s) => s.freezeRefused va f

/-- A trap at the instruction itself, ADDR 0. -/
def trap (s : State) (cause : Nat) (detail : Word) : State := s.trapAt cause 0 detail s.ctx.pc

/-- A trap at the instruction itself with an address. -/
def trapAddr (s : State) (cause : Nat) (addr detail : Word) : State := s.trapAt cause addr detail s.ctx.pc

/-- An instruction's access needs service: the context blocks at the instruction, which executes again on the reply (R187). -/
def blockAgain (s : State) (o va : Nat) (v : Service) (write : Bool) : State :=
  s.drained fun s => s.blockAt o va v write 0 s.ctx.pc none none

/-- The scalar registers with which an instar's context goes on (R163, R165): those saved, the others zero, and for WHY 2 and 3 WAKEV in DREG, for WHY 0 zero in SUSP's status register (R400). -/
def resumedRegs (i : Instar) : Vector Word 28 :=
  let x := (Vector.replicate 28 0).mapFinIdx (fun n _ _ => if n ≠ 0 ∧ bits i.mask (n - 1) (n - 1) = 1 then i.regs.toList.getD n 0 else (0 : Word))
  if (i.why = 2 ∨ i.why = 3) ∧ i.dreg ≠ 0 then x.setIfInBounds i.dreg i.wakev else if i.why = 0 then x.setIfInBounds i.dreg 0 else x

/-- The context that an instar goes on as: PC, registers, the return stack, and the context registers with the pending prefix. -/
def resumedCtx (i : Instar) : Ctx :=
  { Ctx.fresh with x := resumedRegs i, pc := i.pc, stat := i.stat, rtb := i.rtb, pdest := i.pdest, scla := i.scla, sclb := i.sclb, ela := i.ela, elb := i.elb, ssha := i.ssha, sshb := i.sshb,
                   evc := i.evc, evcell := i.evcell, rstack := i.rstack, copyCount := i.copyCount, copyErr := i.copyErr, flight := i.flight, prio := i.prio }

/-- RETURN FROM A SUSPENSION (R165): an instar is restored into the ring slot now running, with the stores that it took along; its slot is freed. -/
def restore (s : State) (i : Instar) : State :=
  { s with live := true,
           core := if i.stores.isEmpty then s.core else { s.core with combining := s.core.combining ++ i.stores.map (fun e => { e with slot := s.running, opened := s.cycle }) },
           ctx := resumedCtx i }

/-! ## Ports and messages (R175 to R179, R403) -/

def rxOf (s : State) (p : Nat) : List PortWord := s.core.rx.toList.getD p []

/-- The ports that source fields name, with how many words each needs. -/
def portNeed (srcs : List Nat) (p : Nat) : Nat := (srcs.filter (fun r => r == 28 + p)).length

def portMask (srcs : List Nat) : Nat := ((List.range 4).map (fun p => if portNeed srcs p = 0 then 0 else 2 ^ p)).sum

/-- The destination that stands for a place which comes free by other means than room in PDEST's queue: a route entry's send queue (R403), or SPLIT (R197). -/
def heldBack : Nat := 32

/-- The words that came for the running context's waiting read. -/
def heldWords (s : State) : List (Nat × PortWord) :=
  match s.ctx.wait with
  | .took ws => ws
  | _ => []

/-- A reader in another slot than k has waited on one of these ports since before a ticket (R175). -/
def readerBefore (s : State) (k mask mine : Nat) : Bool :=
  (List.range 4).any (fun j => j != k && (match (if j = s.running then (if s.live then some s.ctx else none) else match s.core.slots.toList.getD j (.empty 0) with | .busy c => some c | _ => none) with
    | some c => match c.wait with
      | .port m _ t => Nat.land (portMask m) mask != 0 && decide (t < mine)
      | _ => false
    | none => false))

/-- A reader that has waited longer on one of these ports goes first (R175). -/
def readerAhead (s : State) (mask : Nat) : Bool :=
  s.readerBefore s.running mask (match s.ctx.wait with | .port _ _ t => t | _ => s.cycle + 1)

/-- Whether every source port holds the words that its fields need (R278). -/
def canTake (s : State) (srcs : List Nat) : Bool :=
  portMask srcs == 0 || !s.heldWords.isEmpty || ((List.range 4).all (fun p => decide (portNeed srcs p ≤ (s.rxOf p).length)) && !(s.readerAhead (portMask srcs)))

/-- Read a source: a register, or the head word of a port, which sets or clears CLOSED (R178); a word that came for the waiting read first. -/
def take (s : State) (r : Nat) : Word × State :=
  if r < 28 then (s.rx r, s)
  else match s.heldWords.find? (fun w => w.1 == r - 28) with
    | some w => (w.2.value, s.await (.took (s.heldWords.erase w)))
    | none => match s.rxOf (r - 28) with
      | [] => (0, s)
      | w :: ws => (w.value, { s with core := { s.core with rx := s.core.rx.setIfInBounds (r - 28) ws, closed := s.core.closed.setIfInBounds (r - 28) w.closing } })

/-- The running context waits for words of the ports that its source fields name (R169, R175). -/
def awaitPorts (s : State) (srcs : List Nat) (rd : Nat) : State :=
  s.await (.port (srcs.filter (28 ≤ ·)) rd (match s.ctx.wait with | .port _ _ t => t | _ => s.cycle))

/-- A destination word that names nothing to send to (R177, R403): V = 0, a reserved value, or another package without the .pod grant. -/
def destBad (s : State) (e : Word) (route : Bool) : Bool :=
  wbits e 63 63 == 0 || wbits e 62 61 == 3 || wbits e 3 2 != 0 || (!route && wbits e 31 18 != 0) ||
  (wbits e 60 48 != s.pkgNum && !(s.hasGrant s.owner 5))

/-- The words of a send queue that wait at a port whose message class the peer has stopped (R67). -/
def stoppedWords (s : State) (p : Nat) : Nat :=
  let mine (t : Txn) : Bool := wbits t.w0 63 59 == 5 && wbits t.w0 42 30 == s.pkgNum && wbits t.w0 29 16 == s.coreNo % 16384 && wbits t.w3 60 60 == bit (isMc s.coreNo) && wbits t.w3 1 0 == p
  (s.fabric.ports.map (fun q => (q.2.held.filter (fun e => mine e.2)).length)).sum

/-- A send queue of 8 words has room (R175). -/
def txRoom (s : State) (p : Nat) : Bool := decide (s.core.tx.toList.getD p 0 + s.stoppedWords p < 8)

/-- The address that a dropped message word's log entry holds: DKIND, UNIT and PORT of its destination. -/
def destAddr (kind unit port : Nat) : Word := word (kind * 2 ^ 20 + unit * 16 + port)

/-- A word for a destination is dropped at the sender: DROPS counts it, and the address is logged there (R177). -/
def dropAt (s : State) (e : Word) : State :=
  let p := wbits e 1 0
  ({ s with core := { s.core with drops := s.core.drops.setIfInBounds p (s.core.drops.toList.getD p 0 + 1) } }).logEntry 9 (bit (isMc s.coreNo)) (s.coreNo % 16384) (destAddr (wbits e 62 61) (wbits e 17 4) p) 1

/-- A word leaves through a send queue (R175, R403): to this package's network, or as a MSG transaction. -/
def sendWord (s : State) (e v : Word) (closing : Bool) : State :=
  let p := wbits e 1 0
  let town := if wbits e 47 32 = 0 then s.owner else wbits e 47 32
  if wbits e 60 48 = s.pkgNum then
    { s with core := { s.core with tx := s.core.tx.setIfInBounds p (s.core.tx.toList.getD p 0 + 1) },
             net := s.net ++ [{ core := s.coreNo, txport := p, kind := wbits e 62 61, unit := wbits e 17 4, town := town, port := p, value := v, closing := closing, spilled := 0 }] }
  else
    let mc := 16384 ≤ s.coreNo
    match s.pickPort s.owner 2 (wbits e 60 48) ((if mc then s.coreNo - 16384 else s.coreNo)) with
    | some q =>
      s.emitWord q s.time (
        { w0 := word (5 * 2 ^ 59 + wbits e 60 48 * 2 ^ 43 + s.pkgNum * 2 ^ 30 + (if mc then s.coreNo - 16384 else s.coreNo) * 2 ^ 16),
          w1 := word (town * 2 ^ 48 + s.owner * 2 ^ 32), w2 := word s.time,
          w3 := word (3 * 2 ^ 61 + bit closing * 2 ^ 57 + bit (decide mc) * 2 ^ 60 + wbits e 62 61 * 2 ^ 20 + wbits e 17 4 * 2 ^ 4 + p), data := toBytes 8 v.toNat })
    | none => s.dropAt e

/-- Whether a destination register can take a result now (R169, R278). -/
def canPut (s : State) (r : Nat) : Bool :=
  decide (r < 28) || (let e := s.ctx.pdest.toList.getD (r - 28) 0; s.destBad e false || s.txRoom (wbits e 1 0))

/-- Write a destination: a register, or a word through PDEST (R175, R295). -/
def put (s : State) (r : Nat) (v : Word) : State :=
  if r < 28 then s.wx r v
  else
    let e := s.ctx.pdest.toList.getD (r - 28) 0
    if s.destBad e false then s.dropAt e else s.sendWord e v false

/-- Run an instruction whose sources or destination may be ports (R278): it waits taking nothing, or takes its words and goes on in one step. -/
def withPorts (s : State) (srcs : List Nat) (rd : Nat) (k : State → State) : State :=
  if ¬ s.canTake srcs ∨ (portMask srcs ≠ 0 ∧ ¬ s.canPut rd) then s.awaitPorts srcs rd
  else if ¬ s.canPut rd then s.await (.again 2)
  else k s

/-- The sending core's queue gives up a word, once; one that is dropped on the sender's package counts in DROPS (R177). -/
def txDone (s : State) (w : NetWord) (dropped : Bool) : State :=
  if w.core = 20000 then s
  else
    let c := s.getCore w.core
    s.setCore w.core { c with tx := if w.left then c.tx else c.tx.setIfInBounds w.txport (c.tx.toList.getD w.txport 0 - 1),
                              drops := if dropped then c.drops.setIfInBounds w.txport (c.drops.toList.getD w.txport 0 + 1) else c.drops }

end State

end Sys2Proof.Machine
end

