-- ==== Sys2Proof/Machine/Access.lean ====
section
/-! DEFINITION. Far accesses: where each is performed, what it answers, the first-level cache, cells, parking and launching, and requests to other packages (R198 to R207, R239 to R276, R341 to R355). -/

namespace Sys2Proof.Machine

/-- What an access meets where it is performed. -/
inductive Answer where
  | value (lo hi : Word)
  | code (c : Nat)                -- an answer other than OK (R73)
  | poison
  | shape (t : Nat)               -- TAGSHAPE, the tag
  | store (t : Nat)               -- TAGSTORE, the tag
  | cycle (d : Nat)
  | park (k : Nat)                -- an EMPTY or ECLO word at this store key
  | launch (k : Nat)              -- a CHRY word at this store key
  | service (v : Service)
  | packet (va : Nat) (v : Service)  -- CREVERT's read of the packet at this address needs service (R274)
  | later                         -- it waits, nothing performed
  | snoop (port addr : Nat) (inv : Bool)  -- the host holds the line (R50)
  deriving DecidableEq, Repr

/-- What a translated access names (R208, R214). -/
inductive Spot where
  | at (k : Nat) (repl : Bool)
  | code (c k : Nat)
  | service (v : Service)
  | later
  deriving DecidableEq, Repr

namespace State

/-- A port's translation cache of 8,192 entries takes the translation of a host page (R56). -/
def noteAts (s : State) (core pa : Nat) : State :=
  match (if storage pa = .host then s.hostPort (l2Die core) else none) with
  | some p =>
    if (s.host.links.toList.getD p Link.fresh).ats = true ∧ ¬ s.host.atsCache.contains (p, pa / 4096) then
      { s with host := { s.host with atsCache := ((p, pa / 4096) :: s.host.atsCache.filter (fun e => e.1 == p)).take 8192 ++ s.host.atsCache.filter (fun e => e.1 != p) } }
    else s
  | none => s

/-- What a translated access at a physical address meets (R142, R208, R211, R214): it waits for a scrub (R133), while an engine holds the line (R257), and while an agent has to be asked for its HARVEST line (R238). -/
def spotAt (s : State) (core space va pa : Nat) (t : Trans) : Spot × State :=
  let c := s.storeCode (l2Die core) space pa
  if c ≠ 0 then (.code c pa, s)
  else if s.scrubbing pa ∨ s.lineHeld pa then (.later, s)
  else
    let r := s.harvestWaits va space
    (if r.1 then .later else .at pa t.repl, r.2.noteAts core pa)

/-- Find what an access names and whether its target takes it: the core window untranslated, all else translated (R198, R217, R142, R208, R211, R214). A write waits while its interface's dirty log is full (R236), and any access while an engine holds the line (R257). -/
def locate (s : State) (core space va n : Nat) (need : Need) : Spot × State :=
  if inWindow va then
    match s.windowKey space va n with
    | some k => if s.matHoldsKey k n true ∨ s.scrubbing k then (.later, s) else (.at k false, s)
    | none =>
      match windowCore va with
      | some (c, off) => (if s.coreOwner c = space ∧ s.splitSpan c off n then .later else .code 3 (sramKey c off), s)
      | none => (.code 3 sramBase, s)
  else if need = .write ∧ 4096 ≤ (s.getIface (ifaceOf core)).dirty.length then (.later, s)
  else match s.translate (ifaceOf core) space va need with
    | (.error v, s) => (if v.kind = 8 then .later else .service v, s)
    | (.ok (pa, t), s) => s.spotAt core space va pa t

/-- The same for an access that may carry its translation (R226): one that comes later than its end and SKB, or to a page that the host has denied since (R57), goes back to its interface. -/
def locateFor (s : State) (acc : Access) (n : Nat) (need : Need) : Spot × State :=
  match acc.via with
  | some t =>
    let pa := t.pa + (acc.va - t.va)
    if s.time ≤ t.stop + s.clock.skb ∧ s.hostDenied pa need = false then s.spotAt acc.core acc.space acc.va (s.homeKey pa) t else s.locate acc.core acc.space acc.va n need
  | none => s.locate acc.core acc.space acc.va n need

/-! ## The first-level cache (R200 to R205) -/

def l1Capacity (c : Core) : Nat := (98304 * c.cbanks - 24576) / 48

/-- A sector that a load hits (R201). -/
def l1Find (s : State) (core owner va : Nat) : Option Sector :=
  (s.getCore core).l1.find? (fun e => e.owner == owner && e.va == sectorStart va && decide (s.time < e.stop))

/-- The members of a core's victim pool (R205), itself left out, in core order after it. -/
def poolMates (s : State) (core : Nat) : List Nat :=
  if (s.getCore core).pool ∧ core < 16384 then
    (List.range 3).filterMap (fun i =>
      let m := core / 4 * 4 + (core + 1 + i) % 4
      if (s.getCore m).pool ∧ s.coreOwner m = s.coreOwner core then some m else none)
  else []

/-- Drop a sector from a core's cache and from every member of its pool (R203, R205). -/
def dropSector (s : State) (core owner va : Nat) : State :=
  (core :: s.poolMates core).foldl (fun s m =>
    let c := s.getCore m
    if c.l1.any (fun e => e.owner == owner && e.va == sectorStart va) then
      s.setCore m { c with l1 := c.l1.filter (fun e => !(e.owner == owner && e.va == sectorStart va)) }
    else s) s

/-- Put a sector into a core's cache; expired ones are gone (R201), and the oldest beyond the capacity are evicted: one that is not of host memory moves to the next member of the pool, which may evict in its turn, once round the pool (R205, log 13). -/
def l1Put (s : State) : Nat → Nat → Sector → State
  | 0, _, _ => s
  | fuel + 1, core, e =>
    let c := s.getCore core
    let l := c.l1.filter (fun x => !(x.owner == e.owner && x.va == e.va) && decide (s.time < x.stop)) ++ [e]
    let extra := l.length - l1Capacity c
    let s := s.setCore core { c with l1 := l.drop extra }
    match s.poolMates core with
    | m :: _ => (l.take extra).foldl (fun s x => if storage x.pa ≠ .host then s.l1Put fuel m x else s) s
    | [] => s

/-- Fill a sector. -/
def l1Fill (s : State) (core : Nat) (e : Sector) : State := s.l1Put 4 core e

/-- Take a sector out of another member of the pool (R205), for a fetch one that a fetch has filled; no sector of a host line is pooled (R53). -/
def l1Pooled (s : State) (core owner va : Nat) (code : Bool) : Option Sector × State :=
  let has (m : Nat) : Option Sector := (s.l1Find m owner va).filter (fun e => storage e.pa != .host && (e.exec || !code))
  match (s.poolMates core).find? (fun m => (has m).isSome) with
  | some m =>
    match has m with
    | some e =>
      let c := s.getCore m
      (some e, (s.setCore m { c with l1 := c.l1.erase e }).l1Fill core { e with held := core })
    | none => (none, s)
  | none => (none, s)

/-- Grant a lease on a line (R202), ended no later than V − 2 of any write that waits for its V (R242): none where it would be over at once. The die's L2 holds the line under a die lease that it renews as far as the lease needs (R207). -/
def grant (s : State) (core k : Nat) (repl : Bool) : Option Nat × State :=
  let len := if storage k = .host then 32 else if repl then 1024 else if s.contended (dieOf core) (lineKey k) then 32 else 256
  let stop := s.arrived.foldl (fun m a => if lineKey a.key = lineKey k ∧ storage a.key = storage k then min m (a.vis - 2) else m) (s.time + len)
  if stop ≤ s.time then (none, s)
  else (some stop, (State.l2Share { s with leases := s.leases.filter (fun l => decide (s.time < l.2.2)) ++ [(lineKey k, core, stop)] } (dieOf core) k stop))

/-- Every word of a sector is VAL, as seen and as last serialised. -/
def sectorPlain (s : State) (k : Nat) : Bool :=
  (List.range (sectorSize k / 8)).all (fun i => s.tagAt (sectorStart k + 8 * i) == 0 && s.plainWord (sectorStart k + 8 * i))

/-- A sector comes into a core's cache under a fresh lease, where the cache may hold it (R200). -/
def fillSector (s : State) (core owner va k : Nat) (repl exec : Bool) : State :=
  if (storage k = .hbm ∨ storage k = .host) ∧ core < 16384 ∧ s.sectorPlain k then
    match s.grant core k repl with
    | (some stop, s) => (s.trackLine core k).l1Fill core { owner := owner, va := sectorStart va, pa := sectorStart k, stop := stop, held := core, exec := exec }
    | (none, s) => s
  else s

/-! ## Draining for an access (R203, R249) -/

/-- The entries that an access to a sector drains: those of the sector, and the earlier ones of the same contexts. -/
def sectorEntries (s : State) (core owner va : Nat) : List Combine :=
  let es := (s.getCore core).combining
  let hit := es.filter (fun e => e.owner == owner && e.va == sectorStart va)
  es.filter (fun e => hit.any (fun t => t.slot == e.slot && decide (e.opened ≤ t.opened)))

/-- What a context still does after its gang has stopped: a CMK that has written FLIGHT (8), a BX4 acceptance under way (9), an ownership instruction that has issued (10), a far access that waits where it is performed (11), the trap of a transfer whose target word has failed (12), the rest of a vector access's lanes, or a port read whose words have come (R188, R189, R293, R385, R418). -/
def finishes : Wait → Bool
  | .again n => decide (8 ≤ n)
  | .took _ => true
  | .lanes _ => true
  | _ => false

/-- A context that waits like this stands at an instruction boundary: nothing of its instruction has been performed (R344). -/
def atBoundary : Wait → Bool
  | .ready => true
  | .again n => !(finishes (.again n))
  | .port _ _ _ => true
  | .split => true
  | _ => false

/-- A context that holds an LPAD that it has fetched as a jump's target has only to execute it, which does nothing (R293, R294). -/
def padDone (c : Ctx) : Ctx :=
  if c.wait = .ready ∧ c.word.isSome = true ∧ c.word.getD 0 < 2 ^ 32 then { c with pc := c.pc + 4, word := none } else c

/-- A drain of another resident context's entry needs service: that context stops at its instruction boundary (R344), once what it has issued has returned (R262, R349). -/
def blockOther (s : State) (e : Combine) (v : Service) : State :=
  let c := s.coreNo
  let k := s.running
  let s := s.focus c e.slot
  let s := if s.live then s.setCtx (padDone s.ctx) else s
  let w := s.ctx.wait
  let s := if s.live ∧ s.ctx.loads = [] ∧ atBoundary w = true then s.blockAt e.owner e.va v true 0 s.ctx.pc (some { s.drainAccess e with evid := none }) (some e) else s
  -- one that could not be stopped yet waits as before
  (if s.live then s.await w else s).focus c k

/-- Drain what an access to a sector drains: none where the running context has blocked or waits. -/
def drainSector (s : State) (owner va : Nat) (k : State → State) : State :=
  match s.drainList s.coreNo (s.sectorEntries s.coreNo owner va) with
  | (.ok _, s) => k s
  | (.error (e, v), s) =>
    if e.slot = s.running then s.blockAt e.owner e.va v true 0 s.ctx.pc (some (s.drainAccess e)) (some e)
    else (s.blockOther e v).await (.again 0)

/-- Stores of this core to a sector have left it and not arrived, or (where seen) are not yet visible. -/
def ownPending (s : State) (core k : Nat) (seen : Bool) : Bool :=
  s.inflight.any (fun f => !ofDevice f && (f.core == core || f.home == core) && decide (sectorStart f.key = sectorStart k)) ||
  (seen && s.arrived.any (fun a => a.core != 20000 && a.core != deviceCore && (a.core == core || a.home == core) && decide (sectorStart a.key = sectorStart k)))

/-! ## Packets and evaluations (R157, R270 to R274) -/

/-- Why a read failed: a code of R73, or service. -/
inductive ReadFail where
  | code (c : Nat)
  | service (v : Service) (va : Nat)  -- and the address that needs it
  | later                         -- it only has to wait
  deriving DecidableEq, Repr

/-- A word of an owner's space: 9 for poison and 10 for a word that is not VAL; a refusal is logged (R142). -/
def readVa (s : State) (core space va : Nat) : Except ReadFail Word × State :=
  match s.locate core space va 8 .read with
  | (.at k _, s) =>
    if (s.hostOwns k).isSome then (.error .later, s.askOwner k)
    else if s.poisoned k 8 then (.error (.code 9), s)
    else if s.tagAt k ≠ 0 then (.error (.code 10), s)
    else (.ok (s.wordAt k), s)
  | (.code c k, s) => (.error (.code c), s.logCode core space va k c)
  | (.service v, s) => (.error (.service v va), s)
  | (.later, s) => (.error .later, s)

/-- n words upwards. -/
def readWords (s : State) (core space va : Nat) : Nat → Except ReadFail (List Word) × State
  | 0 => (.ok [], s)
  | n + 1 =>
    match s.readVa core space va with
    | (.error e, s) => (.error e, s)
    | (.ok w, s) =>
      match s.readWords core space (va + 8) n with
      | (.error e, s) => (.error e, s)
      | (.ok ws, s) => (.ok (w :: ws), s)

/-- The length of a packet in words (R157). -/
def packetWords (w1 : Word) : Nat := 4 * (wbits w1 42 40 + 1)

/-- A task packet (R157), whole. -/
def readPacket (s : State) (core space h : Nat) : Except ReadFail (List Word) × State :=
  match s.readWords core space h 2 with
  | (.error e, s) => (.error e, s)
  | (.ok ws, s) => s.readWords core space h (packetWords (ws.getD 1 0))

/-- The successor handles of a packet. -/
def successors (ws : List Word) : List Word := ws.drop (ws.length - wbits (ws.getD 1 0) 47 43)

/-- The payload words of a packet. -/
def payload (ws : List Word) : List Word := (ws.take (ws.length - wbits (ws.getD 1 0) 47 43)).drop 2

def badHandle (h : Word) : Bool := wbits h 63 57 != 0 || wbits h 4 0 != 0

/-- A malformed packet (R157), the check of FLIGHT apart. -/
def malformed (ws : List Word) (clim : Nat) : Bool :=
  let w1 := ws.getD 1 0
  wbits w1 37 0 != 0 || decide (8 * ws.length < 16 + 8 * wbits w1 47 43) ||
  wbits (ws.getD 0 0) 31 0 % 4 != 0 || decide (clim ≤ wbits (ws.getD 0 0) 31 0) || (successors ws).any badHandle

def flight? (s : State) (owner num : Nat) : Option Flight := s.flights.list.find? (fun f => f.num == num && f.owner == owner)

/-- The cores that a flight is placed on. -/
def flightCores (f : Flight) : List Nat := if f.state = .placed ∨ f.state = .switching then f.groups.flatten else []

/-- A core's list of pinned evaluations, which its slots take ahead of every ring item (R270), is kept beside the rings. -/
def pinnedKey (core : Nat) : Nat := 2 ^ 24 + core

def pushPinned (s : State) (core : Nat) (i : Item) : State :=
  { s with rings := SMap.set [] s.rings (pinnedKey core) (SMap.get [] s.rings (pinnedKey core) ++ [{ item := i, spot := none }]) }

/-- A free evaluation number of a die (R272: which one is not promised). -/
def freeEvid (s : State) (die : Nat) : Option Nat :=
  (s.pickFree (fun n => s.evals.all (fun e => e.evid != die * 4096 + n)) 4096).map (die * 4096 + ·)

def waitev (s : State) (e : Nat) : Option Nat := (s.evals.find? (fun x => x.evid == e)).bind (·.waitev)

/-- The cycle check of R273, from depth d on: fuel 4 at the first. -/
def cycleFrom (s : State) (y : Nat) : Nat → Nat → Nat → Nat
  | 0, _, _ => 0
  | fuel + 1, d, e => if e = y then d else match s.waitev e with
    | none => 0
    | some e' => s.cycleFrom y fuel (d + 1) e'

def cycleDepth (s : State) (y x : Nat) : Nat := s.cycleFrom y 4 1 x

/-- Where a launched evaluation goes (R270). -/
inductive Goes where
  | slot                          -- the loader's freed slot
  | ring (die : Nat)
  | pinned (core : Nat)
  deriving DecidableEq, Repr

/-- A launch that can be made: the packet's handle, the flight it belongs to, its priority, and where it goes. -/
structure Launch where
  handle : Nat
  flight : Nat
  prio   : Nat
  goes   : Goes
  die    : Nat                    -- of its evaluation number (R272)
  deriving DecidableEq, Repr

/-- Check the task that a CHRY word names (R270): none where the launch is declined. -/
def launchOf (s : State) (core owner : Nat) (k : Nat) (w : Word) (loaderFlight : Nat) (resident : Bool) : Except ReadFail Launch × State :=
  let h := wbits w 56 5 * 32
  match s.readPacket core owner h with
  | (.error e, s) => (.error e, s)
  | (.ok ws, s) =>
    let home := decide (core < 16896)
    let own := s.flight? owner (wbits (ws.getD 0 0) 63 32)
    let fl := match own with
      | some f => some f
      | none => if home then s.flight? owner loaderFlight else none
    match fl with
    | none => (.error (.code 10), s)
    | some f =>
      if malformed ws f.imglen ∨ wbits (ws.getD 1 0) 63 48 ≠ 0 then (.error (.code 10), s)
      else
        let near := nearDie k
        let place := wbits w 63 62
        let here := if home ∧ core < 16384 then dieOf core else near
        let pin := wbits ((payload ws).getD 0 0) 13 0
        let goes : Goes × Nat :=
          if place = 0 ∧ resident ∧ core < 16384 ∧ core ∈ flightCores f then (.slot, dieOf core)
          else if place = 2 then (.ring here, here)
          else if place = 3 ∧ s.holder 1 pin = owner then (.pinned pin, dieOf pin)
          else (.ring near, near)
        (.ok { handle := h, flight := f.num, prio := wbits (ws.getD 1 0) 39 38, goes := goes.1, die := goes.2 }, s)

/-- Make the evaluation ready and the cell ECLO, its waiter list as it was (R270, R272): the item, for the loader's freed slot. -/
def launchAs (s : State) (l : Launch) (owner k cellVa evid : Nat) : Item × State :=
  let i : Item := .task l.handle l.flight l.prio (some (cellVa, evid))
  let s := { s with evals := s.evals ++ [{ evid := evid, owner := owner, cell := k, va := cellVa, waitev := none }] }
  (i, match l.goes with
    | .slot => s
    | .ring d => s.pushRing owner d l.prio i
    | .pinned c => s.pushPinned c i)

/-- The evaluation that an instar performs, if it is one, is parked on the evaluation of number w, or on none (R272). -/
def waitsOn (s : State) (i : Instar) (w : Option Nat) : State :=
  if wbits i.evc 63 63 = 0 then s
  else { s with evals := s.evals.map (fun e => if e.evid = wbits i.evc 15 0 ∧ e.va = i.evcell then { e with waitev := w } else e) }

/-- Link an instar as the new head of a cell's waiter list (R269); the evaluation that it performs, if it is one, now waits on the cell's (R272). -/
def linkWaiter (s : State) (k : Nat) (key : Key) : State :=
  let w := s.wordAt k
  let s := match s.getInstar key with
    | some i =>
      let s := (s.setInstar key { i with link := s.listHead k w, state := match i.state with | .remote r p c _ => .remote r p c k | _ => .parked k s.time }).writeImage key.die key
      if s.tagAt k = 3 then s.waitsOn i (some (wbits w 15 0)) else s
    | none => s
  s.setWord k (word (2 ^ 63 + key.die * 2 ^ 59 + key.slot * 2 ^ 46 + wbits w 15 0))

/-! ## Performing (R267, R348, R352) -/

/-- The host holds the line: what the home sends before a device access (R50). -/
def hostAsk (s : State) (k : Nat) (write : Bool) (go : State → Answer × State) : Answer × State :=
  match (if write then s.hostHolds k else s.hostOwns k) with
  | some p => (.snoop p (lineStart k) write, s)
  | none => go s

/-- A load at its home (R267): raw for a memory core. -/
def loadAt (s : State) (acc : Access) (k : Nat) : Answer :=
  let t := s.tagOver k acc.size
  let v : Answer := .value (word (s.natAt k (min 8 acc.size))) (if acc.size = 16 then s.wordAt (k + 8) else 0)
  if s.poisoned k acc.size then .poison
  else if isMc acc.core ∨ t = 0 then v
  else if acc.size ≠ 8 then .shape t.toNat
  else if t = 1 then .park k
  else if t = 2 then .launch k
  else
    let x := wbits (s.wordAt k) 15 0
    let d := match acc.evid with | some y => s.cycleDepth y x | none => 0
    if d = 0 then .park k else .cycle d

/-- A far load: from the first-level cache, from the pool, or at the home, which leases the sector (R200 to R205); where it parks or launches, the home writes the cell's line, which the host must then have given up (R50). -/
def performLoad (s : State) (acc : Access) : Answer × State :=
  let cached := decide (acc.core < 16384) && !inWindow acc.va
  let fromCache (s : State) (e : Sector) : Answer × State :=
    let k := e.pa + (acc.va - e.va)
    if s.ownPending acc.core k true then (.later, s) else (s.loadAt acc k, s)
  match (if cached then s.l1Find acc.core acc.space acc.va else none) with
  | some e => fromCache s e
  | none =>
    match (if cached then s.l1Pooled acc.core acc.space acc.va false else (none, s)) with
    | (some e, s) => fromCache s e
    | (none, s) =>
      match s.locateFor acc acc.size .read with
      | (.code c k, s) => (.code c, s.logCode acc.core acc.owner acc.va k c)
      | (.service v, s) => (.service v, s)
      | (.later, s) => (.later, s)
      | (.at k repl, s) =>
        let changes := match s.loadAt acc k with | .park _ => true | .launch _ => true | _ => false
        if s.ownPending acc.core k true then (.later, s)
        else s.hostAsk k changes fun s =>
          let a := s.loadAt acc k
          (a, if cached then s.fillSector acc.core acc.space acc.va k repl false else s)

/-- A prefetch (R346): every sector of a line of HBM4E or host memory gets a fresh lease; sectors with a non-VAL word are skipped. -/
def performPrefetch (s : State) (acc : Access) : Answer × State :=
  if inWindow acc.va then (.value 0 0, s)
  else match s.locateFor acc 1 .read with
    | (.service v, s) => (.service v, s)
    | (.later, s) => (.later, s)
    | (.code c k, s) =>
      if storage k = .weight ∨ storage k = .pooled then (.value 0 0, s) else (.code c, s.logCode acc.core acc.owner acc.va k c)
    | (.at k repl, s) =>
      if storage k ≠ .hbm ∧ storage k ≠ .host then (.value 0 0, s)
      else s.hostAsk k false fun s =>
        (.value 0 0, (lineSectors k).foldl (fun s a => s.fillSector acc.core acc.space (acc.va - (k - lineStart k) + (a - lineStart k)) a repl false) s)

/-- What an atomic writes over the old value o (R348): none where AMOCAS fails. -/
def amoResult (op o b c : Nat) : Option Nat :=
  let s (v : Nat) : Int := toInt 64 v
  match op with
  | 0 => some ((o + b) % 2 ^ 64)
  | 1 => some b
  | 2 => if o = c then some b else none
  | 3 => some (if s b < s o then b else o)
  | 4 => some (if s o < s b then b else o)
  | 5 => some (min o b)
  | 6 => some (max o b)
  | 7 => some (Nat.land o b)
  | 8 => some (Nat.lor o b)
  | 9 => some (Nat.xor o b)
  | _ => some (fp32.add 0 false o (b % 2 ^ 32)).1

/-- The ring slot whose context an access belongs to, for the waits of R251: 4 where it belongs to none that is resident. -/
def slotFor (s : State) (acc : Access) : Nat := if acc.core = s.coreNo ∧ s.live then s.running else 4

/-- Whose write an access makes: that of the context that issues it, or of the instar for which a reply performs it (R187). -/
def byOf (s : State) (acc : Access) : By :=
  match acc.inst with
  | some k => { core := acc.core, slot := 4, inst := some k }
  | none => { core := acc.core, slot := s.slotFor acc }

/-- An atomic at its point of serialisation (R256, R348, R349). -/
def performAtomic (s : State) (acc : Access) (op : Nat) : Answer × State :=
  let s := if acc.core < 16384 then s.dropSector acc.core acc.space acc.va else s
  match s.locateFor acc acc.size .write with
  | (.code c k, s) => (.code c, s.logCode acc.core acc.owner acc.va k c)
  | (.service v, s) => (.service v, s)
  | (.later, s) => (.later, s)
  | (.at k _, s) =>
    if storage k = .pooled then (.code 9, s.logCode acc.core acc.owner acc.va k 9)
    else if s.ownPending acc.core k false then (.later, s)
    else s.hostAsk k true fun s =>
      let t := s.serialTag k
      if s.poisoned k acc.size then (.poison, s)
      else if t ≠ 0 then (.store t.toNat, s)
      else
        let o := s.serialNat k acc.size
        match amoResult op o acc.data.toNat acc.cmp.toNat with
        | none => (.value (word o) 0, s)
        | some n =>
          let bs := offsets (toBytes acc.size n)
          (.value (word o) 0, (s.shadowHost acc.core k bs).arriveFor (s.byOf acc) 0 k bs none false)

/-- A word's tag and contents change at the home: at once where the word is no VAL word and nothing waits for its V there, else at its V (R241, R266). -/
def changeCell (s : State) (acc : Access) (k : Nat) (t : BitVec 2) (w : Word) : State :=
  if s.tagAt k ≠ 0 ∧ s.arrived.all (fun a => a.key / 8 != k / 8) then (s.setTag k t).setWord k w
  else s.arriveFor (s.byOf acc) 0 k (offsets (toBytes 8 w.toNat)) (some t) false

/-- The result word of a cell operation (R268). -/
def cellResult (refused : Bool) (wq before : Nat) : Word := word (bit refused * 2 ^ 63 + wq * 4 + before)

/-- A cell operation at its home (R267, R268, R274): CMK 0, CEMPTY 1, CFILL 2, CTAG 3, CREVERT 4. -/
def cellAt (s : State) (acc : Access) (f3 k : Nat) : Answer × State :=
  let t := (s.serialTag k).toNat
  let w := word (s.serialNat k 8)
  let wq := if t = 1 ∨ t = 3 then wbits w 63 63 else 0
  let ok (s : State) : Answer × State := (.value (cellResult false wq t) 0, s)
  let no (s : State) : Answer × State := (.value (cellResult true wq t) 0, s)
  match f3 with
  | 0 => if t = 3 ∨ (t = 1 ∧ wq = 1) then no s else ok (s.changeCell acc k 2 acc.data)
  | 1 => if t = 3 then no s else if t = 1 then ok s else ok (s.changeCell acc k 1 0)
  | 2 =>
    if t = 2 then no s
    else
      let bs := offsets (toBytes 8 acc.data.toNat)
      ok ((s.shadowHost acc.core k bs).arriveFor (s.byOf acc) 0 k bs (if t = 0 then none else some 0) (decide (t ≠ 0)))
  | 3 => ok s
  | _ =>
    if t ≠ 3 then no s
    else
      let old := wbits w 15 0
      if wq = 0 then ok ((s.changeCell acc k 2 acc.data).freeEval old)
      else match s.launchOf acc.core acc.space k acc.data acc.flight false with
        | (.error (.service v va), s) => (.packet va v, s)
        | (.error .later, s) => (.later, s)
        | (.error (.code _), s) => no s
        | (.ok l, s) =>
          match s.freeEvid l.die with
          | none => (.later, s)
          | some e =>
            let s := (s.launchAs l acc.space k acc.va e).2
            let s := s.setWord k (word (w.toNat / 65536 * 65536 + e))
            ok { s.freeEval old with evals := (s.freeEval old).evals.map (fun x => if x.waitev = some old then { x with waitev := some e } else x) }

/-- A cell operation (R349, R353): CTAG needs read permission, the others write; memory that carries no tags answers as R353 gives. -/
def performCell (s : State) (acc : Access) (f3 : Nat) : Answer × State :=
  let s := if acc.core < 16384 then s.dropSector acc.core acc.space acc.va else s
  match s.locateFor acc 8 (if f3 = 3 then .read else .write) with
  | (.code c k, s) => (.code c, s.logCode acc.core acc.owner acc.va k c)
  | (.service v, s) => (.service v, s)
  | (.later, s) => (.later, s)
  | (.at k _, s) =>
    if (storage k = .pooled ∨ storage k = .host) ∧ f3 ≠ 2 ∧ f3 ≠ 3 then (.value (cellResult true 0 0) 0, s)
    else if storage k = .pooled then (.code 9, s.logCode acc.core acc.owner acc.va k 9)
    else if s.ownPending acc.core k false then (.later, s)
    else s.hostAsk k (f3 != 3) fun s =>
      if s.poisoned k 8 ∧ f3 ≠ 2 then (.poison, s) else s.cellAt acc f3 k

/-- A store's drain that the reply performs (R187, R344): it goes on its way. -/
def performDrain (s : State) (acc : Access) : Answer × State :=
  match s.drainFor acc.core acc.inst { slot := 4, va := acc.va, bytes := acc.bytes, opened := 0, owner := acc.owner, first := storeVa acc.va acc.bytes, pairs := acc.pairs } with
  | (.error v, s) => (if v.kind = 8 then .later else .service v, s)
  | (.ok _, s) => (.value 0 0, s)

/-- Perform an access (R240). -/
def perform (s : State) (acc : Access) : Answer × State :=
  match acc.kind with
  | .load _ => s.performLoad acc
  | .store => s.performDrain acc
  | .atomic op => s.performAtomic acc op
  | .cell f3 => s.performCell acc f3
  | .prefetch => s.performPrefetch acc

/-! ## Delivering the answer to the running context -/

/-- The registers a result goes to: a load extends b, h and w, and writes a pair for q (R342); an atomic and a cell operation write one word. -/
def deliver (s : State) (acc : Access) (lo hi : Word) : State :=
  match acc.kind with
  | .load 4 => ((s.wx acc.dreg lo).wx (acc.dreg + 1) hi).next
  | .load w => (s.wx acc.dreg (if w = 3 then lo else sext lo (8 * 2 ^ w))).next
  | .atomic _ => (s.wx acc.dreg lo).next
  | .cell _ => (s.wx acc.dreg lo).next
  | .store => s.next
  | .prefetch => s.next

/-- The loader parks (R269): it leaves the ring as a WHY 2 instar and is linked into the cell; a launch makes the cell ECLO first, and a LOCAL evaluation takes the freed slot (R270). -/
def parkAt (s : State) (acc : Access) (k : Nat) (l : Option (Launch × Nat)) : State :=
  match s.findRoom with
  | (.later, s) => s.await (.again 0)
  | (.refused va f, s) => s.freezeRefused va f
  | (.at n, s) =>
    let key : Key := { owner := s.owner, die := s.workDie, slot := n }
    let i := s.mkInstar 2 acc.dreg 0xFFFF true (s.ctx.pc + 4)
    let core := s.coreNo
    let slot := s.running
    let s := s.leave key { i with state := .parked k s.time, retryPc := s.ctx.pc, retry := some acc }
    match l with
    | none => s.linkWaiter k key
    | some (l, e) =>
      let s := (s.setTag k 3).setWord k (word e)
      let r := s.launchAs l acc.space k acc.va e
      let s := r.2.linkWaiter k key
      if l.goes = .slot then s.setSlot core slot (.drawn r.1 (dieOf core)) else s

/-- How a context waits whose access has to wait where it is performed: a CMK's has written FLIGHT before it. -/
def waitHome (acc : Access) : Wait := .again (if acc.kind = .cell 0 then 8 else 11)

/-- A load met CHRY (R270): declined with TAGFAULT, held while the table is full, or launched. -/
def launchAt (s : State) (acc : Access) (k : Nat) : State :=
  match s.launchOf acc.core acc.space k (s.wordAt k) acc.flight true with
  | (.error .later, s) => s.await (waitHome acc)
  | (.error _, s) => s.trapAddr 0x0C (word acc.va) 10
  | (.ok l, s) =>
    match s.freeEvid l.die with
    | none => s.await (waitHome acc)
    | some e =>
      let d := match acc.evid with | some y => s.cycleDepth y e | none => 0
      if d = 0 then s.parkAt acc k (some (l, e)) else s.trapAddr 0x0A (word acc.va) (word d)

/-- What an answer does to the running context, whose PC is that of the access: the result, a trap (R182), a park, a fault block (R185), or a wait. -/
def settleAnswer (s : State) (acc : Access) (a : Answer) : State :=
  match a with
  | .value lo hi => if s.async then s.await (.response acc lo hi) else s.deliver acc lo hi
  | .code c => s.trapAddr 0x0C (word acc.va) (word c)
  | .poison => s.trapAddr 0x0D (word acc.va) 0
  | .shape t => s.trapAddr 0x09 (word acc.va) (word t)
  | .store t => s.trapAddr 0x08 (word acc.va) (word t)
  | .cycle d => s.trapAddr 0x0A (word acc.va) (word d)
  | .park k => s.drained fun s => s.parkAt acc k none
  | .launch k => s.drained fun s => s.launchAt acc k
  | .service v =>
    s.drained fun s => s.blockAt acc.space acc.va v (match acc.kind with | .atomic _ => true | .cell f3 => f3 != 3 | .store => true | _ => false)
      acc.dreg (s.ctx.pc + 4) (some acc) none
  | .packet va v => s.drained fun s => s.blockAt acc.space va v false 0 s.ctx.pc none none
  | .later => s.await (waitHome acc)
  | .snoop p a inv => (s.askHost p a inv).await (waitHome acc)

/-- A far load issues and leaves its context running (R247): up to four, with the registers as they stand before it (R248). -/
def putOut (s : State) (acc : Access) : State :=
  let c := s.ctx
  if 4 ≤ c.loads.length then s.await (.again 0)
  else (s.setCtx { c with loads := c.loads ++ [{ acc := acc, got := none, before := { x := c.x, v := c.v, m := c.m, stat := c.stat, pc := c.pc } }] }).next

/-- What an access needs of its translation (R229). -/
def needOf : AccessKind → Need
  | .atomic _ => .write
  | .cell f3 => if f3 = 3 then .read else .write
  | .store => .write
  | _ => .read

/-- An access takes its translation from its interface and carries it, with its end, to where it is performed (R226); one that hits the first-level cache needs none, and one whose walk gives none comes again. -/
def withVia (s : State) (acc : Access) : Access × State :=
  if inWindow acc.va ∨ (needOf acc.kind = .write ∧ 4096 ≤ (s.getIface (ifaceOf acc.core)).dirty.length) ∨ (acc.core < 16384 ∧ needOf acc.kind = .read ∧ (s.l1Find acc.core acc.space acc.va).isSome) then (acc, s)
  else match s.translate (ifaceOf acc.core) acc.space acc.va (needOf acc.kind) with
    | (.ok (_, t), s) => ({ acc with via := some t }, s)
    | (.error _, s) => (acc, s)

/-- A far access of the running context: performed at once; or, where accesses complete by events, outstanding if it is a load (R247), and else under way until ACCESS_AT_POINT_OF_SERIALISATION (R239). -/
def issue (s : State) (acc : Access) : State :=
  s.drainSector acc.space acc.va fun s =>
    if s.async then
      let r := s.withVia acc
      match acc.kind with
      | .load _ => r.2.putOut r.1
      | _ => r.2.await (.far r.1)
    else
      let r := s.perform acc
      r.2.settleAnswer acc r.1

/-- A prefetch of a key that has nothing to fill (R346): of a memory core, of memory that is not cached, or of a line whose every sector has a word that is not VAL. -/
def nothingToFill (s : State) (acc : Access) (k : Nat) : Bool :=
  isMc acc.core || storage k == .weight || storage k == .pooled ||
  (s.storeCode (l2Die acc.core) acc.space k == 0 && (lineSectors k).all (fun a => !(s.sectorPlain a)))

/-- A prefetch of the running context: it drains nothing, and one that has nothing to fill completes at issue (R346). -/
def prefetch (s : State) (acc : Access) : State :=
  if inWindow acc.va then s.next
  else if s.async then
    let r := s.withVia acc
    match r.1.via with
    | some t => if s.nothingToFill acc (s.homeKey (t.pa + (acc.va - t.va))) then r.2.next else r.2.await (.far r.1)
    | none => r.2.await (.far r.1)
  else
    let r := s.perform acc
    r.2.settleAnswer acc r.1

/-- The running context's evaluation number, if it is an evaluator (R273). -/
def ownEvid (s : State) : Option Nat := if wbits s.ctx.evc 63 63 = 1 then some (wbits s.ctx.evc 15 0) else none

/-- The access that the running context makes. -/
def access (s : State) (kind : AccessKind) (va size dreg : Nat) (data cmp : Word) : Access :=
  { kind := kind, owner := s.owner, space := s.owner, core := s.coreNo, va := va, size := size, data := data, cmp := cmp, bytes := [], dreg := dreg, flight := s.ctx.flight, evid := s.ownEvid }

/-! ## Requests to other packages (R68 to R73, R345) -/

/-- An owner's usable ports in a group have changed, and requests that it sent there before are not yet answered: new ones wait at the source edge (R72). -/
def edgeHolds (s : State) (o pkg : Nat) : Bool :=
  let group (n : Nat) : Option Nat := SMap.get none s.fabric.routes n
  s.fabric.requests.any (fun r => r.acc.owner == o && !r.parked && group r.dpkg == group pkg && r.via != s.usablePorts o pkg)

/-- A request identifier that a die has free (R69), and that no request with the same SCORE bears; one whose late response may yet come (R73) is taken only when no other is free. -/
def freeRid (s : State) (die core : Nat) : Option Nat :=
  let free (n : Nat) : Bool := s.fabric.requests.all (fun r => !((r.die == die || r.acc.core % 16384 == core % 16384) && r.rid == n))
  let clean (n : Nat) : Bool := s.fabric.late.all (fun l => !((l.1 == die || l.2.2 == core % 16384) && l.2.1 == n))
  if 4096 ≤ (s.fabric.requests.filter (fun r => r.die == die)).length then none
  else (s.pickFree (fun n => free n && clean n) 4096).or (s.pickFree free 4096)

def amoOp : AccessKind → Nat
  | .atomic op => op
  | _ => 0

/-- The transaction of a request (R68). -/
def requestTxn (s : State) (acc : Access) (kind dpkg town rid size : Nat) : Txn :=
  { w0 := word (kind * 2 ^ 59 + dpkg * 2 ^ 43 + s.pkgNum * 2 ^ 30 + (acc.core % 16384) * 2 ^ 16 + rid * 16),
    w1 := word (town * 2 ^ 48 + acc.owner * 2 ^ 32), w2 := word s.time,
    w3 := word (size * 2 ^ 61 + amoOp acc.kind * 2 ^ 57 + acc.va), data := [] }

/-- The die whose table holds a core's requests (R69): its own, or its hub die, 16 to 19, for a memory core. -/
def requestDie (core : Nat) : Nat := if core < 16384 then dieOf core else 16 + (core - 16384) / 128

/-- Send a request to another package: refused at the source edge with NOROUTE or PORTSHARE (R71, R76), stalled at the limit of R69 or while R72 holds the owner's new requests, or sent. The data of an AMO is its operand, then AMOCAS's compare value. -/
def sendRequest (s : State) (acc : Access) (kind dpkg town size : Nat) (data : List Byte) (slot : Nat) : Except Nat Nat × State :=
  let ports := s.groupPorts dpkg
  if ports.isEmpty then (.error 6, s)
  else match s.pickPort acc.owner 0 dpkg (acc.va / 4096 * 32 + lineIndex (acc.va % 4096)) with
    | none => (.error 7, s)
    | some p =>
      let die := requestDie acc.core
      match (if s.edgeHolds acc.owner dpkg then none else s.freeRid die acc.core) with
      | none => (.error 16, s)
      | some rid =>
        let t := { s.requestTxn acc kind dpkg town rid size with data := data }
        (.ok rid, State.emit { s with fabric := { s.fabric with requests := s.fabric.requests ++ [{ die := die, rid := rid, acc := acc, slot := slot, dpkg := dpkg, issue := s.time, parked := false, via := s.usablePorts acc.owner dpkg, key := none }] } } p s.time t)

/-- A far load or atomic on another package: the context waits for its response. -/
def issueRemote (s : State) (acc : Access) (kind dpkg town size : Nat) (data : List Byte) : State :=
  match s.sendRequest acc kind dpkg town size data s.running with
  | (.ok rid, s) => s.await (.remote rid)
  | (.error c, s) => if c = 16 then s.await (.again 0) else (s.logTo acc.core town acc.owner acc.va sramBase c).trapAddr 0x0C (word acc.va) (word c)

end State

end Sys2Proof.Machine
end

