-- ==== Sys2Proof/Machine/Edge.lean ====
section
/-! DEFINITION. The receiving edge (R73, R74): requests from other packages performed and answered, and the replies of fault service cores (R185 to R187). -/

namespace Sys2Proof.Machine

namespace State

/-- The response to a request (R68, R70, R73): kind 8 RSP or 9 PARKED. -/
def responseTo (s : State) (t : Txn) (kind code : Nat) (data : List Byte) : Txn :=
  { w0 := word (kind * 2 ^ 59 + t.spkg * 2 ^ 43 + s.pkgNum * 2 ^ 30 + t.score * 2 ^ 16 + t.rid * 16 + code), w1 := word (t.town * 2 ^ 48 + t.rown * 2 ^ 32), w2 := t.w2, w3 := t.w3, data := data }

/-- Answer a request; a code other than OK is logged with the address (R73), as of the Amienaec class and unit 0, since a transaction keeps no note of the port it came by (log 11). -/
def answerTxn (s : State) (t : Txn) (kind code : Nat) (data : List Byte) : State :=
  let s := if code = 0 then s else s.logEntry 2 5 0 (word t.va) (word (code + t.town * 2 ^ 48 + t.rown * 2 ^ 32))
  s.sendFree t.spkg t.score (s.responseTo t kind code data)

/-- Answer OK once a write has become visible (R241, R256). -/
def replyAfter (s : State) (t : Txn) (k n : Nat) (data : List Byte) : State :=
  let v := s.arrived.foldl (fun m a => if a.key < k + n ∧ k < a.key + 48 then max m a.vis else m) s.time
  if v ≤ s.time then s.answerTxn t 8 0 data else { s with due := s.due ++ [(v, .fabric 0 (s.responseTo t 8 0 data) [])] }

/-- A request waits at its edge and comes again. -/
def requeue (s : State) (t : Txn) (e : Nat) : State :=
  let i : Instr := if t.kind = 0 then .farRd else if t.kind = 1 then .farWr else if t.kind = 2 then .amo else .push
  { s with postponed := s.postponed ++ [(i, { Arg.none with a := 144, b := 36 * e, txn := t })] }

/-- A proxy stands for a loader of another package in a cell's waiter list (R269): the answer is PARKED. -/
def proxyAt (s : State) (t : Txn) (k e : Nat) : State :=
  let die := nearDie k
  match s.freeSlot t.town die with
  | none => s.requeue t e
  | some n =>
    let key : Key := { owner := t.town, die := die, slot := n }
    let i : Instar :=
      { state := .remote t.rid t.spkg t.score k, long := true, why := 2, prio := 0, pc := 0, flight := 0, dreg := 0, mask := 3,
        regs := ((Vector.replicate 28 (0 : Word)).setIfInBounds 1 (word (t.spkg * 2 ^ 48 + t.score))).setIfInBounds 2 (word t.rid),
        wakev := 0, link := none, tethered := none, rstack := [], stat := 0, rtb := 0, pdest := Vector.replicate 4 0, scla := 0, sclb := 0, ela := 0, elb := 0,
        ssha := 3, sshb := 3, evc := 0, evcell := 0, copyCount := 0, copyErr := 0, readyAt := 0, retry := none, retryPc := 0 }
    ((s.setInstar key i).linkWaiter k key).answerTxn t 9 0 []

/-- The access that a request makes at edge e. -/
def edgeAccess (t : Txn) (e : Nat) (kind : AccessKind) (size : Nat) (data cmp : Word) : Access :=
  { kind := kind, owner := t.town, space := t.town, core := edgeCore e, va := t.va, size := size, data := data, cmp := cmp, bytes := [], dreg := 0, flight := 0, evid := none }

/-- One arriving word of an accumulating push (R312, R393): added to the word last serialised, as FP32 with one RNE rounding or as INT32. -/
def addWord (add old new : Nat) : Nat := if add = 1 then (fp32.add 0 false old new).1 else (old + new) % 2 ^ 32

/-- A push's bytes at a key: plainly, or each word added at its point of serialisation. -/
def pushBytes (s : State) (core slot k add : Nat) (bs : List Byte) : State :=
  if add = 0 then (s.shadowHost core k (offsets bs)).arrive core slot k (offsets bs) none false
  else (List.range (bs.length / 4)).foldl (fun s i =>
    let w := offsets (toBytes 4 (addWord add (s.serialNat (k + 4 * i) 4) (ofBytes ((bs.drop (4 * i)).take 4))))
    (s.shadowHost core (k + 4 * i) w).arrive core slot (k + 4 * i) w none false) s

/-- A write or push from another package at its point of serialisation: whole or not at all. -/
def remoteWrite (s : State) (t : Txn) (e n : Nat) : Answer × State :=
  match s.locate (edgeCore e) t.town t.va n .write with
  | (.code c _, s) => (.code c, s)
  | (.service v, s) => (.service v, s)
  | (.later, s) => (.later, s)
  | (.at k _, s) =>
    s.hostAsk k true fun s =>
      if (List.range ((n + 7) / 8)).all (fun i => s.plainWord (k + 8 * i)) then
        (.value (word k) 0, s.pushBytes (edgeCore e) 0 k (if t.kind = 4 then t.op else 0) (t.data.take n))
      else (.code 10, s)

/-- Perform a request at edge e and answer it (R74 steps 3 and 4). The reserved SIZE codes 6 and 7 are read as 64 and 128 bytes, which is the model's choice (log 11); a reserved OP of an AMO is an operation that cannot be performed (R73). -/
def serve (s : State) (t : Txn) (e : Nat) : State :=
  if t.kind = 2 ∧ 10 < t.op then s.answerTxn t 8 9 [] else
  let n := if t.size = 5 then 192 else 2 ^ t.size
  let acc := edgeAccess t e (if t.kind = 2 then .atomic t.op else .load t.size) n (word (ofBytes (t.data.take 8))) (word (ofBytes ((t.data.drop 8).take 8)))
  let spot := if t.kind = 0 then Spot.later else (s.locate (edgeCore e) t.town t.va n .write).1
  let r := if t.kind = 1 ∨ t.kind = 4 then s.remoteWrite t e n else s.perform acc
  let s := r.2
  match r.1 with
  | .value lo hi =>
    if t.kind = 0 then s.answerTxn t 8 0 (toBytes 8 lo.toNat ++ (if n = 16 then toBytes 8 hi.toNat else []))
    else match spot with
      | .at k _ => s.replyAfter t k n (if t.kind = 2 then toBytes 8 lo.toNat else [])
      | _ => s.answerTxn t 8 0 (if t.kind = 2 then toBytes 8 lo.toNat else [])
  | .code c => s.answerTxn t 8 c []
  | .poison => s.answerTxn t 8 9 []
  | .shape _ => s.answerTxn t 8 10 []
  | .store _ => s.answerTxn t 8 10 []
  | .cycle _ => s.answerTxn t 8 10 []
  | .park k => s.proxyAt t k e
  | .launch k =>
    match s.launchOf (edgeCore e) t.town k (s.wordAt k) 0 false with
    | (.error .later, s) => s.requeue t e
    | (.error _, s) => s.answerTxn t 8 10 []
    | (.ok l, s) =>
      match s.freeEvid l.die, s.freeSlot t.town (nearDie k) with
      | some ev, some _ =>
        let s := (s.setTag k 3).setWord k (word ev)
        (s.launchAs l t.town k t.va ev).2.proxyAt t k e
      | _, _ => s.requeue t e
  | .service v =>
    match s.postFault t.town (edgeCore e) t.va v (t.kind != 0) (.edge (20 + e) t) with
    | (.posted, s) => s
    | (.full, s) => s.requeue t e
    | (.unposted, s) => s.answerTxn t 8 4 []
  | .packet _ _ => s.requeue t e
  | .later => s.requeue t e
  | .snoop p a inv => (s.askHost p a inv).requeue t e

/-! ## Replies (R187) -/

/-- An instar that is not resident is posted as a trap with PC that of the instruction that blocked. -/
def postInstar (s : State) (k : Key) (i : Instar) (cause : Nat) (addr detail : Word) : State :=
  ((s.setInstar k { i with state := .held, why := 4, dreg := 0, pc := i.retryPc, link := none, retry := none }).writeImage k.die k).postTrap k.owner
    { cause := cause, key := some k, addr := addr, detail := detail, time := s.time, pc := i.retryPc.setWidth 64 }

/-- The value that goes to DREG (R342). -/
def resultOf (acc : Access) (lo : Word) : Word :=
  match acc.kind with
  | .load w => if 3 ≤ w then lo else sext lo (8 * 2 ^ w)
  | _ => lo

/-- A waiter whose access the reply performed: WAKEV, and the second word of a pair beside it. -/
def wakeWith (s : State) (k : Key) (i : Instar) (acc : Access) (lo hi : Word) : State :=
  let i := if acc.kind = .load 4 then { i with regs := i.regs.setIfInBounds (acc.dreg + 1) hi, mask := Nat.lor i.mask (2 ^ acc.dreg) } else i
  s.readyImage k { i with wakev := resultOf acc lo, link := none, retry := none }

/-- A waiter executes its instruction again from the start. -/
def wakeAgain (s : State) (k : Key) (i : Instar) : State :=
  s.readyImage k { i with pc := i.retryPc, dreg := 0, link := none, retry := none, wakev := 0 }

/-- A waiter whose access the reply cannot perform yet, since its fault finds the page full or the access only has to wait: a store goes back with its context, to drain before anything else of it (R344); any other access comes again for the instar, which stays blocked until it is performed (R187), in no list of waiters (R163). -/
def replayLater (s : State) (k : Key) (i : Instar) (acc : Access) : State :=
  match acc.kind with
  | .store =>
    let e : Combine := { slot := 0, va := acc.va, bytes := acc.bytes, opened := 0, owner := acc.owner, first := storeVa acc.va acc.bytes, pairs := acc.pairs }
    s.wakeAgain k { i with stores := e :: i.stores }
  | _ => State.writeImage { s.setInstar k { i with retry := some acc } with postponed := s.postponed ++ [(.reply, { Arg.none with a := 2 ^ 20, b := k.owner, c := k.die, d := k.slot })] } k.die k

/-- A waiter's access, or a read that it makes, needs service again: as j it joins a new entry, the last of its list (R185, R187); where the page is full the access comes again for i. -/
def replayFault (s : State) (k : Key) (i j : Instar) (acc : Access) (va : Nat) (v : Service) (write : Bool) : State :=
  match (s.setInstar k j).postFault acc.space acc.core va v write (.instar k) with
  | (.posted, s) => s.writeImage k.die k
  | (.full, s) => s.replayLater k i acc
  | (.unposted, s) => s.postInstar k i 0x12 (word (storeVa va acc.bytes)) (word (storeVa va acc.bytes))

/-- Perform a waiter's access as if it were issued now. -/
def replayWaiter (s : State) (k : Key) (i : Instar) (acc : Access) : State :=
  let i := { i with link := none }
  let r := s.perform { acc with inst := some k }
  let s := r.2
  let va := word (storeVa acc.va acc.bytes)
  match r.1 with
  | .value lo hi => s.wakeWith k i acc lo hi
  | .code c => s.postInstar k i 0x0C va (word c)
  | .poison => s.postInstar k i 0x0D va 0
  | .shape t => s.postInstar k i 0x09 va (word t)
  | .store t => s.postInstar k i 0x08 va (word t)
  | .cycle d => s.postInstar k i 0x0A va (word d)
  | .park c => (s.setInstar k { i with why := 2 }).linkWaiter c k
  | .launch c =>
    match s.launchOf acc.core acc.space c (s.wordAt c) acc.flight false with
    | (.error .later, s) => s.replayLater k i acc
    | (.error _, s) => s.postInstar k i 0x0C va 10
    | (.ok l, s) =>
      match s.freeEvid l.die with
      | none => s.replayLater k i acc
      | some e =>
        let d := match acc.evid with | some y => s.cycleDepth y e | none => 0
        if d = 0 then
          let s := (s.setTag c 3).setWord c (word e)
          ((s.launchAs l acc.space c acc.va e).2.setInstar k { i with why := 2 }).linkWaiter c k
        else s.postInstar k i 0x0A va (word d)
  | .service v => s.replayFault k i i acc acc.va v (match acc.kind with | .load _ => false | .prefetch => false | .cell f3 => f3 != 3 | _ => true)
  | .packet pva v => s.replayFault k i { i with dreg := 0, pc := i.retryPc, retry := none, blockVa := pva } acc pva v false
  | .later => s.replayLater k i acc
  | .snoop p a inv => (s.askHost p a inv).replayLater k i acc

/-- A waiter whose access had to wait at the reply comes again. -/
def replayAgain (s : State) (k : Key) : State :=
  match s.getInstar k with
  | some i => match i.state, i.retry with
    | .blocked, some acc => if s.waiting (.instar k) then s else s.replayWaiter k i acc
    | _, _ => s
  | none => s

/-- The reply for a gang's cocoon is an event at which its owner's next placement pass runs (R156). -/
def passAfter (s : State) (u : Nat) : State :=
  match (if 2 ^ 40 ≤ u ∧ u < 2 ^ 60 then s.flights.list.find? (fun f => f.num == (u - 2 ^ 40) / 65536) else none) with
  | some f => if s.flights.passes.contains f.owner then s else { s with flights := { s.flights with passes := s.flights.passes ++ [f.owner] } }
  | none => s

/-- One waiter of an answered entry. -/
def answerWaiter (s : State) (fail : Bool) (w : Waiter) : State :=
  match w with
  | .instar k =>
    match s.getInstar k with
    | none => s
    | some i =>
      if fail then s.postInstar k i 0x0C (word i.blockVa) 4
      else match i.retry with
        | some acc => s.replayWaiter k i acc
        | none => s.readyImage k { i with link := none }
  | .edge f t => if fail then s.answerTxn t 8 4 [] else s.serve t (f - 20)
  | .agent u => (if fail then { s with denied := s.denied ++ [u] } else s).passAfter u

/-- A store to the REPLY word of an entry of a core's fault page (R187), which the word then holds (R185): discarded and logged as LATE where the tag is stale. The entry is valid while its waiters are answered, so that a waiter that faults again goes to another entry, and is freed after them. -/
def replyStore (s : State) (core idx : Nat) (v : Word) : State :=
  let s := s.setFaultPage core ((s.faultPage core).modify idx (fun e => { e with reply := v }))
  let page := s.faultPage core
  let e := page.getD idx FaultEntry.fresh
  if ¬ e.valid ∨ wbits v 62 48 ≠ idx * 512 + e.gen then s.logEntry 8 0 core (word e.va) v
  else
    let s := if e.waiters.isEmpty then s else s.setFaultPage core (page.set idx { e with owner := 65536, waiters := [] })
    let far (w : Waiter) : Bool := match w with | .edge _ _ => true | _ => false
    let ws := e.waiters.filter (fun w => !far w) ++ e.waiters.filter far
    let s := ws.foldl (fun s w => s.answerWaiter (wbits v 63 63 == 1) w) s
    s.setFaultPage core ((s.faultPage core).set idx { e with valid := false, gen := (e.gen + 1) % 512, waiters := [] })

end State

/-- REPLY: the service core's store reaches its fault page; or an access that the reply could not perform yet comes again. -/
def execReply (s : State) : Host.Outcome State Fault Refusal :=
  .next (if 2 ^ 20 ≤ s.arg.a then s.replayAgain { owner := s.arg.b, die := s.arg.c, slot := s.arg.d } else s.replyStore s.arg.a (s.arg.b % 64) s.arg.w)

end Sys2Proof.Machine
end

