-- ==== Sys2Proof/WellFormed.lean ====
section
/-! DEFINITION. Which terms of Instr are instructions (R278, R286, R288 and the chapters of each) and which events name things that exist. -/

namespace Sys2Proof

/-- A register number, ports included (R278). -/
def isReg (r : Nat) : Bool := decide (r < 32)

/-- A scalar register that is no port (R278). -/
def isX (r : Nat) : Bool := decide (r < 28)

/-- A rounding field of FPS: a mode, or 7 for the default (R324). -/
def isRounding (r : Nat) : Bool := decide (r < 5) || r == 7

/-- A prefix byte (R313). -/
def isPrefixByte (b : Nat) : Bool :=
  decide (b < 256) && (decide (b % 16 < 8) || b % 16 == 15) && (decide (b / 16 % 8 < 5) || b / 16 % 8 == 7)

/-- Mask enable and mask register (R286). -/
def isMask (me mk : Nat) : Bool := decide (me < 2) && decide (mk < 8) && (me == 1 || mk == 0)

/-- The well-formed instructions. -/
def Instr.wf : Instr → Bool
  | .give rd rs1 rs2 rs3 => isX rd && isX rs1 && isX rs2 && isX rs3
  | .accept rd rs1 => isX rd && isX rs1
  | .lend rd rs1 rs2 rs3 => isX rd && isX rs1 && isX rs2 && isX rs3
  | .returnLoan rd rs1 => isX rd && isX rs1
  | .reclaim rd rs1 => isX rd && isX rs1
  | .ownq rd rs1 rs2 rs3 => isX rd && isX rs1 && isX rs2 && isX rs3
  | .salvage rd rs1 => isX rd && isX rs1
  | .pulse rd => isX rd
  | .add rd rs1 rs2 => isReg rd && isReg rs1 && isReg rs2
  | .sub rd rs1 rs2 => isReg rd && isReg rs1 && isReg rs2
  | .sll rd rs1 rs2 => isReg rd && isReg rs1 && isReg rs2
  | .slt rd rs1 rs2 => isReg rd && isReg rs1 && isReg rs2
  | .sltu rd rs1 rs2 => isReg rd && isReg rs1 && isReg rs2
  | .xor rd rs1 rs2 => isReg rd && isReg rs1 && isReg rs2
  | .srl rd rs1 rs2 => isReg rd && isReg rs1 && isReg rs2
  | .sra rd rs1 rs2 => isReg rd && isReg rs1 && isReg rs2
  | .or rd rs1 rs2 => isReg rd && isReg rs1 && isReg rs2
  | .and rd rs1 rs2 => isReg rd && isReg rs1 && isReg rs2
  | .mul rd rs1 rs2 => isReg rd && isReg rs1 && isReg rs2
  | .mulh rd rs1 rs2 => isReg rd && isReg rs1 && isReg rs2
  | .mulhu rd rs1 rs2 => isReg rd && isReg rs1 && isReg rs2
  | .div rd rs1 rs2 => isReg rd && isReg rs1 && isReg rs2
  | .divu rd rs1 rs2 => isReg rd && isReg rs1 && isReg rs2
  | .rem rd rs1 rs2 => isReg rd && isReg rs1 && isReg rs2
  | .remu rd rs1 rs2 => isReg rd && isReg rs1 && isReg rs2
  | .min rd rs1 rs2 => isReg rd && isReg rs1 && isReg rs2
  | .minu rd rs1 rs2 => isReg rd && isReg rs1 && isReg rs2
  | .max rd rs1 rs2 => isReg rd && isReg rs1 && isReg rs2
  | .maxu rd rs1 rs2 => isReg rd && isReg rs1 && isReg rs2
  | .rotl rd rs1 rs2 => isReg rd && isReg rs1 && isReg rs2
  | .rotr rd rs1 rs2 => isReg rd && isReg rs1 && isReg rs2
  | .clz rd rs1 => isReg rd && isReg rs1
  | .ctz rd rs1 => isReg rd && isReg rs1
  | .popc rd rs1 => isReg rd && isReg rs1
  | .sextw rd rs1 => isReg rd && isReg rs1
  | .zextw rd rs1 => isReg rd && isReg rs1
  | .addi rd rs1 imm => isReg rd && isReg rs1 && decide (imm < 4096)
  | .slti rd rs1 imm => isReg rd && isReg rs1 && decide (imm < 4096)
  | .sltiu rd rs1 imm => isReg rd && isReg rs1 && decide (imm < 4096)
  | .xori rd rs1 imm => isReg rd && isReg rs1 && decide (imm < 4096)
  | .ori rd rs1 imm => isReg rd && isReg rs1 && decide (imm < 4096)
  | .andi rd rs1 imm => isReg rd && isReg rs1 && decide (imm < 4096)
  | .slli rd rs1 amt => isReg rd && isReg rs1 && decide (amt < 64)
  | .srli rd rs1 amt => isReg rd && isReg rs1 && decide (amt < 64)
  | .srai rd rs1 amt => isReg rd && isReg rs1 && decide (amt < 64)
  | .lui rd imm => isReg rd && decide (imm < 1048576)
  | .auipc rd imm => isReg rd && decide (imm < 1048576)
  | .fadd w rd rs1 rs2 rm => decide (w < 2) && isReg rd && isReg rs1 && isReg rs2 && isRounding rm
  | .fsub w rd rs1 rs2 rm => decide (w < 2) && isReg rd && isReg rs1 && isReg rs2 && isRounding rm
  | .fmul w rd rs1 rs2 rm => decide (w < 2) && isReg rd && isReg rs1 && isReg rs2 && isRounding rm
  | .fdiv w rd rs1 rs2 rm => decide (w < 2) && isReg rd && isReg rs1 && isReg rs2 && isRounding rm
  | .fsqrt w rd rs1 rm => decide (w < 2) && isReg rd && isReg rs1 && isRounding rm
  | .fmadd w rd rs1 rs2 rm => decide (w < 2) && isX rd && isReg rs1 && isReg rs2 && isRounding rm
  | .fmin w rd rs1 rs2 => decide (w < 2) && isReg rd && isReg rs1 && isReg rs2
  | .fmax w rd rs1 rs2 => decide (w < 2) && isReg rd && isReg rs1 && isReg rs2
  | .fcmp w rd rs1 rs2 pred => decide (w < 2) && isReg rd && isReg rs1 && isReg rs2 && decide (pred < 3)
  | .fcvt w rd rs1 code rm => decide (w < 2) && isReg rd && isReg rs1 && (decide (code < 5) || (decide (8 ≤ code) && decide (code < 12))) && isRounding rm
  | .fclass w rd rs1 => decide (w < 2) && isReg rd && isReg rs1
  | .beq rs1 rs2 off => isReg rs1 && isReg rs2 && decide (off < 2048)
  | .bne rs1 rs2 off => isReg rs1 && isReg rs2 && decide (off < 2048)
  | .blt rs1 rs2 off => isReg rs1 && isReg rs2 && decide (off < 2048)
  | .bge rs1 rs2 off => isReg rs1 && isReg rs2 && decide (off < 2048)
  | .bltu rs1 rs2 off => isReg rs1 && isReg rs2 && decide (off < 2048)
  | .bgeu rs1 rs2 off => isReg rs1 && isReg rs2 && decide (off < 2048)
  | .jal rd off => isX rd && decide (off < 524288)
  | .jt rs1 imm => isX rs1 && decide (imm < 4096)
  | .callt rd rs1 imm => isX rd && isX rs1 && decide (imm < 4096)
  | .ret => true
  | .lpad label => decide (label < 1048576)
  | .fmt byte => isPrefixByte byte
  | .lb rd rs1 imm => isX rd && isX rs1 && decide (imm < 4096)
  | .lh rd rs1 imm => isX rd && isX rs1 && decide (imm < 4096)
  | .lw rd rs1 imm => isX rd && isX rs1 && decide (imm < 4096)
  | .ld rd rs1 imm => isX rd && isX rs1 && decide (imm < 4096)
  | .lbu rd rs1 imm => isX rd && isX rs1 && decide (imm < 4096)
  | .lhu rd rs1 imm => isX rd && isX rs1 && decide (imm < 4096)
  | .lwu rd rs1 imm => isX rd && isX rs1 && decide (imm < 4096)
  | .sb rs2 rs1 imm => isX rs2 && isX rs1 && decide (imm < 4096)
  | .sh rs2 rs1 imm => isX rs2 && isX rs1 && decide (imm < 4096)
  | .sw rs2 rs1 imm => isX rs2 && isX rs1 && decide (imm < 4096)
  | .sd rs2 rs1 imm => isX rs2 && isX rs1 && decide (imm < 4096)
  | .fldB rd rs1 imm => isX rd && isX rs1 && decide (imm < 4096)
  | .fldH rd rs1 imm => isX rd && isX rs1 && decide (imm < 4096)
  | .fldW rd rs1 imm => isX rd && isX rs1 && decide (imm < 4096)
  | .fldD rd rs1 imm => isX rd && isX rs1 && decide (imm < 4096)
  | .fldQ rd rs1 imm => isX rd && isX rs1 && decide (imm < 4096) && rd % 2 == 0
  | .fldP w rd rs1 rt => decide (w < 5) && isX rd && isX rs1 && isX rt && (w != 4 || rd % 2 == 0)
  | .fpf rs1 imm => isX rs1 && decide (imm < 4096)
  | .fstB rs2 rs1 imm => isX rs2 && isX rs1 && decide (imm < 4096)
  | .fstH rs2 rs1 imm => isX rs2 && isX rs1 && decide (imm < 4096)
  | .fstW rs2 rs1 imm => isX rs2 && isX rs1 && decide (imm < 4096)
  | .fstD rs2 rs1 imm => isX rs2 && isX rs1 && decide (imm < 4096)
  | .fstQ rs2 rs1 imm => isX rs2 && isX rs1 && decide (imm < 4096) && rs2 % 2 == 0
  | .fstP w rs2 rs1 rt => decide (w < 5) && isX rs2 && isX rs1 && isX rt && (w != 4 || rs2 % 2 == 0)
  | .amoadd rd rs1 rs2 ord pf scope => isX rd && isX rs1 && isX rs2 && decide (ord < 4) && decide (pf < 2) && decide (scope < 8) && (ord != 0 || scope == 0) && (pf == 0 || (rs1 % 2 == 0 && decide (rs1 < 26)))
  | .amoswap rd rs1 rs2 ord pf scope => isX rd && isX rs1 && isX rs2 && decide (ord < 4) && decide (pf < 2) && decide (scope < 8) && (ord != 0 || scope == 0) && (pf == 0 || (rs1 % 2 == 0 && decide (rs1 < 26)))
  | .amocas rd rs1 rs2 ord pf scope => isX rd && isX rs1 && isX rs2 && decide (ord < 4) && decide (pf < 2) && decide (scope < 8) && (ord != 0 || scope == 0) && (pf == 0 || (rs1 % 2 == 0 && decide (rs1 < 26)))
  | .amomin rd rs1 rs2 ord pf scope => isX rd && isX rs1 && isX rs2 && decide (ord < 4) && decide (pf < 2) && decide (scope < 8) && (ord != 0 || scope == 0) && (pf == 0 || (rs1 % 2 == 0 && decide (rs1 < 26)))
  | .amomax rd rs1 rs2 ord pf scope => isX rd && isX rs1 && isX rs2 && decide (ord < 4) && decide (pf < 2) && decide (scope < 8) && (ord != 0 || scope == 0) && (pf == 0 || (rs1 % 2 == 0 && decide (rs1 < 26)))
  | .amominu rd rs1 rs2 ord pf scope => isX rd && isX rs1 && isX rs2 && decide (ord < 4) && decide (pf < 2) && decide (scope < 8) && (ord != 0 || scope == 0) && (pf == 0 || (rs1 % 2 == 0 && decide (rs1 < 26)))
  | .amomaxu rd rs1 rs2 ord pf scope => isX rd && isX rs1 && isX rs2 && decide (ord < 4) && decide (pf < 2) && decide (scope < 8) && (ord != 0 || scope == 0) && (pf == 0 || (rs1 % 2 == 0 && decide (rs1 < 26)))
  | .amoand rd rs1 rs2 ord pf scope => isX rd && isX rs1 && isX rs2 && decide (ord < 4) && decide (pf < 2) && decide (scope < 8) && (ord != 0 || scope == 0) && (pf == 0 || (rs1 % 2 == 0 && decide (rs1 < 26)))
  | .amoor rd rs1 rs2 ord pf scope => isX rd && isX rs1 && isX rs2 && decide (ord < 4) && decide (pf < 2) && decide (scope < 8) && (ord != 0 || scope == 0) && (pf == 0 || (rs1 % 2 == 0 && decide (rs1 < 26)))
  | .amoxor rd rs1 rs2 ord pf scope => isX rd && isX rs1 && isX rs2 && decide (ord < 4) && decide (pf < 2) && decide (scope < 8) && (ord != 0 || scope == 0) && (pf == 0 || (rs1 % 2 == 0 && decide (rs1 < 26)))
  | .amofadd rd rs1 rs2 ord pf scope => isX rd && isX rs1 && isX rs2 && decide (ord < 4) && decide (pf < 2) && decide (scope < 8) && (ord != 0 || scope == 0) && (pf == 0 || (rs1 % 2 == 0 && decide (rs1 < 26)))
  | .fenceAcq scope => decide (scope < 8)
  | .fenceRel scope => decide (scope < 8)
  | .fenceAr scope => decide (scope < 8)
  | .barInstruction scope rs1 => decide (scope < 8) && isX rs1 && scope != 0
  | .cmk rd rs1 rs2 => isX rd && isX rs1 && isX rs2
  | .cempty rd rs1 rs2 => isX rd && isX rs1 && isX rs2
  | .cfill rd rs1 rs2 => isX rd && isX rs1 && isX rs2
  | .ctag rd rs1 rs2 => isX rd && isX rs1 && isX rs2
  | .crevert rd rs1 rs2 => isX rd && isX rs1 && isX rs2
  | .vld vd ra me mk => isReg vd && isX ra && isMask me mk
  | .vst vd ra me mk => isReg vd && isX ra && isMask me mk
  | .vlds vd ra vb me mk => isReg vd && isX ra && isX vb && isMask me mk
  | .vsts vd ra vb me mk => isReg vd && isX ra && isX vb && isMask me mk
  | .vldx vd ra vb me mk => isReg vd && isX ra && isReg vb && isMask me mk
  | .vstx vd ra vb me mk => isReg vd && isX ra && isReg vb && isMask me mk
  | .vand vd va vb me mk => isReg vd && isReg va && isReg vb && isMask me mk
  | .vor vd va vb me mk => isReg vd && isReg va && isReg vb && isMask me mk
  | .vxor vd va vb me mk => isReg vd && isReg va && isReg vb && isMask me mk
  | .vsll vd va vb me mk => isReg vd && isReg va && isReg vb && isMask me mk
  | .vsrl vd va vb me mk => isReg vd && isReg va && isReg vb && isMask me mk
  | .vsra vd va vb me mk => isReg vd && isReg va && isReg vb && isMask me mk
  | .vsel vd va vb me mk => isReg vd && isReg va && isReg vb && isMask me mk
  | .vshuf vd va vb me mk => isReg vd && isReg va && isReg vb && isMask me mk
  | .vslide vd va vb me mk => isReg vd && isReg va && isReg vb && isMask me mk
  | .vbcast vd rs me mk => isReg vd && isReg rs && isMask me mk
  | .vext rd va lane => isReg rd && isReg va && decide (lane < 16)
  | .vins vd rs lane => isReg vd && isReg rs && decide (lane < 16)
  | .vcvt vd va src part me mk => isReg vd && isReg va && decide (src < 8) && src != 5 && decide (part < 4) && isMask me mk
  | .vadd vd va vb me mk => isReg vd && isReg va && isReg vb && isMask me mk
  | .vsub vd va vb me mk => isReg vd && isReg va && isReg vb && isMask me mk
  | .vmul vd va vb me mk => isReg vd && isReg va && isReg vb && isMask me mk
  | .vmadd vd va vb me mk => isReg vd && isReg va && isReg vb && isMask me mk
  | .vnmsub vd va vb me mk => isReg vd && isReg va && isReg vb && isMask me mk
  | .vmin vd va vb me mk => isReg vd && isReg va && isReg vb && isMask me mk
  | .vmax vd va vb me mk => isReg vd && isReg va && isReg vb && isMask me mk
  | .vabs vd va me mk => isReg vd && isReg va && isMask me mk
  | .vdiv vd va vb me mk => isReg vd && isReg va && isReg vb && isMask me mk
  | .vsqrt vd va me mk => isReg vd && isReg va && isMask me mk
  | .vexp2 vd va me mk => isReg vd && isReg va && isMask me mk
  | .vrcp vd va me mk => isReg vd && isReg va && isMask me mk
  | .vrsqrt vd va me mk => isReg vd && isReg va && isMask me mk
  | .vcmpEq md va vb me mk => decide (md < 8) && isReg va && isReg vb && isMask me mk
  | .vcmpNe md va vb me mk => decide (md < 8) && isReg va && isReg vb && isMask me mk
  | .vcmpLt md va vb me mk => decide (md < 8) && isReg va && isReg vb && isMask me mk
  | .vcmpLe md va vb me mk => decide (md < 8) && isReg va && isReg vb && isMask me mk
  | .vcmpGt md va vb me mk => decide (md < 8) && isReg va && isReg vb && isMask me mk
  | .vcmpGe md va vb me mk => decide (md < 8) && isReg va && isReg vb && isMask me mk
  | .vredSum vd va me mk => isReg vd && isReg va && isMask me mk
  | .vredMax vd va me mk => isReg vd && isReg va && isMask me mk
  | .vredMin vd va me mk => isReg vd && isReg va && isMask me mk
  | .mand md ma mb => decide (md < 8) && decide (ma < 8) && decide (mb < 8)
  | .mor md ma mb => decide (md < 8) && decide (ma < 8) && decide (mb < 8)
  | .mxor md ma mb => decide (md < 8) && decide (ma < 8) && decide (mb < 8)
  | .mnot md ma rs2 => decide (md < 8) && decide (ma < 8) && isReg rs2
  | .mpop rd ma rs2 => isReg rd && decide (ma < 8) && isReg rs2
  | .mfirst rd ma rs2 => isReg rd && decide (ma < 8) && isReg rs2
  | .mset md rs1 rs2 => decide (md < 8) && isReg rs1 && isReg rs2
  | .mget rd ma rs2 => isReg rd && decide (ma < 8) && isReg rs2
  | .bmany ma off => decide (ma < 8) && decide (off < 2048)
  | .bmnone ma off => decide (ma < 8) && decide (off < 2048)
  | .mclaim rd sa cnt => isX rd && decide (sa < 64) && decide (sa + cnt < 64)
  | .mrel sa cnt => decide (sa < 64) && decide (sa + cnt < 64)
  | .mload sa ra => decide (sa < 64) && isX ra
  | .mldw sa ra => decide (sa < 64) && isX ra
  | .mmul ac sa slb => decide (ac < 8) && decide (sa < 64) && decide (slb < 64)
  | .mzero ac => decide (ac < 8)
  | .mstore ac ra => decide (ac < 8) && isX ra
  | .mstat rd sel => isX rd && decide (sel < 3)
  | .cpy rc rdst rsrc rlen tags => isX rc && isX rdst && isX rsrc && isX rlen && decide (tags < 2)
  | .cpys rc rdst rsrc rshape tags => isX rc && isX rdst && isX rsrc && isX rshape && decide (rshape < 26) && rshape % 2 == 0 && decide (tags < 2)
  | .cpyw rd rs1 => isX rd && isX rs1
  | .cstat rd => isX rd
  | .mpush rd rdst rsrc rlen kind => isX rd && isX rdst && isX rsrc && isX rlen && decide (kind < 3)
  | .mgath rd rs1 => isX rd && isX rs1
  | .mpool rd rs1 af => isX rd && isX rs1 && decide (af < 2)
  | .spawn rd rs1 rs2 => isX rd && isX rs1 && isX rs2
  | .susp rd rs1 rs2 => isX rd && isX rs1 && isX rs2
  | .yield => true
  | .done rs1 => isX rs1
  | .msend rs1 rs2 => isReg rs1 && isReg rs2
  | .msendc rs1 => isReg rs1
  | .mwait rd rs1 rs2 => isX rd && isReg rs1 && isReg rs2
  | .mpeek rd rs1 => isX rd && isReg rs1
  | .trap rs1 imm => isX rs1 && decide (imm < 4096)
  | .bkpt => true
  | .gets rd sreg => isReg rd && decide (sreg < 22)
  | .sets rs1 sreg => isReg rs1 && decide (sreg < 22)
  | .time rd => isReg rd
  | .halt => true
  | .illop word => decide (word < 4294967296)
  | .coldReset => true
  | .bootctlWrite => true
  | .deviceReady => true
  | .thermalTrip => true
  | .coolantWarning => true
  | .inputUndervoltage => true
  | .throttleRaise => true
  | .throttleLower => true
  | .gatingSequence => true
  | .unitMarkedGated => true
  | .wakeRequest => true
  | .syncLoss => true
  | .syncRegained => true
  | .cxlServiceLoss => true
  | .cxlServiceRestore => true
  | .hdmDecoderCommit => true
  | .hostSnoop => true
  | .snoopEngineTimeout => true
  | .hostHbmWrite => true
  | .hostHbmRead => true
  | .birspReceive => true
  | .atsInvalidate => true
  | .atsDeny => true
  | .pageRequestWord => true
  | .pageGroupResponse => true
  | .tbaseLatchingRead => true
  | .kick => true
  | .resume => true
  | .queueEnable => true
  | .queueDisable => true
  | .poolWindowEnable => true
  | .poolWindowDisable => true
  | .mailboxErase => true
  | .mailboxWrite => true
  | .mailboxCommit => true
  | .flashCommandDone => true
  | .registerWrite => true
  | .getstat => true
  | .readlog => true
  | .portstat => true
  | .mapread => true
  | .flash => true
  | .reset => true
  | .seqsync => true
  | .evack => true
  | .eventResend => true
  | .getVersion => true
  | .getCapabilities => true
  | .negotiateAlgorithms => true
  | .getkey => true
  | .getreport => true
  | .flitReceive => true
  | .nakLimitRetrain => true
  | .ackTimeout => true
  | .retrainComplete => true
  | .portDown => true
  | .portRetry => true
  | .farRd => true
  | .farWr => true
  | .amo => true
  | .push => true
  | .msg => true
  | .rsp => true
  | .parked => true
  | .wake => true
  | .bar => true
  | .sync => true
  | .syncSend => true
  | .forwardTransaction => true
  | .farRequestTimeout => true
  | .ownerSilence => true
  | .acceptedTransfer => true
  | .returnTransfer => true
  | .scrubComplete => true
  | .packetFetch => true
  | .packetReread => true
  | .nop => true
  | .launch => true
  | .waitAll => true
  | .waitAny => true
  | .waitPass => true
  | .waitTimeout => true
  | .signal => true
  | .copy => true
  | .seal => true
  | .unseal => true
  | .sealExtentChange => true
  | .own => true
  | .fencePacket => true
  | .packetComplete => true
  | .queueMadeResident => true
  | .queueEviction => true
  | .placementPass => true
  | .flightEnd => true
  | .yieldDeadline => true
  | .gangSwitch => true
  | .gangSaved => true
  | .slotDraw => true
  | .steal => true
  | .taskStart => true
  | .instarResume => true
  | .messageWordArrive => true
  | .reply => true
  | .combiningDrain => true
  | .storeArrive => true
  | .storeVisible => true
  | .farResponse => true
  | .leaseEnd => true
  | .translationEnd => true
  | .copyLeaseRenewal => true
  | .refreshWindowEnd => true
  | .dirtyLogMerge => true
  | .harvestRecall => true
  | .stallWatchdog => true
  | .engineCommandComplete => true
  | .matrixCommandStart => true
  | .matrixCommandComplete => true
  | .mwaitTimeout => true
  | .violatingRead => true
  | .configSpaceWrite => true
  | .cxlLinkRetrain => true
  | .softError => true
  | .powerLoss => true
  | .splitChangeComplete => true
  | .accessAtPointOfSerialisation => true
  | .ownershipOperationAtHome => true
  | .instructionFetchFailure => true

end Sys2Proof
end

