-- ==== Sys2Proof/Decode.lean ====
section
/-! DEFINITION. From instruction words to instructions and back (R285 to R288): one decoder, total on any number, and an encoder written from the same formats. -/

namespace Sys2Proof

/-- Why a word is no instruction (R289). -/
inductive Reject where
  | lowBits      -- bits [1:0] are not 0b11, or the word is wider than 32 bits
  | major        -- a reserved major opcode
  | function     -- a function code that R288 does not list
  | zeroField    -- a field that must be zero is not
  | operand      -- a register or operand field that names nothing allowed
  deriving DecidableEq, Repr

/-! The fields of the formats, bit positions as R285 draws them. -/

def fRd (w : Nat) : Nat := w / 128 % 32
def fF3 (w : Nat) : Nat := w / 4096 % 8
def fRs1 (w : Nat) : Nat := w / 32768 % 32
def fRs2 (w : Nat) : Nat := w / 1048576 % 32
def fF7 (w : Nat) : Nat := w / 33554432 % 128
def fImm (w : Nat) : Nat := w / 1048576 % 4096
def fUpper (w : Nat) : Nat := w / 4096 % 1048576

/-- A B offset in instructions, from bits 31, 7, [30:25] and [11:9] (R285, R286). -/
def bOffset (f7 rd : Nat) : Nat := ((f7 / 64 * 2 + rd % 2) * 64 + f7 % 64) * 8 + rd / 4

/-- A J offset in instructions, from bits 31, [19:12], 20 and [30:22] (R285, R286). -/
def jOffset (u : Nat) : Nat := ((u / 524288 * 256 + u % 256) * 2 + u / 256 % 2) * 512 + u / 1024 % 512

/-- Assemble format A; the other formats are its refinements. -/
def fmtA (op f3 f7 rd rs1 rs2 : Nat) : Nat :=
  op + 128 * rd + 4096 * f3 + 32768 * rs1 + 1048576 * rs2 + 33554432 * f7

def fmtI (op f3 rd rs1 imm : Nat) : Nat := fmtA op f3 (imm / 32) rd rs1 (imm % 32)
def fmtS (op f3 rs1 rs2 imm : Nat) : Nat := fmtA op f3 (imm / 32) (imm % 32) rs1 rs2
def fmtB (op f3 rs1 rs2 off : Nat) : Nat :=
  fmtA op f3 (off / 1024 * 64 + off / 8 % 64) (off % 8 * 4 + off / 512 % 2) rs1 rs2
def fmtU (op rd imm : Nat) : Nat := op + 128 * rd + 4096 * imm
def fmtJ (op rd off : Nat) : Nat :=
  fmtU op rd (off / 262144 * 524288 + off % 512 * 1024 + off / 512 % 2 * 256 + off / 1024 % 256)
def fmtV (op f6 vd va vb me mk : Nat) : Nat := fmtA op mk (f6 * 2 + me) vd va vb
def fmtM (f4 sla slb ac reg : Nat) : Nat :=
  0x53 + 128 * reg + 8192 * ac + 65536 * slb + 4194304 * sla + 268435456 * f4
def fmtX (op f3 f2 rd rs1 rs2 rs3 : Nat) : Nat := fmtA op f3 (rs3 * 4 + f2) rd rs1 rs2

/-- LOADL. -/
def decodeLoadL (w : Nat) : Except Reject Instr :=
  match fF3 w with
  | 0 => .ok (.lb (fRd w) (fRs1 w) (fImm w))
  | 1 => .ok (.lh (fRd w) (fRs1 w) (fImm w))
  | 2 => .ok (.lw (fRd w) (fRs1 w) (fImm w))
  | 3 => .ok (.ld (fRd w) (fRs1 w) (fImm w))
  | 4 => .ok (.lbu (fRd w) (fRs1 w) (fImm w))
  | 5 => .ok (.lhu (fRd w) (fRs1 w) (fImm w))
  | 6 => .ok (.lwu (fRd w) (fRs1 w) (fImm w))
  | _ => .error .function

/-- LOADF. -/
def decodeLoadF (w : Nat) : Except Reject Instr :=
  match fF3 w with
  | 0 => .ok (.fldB (fRd w) (fRs1 w) (fImm w))
  | 1 => .ok (.fldH (fRd w) (fRs1 w) (fImm w))
  | 2 => .ok (.fldW (fRd w) (fRs1 w) (fImm w))
  | 3 => .ok (.fldD (fRd w) (fRs1 w) (fImm w))
  | 4 => .ok (.fldQ (fRd w) (fRs1 w) (fImm w))
  | 5 => if fF7 w / 8 = 0 then .ok (.fldP (fF7 w) (fRd w) (fRs1 w) (fRs2 w)) else .error .zeroField
  | 6 => if fRd w = 0 then .ok (.fpf (fRs1 w) (fImm w)) else .error .zeroField
  | _ => .error .function

/-- VMEM. -/
def decodeVmem (w : Nat) : Except Reject Instr :=
  match fF7 w / 2 with
  | 0 => if fRs2 w = 0 then .ok (.vld (fRd w) (fRs1 w) (fF7 w % 2) (fF3 w)) else .error .zeroField
  | 1 => if fRs2 w = 0 then .ok (.vst (fRd w) (fRs1 w) (fF7 w % 2) (fF3 w)) else .error .zeroField
  | 2 => .ok (.vlds (fRd w) (fRs1 w) (fRs2 w) (fF7 w % 2) (fF3 w))
  | 3 => .ok (.vsts (fRd w) (fRs1 w) (fRs2 w) (fF7 w % 2) (fF3 w))
  | 4 => .ok (.vldx (fRd w) (fRs1 w) (fRs2 w) (fF7 w % 2) (fF3 w))
  | 5 => .ok (.vstx (fRd w) (fRs1 w) (fRs2 w) (fF7 w % 2) (fF3 w))
  | _ => .error .function

/-- FENCE and BAR: imm[11:5] and rd are zero, imm[4:2] is the scope and imm[1:0] the ordering. -/
def decodeFence (w : Nat) : Except Reject Instr :=
  if fF7 w = 0 ∧ fRd w = 0 then
    match fF3 w, fRs2 w % 4 with
    | 0, 1 => if fRs1 w = 0 then .ok (.fenceAcq (fRs2 w / 4)) else .error .zeroField
    | 0, 2 => if fRs1 w = 0 then .ok (.fenceRel (fRs2 w / 4)) else .error .zeroField
    | 0, 3 => if fRs1 w = 0 then .ok (.fenceAr (fRs2 w / 4)) else .error .zeroField
    | 1, 0 => .ok (.barInstruction (fRs2 w / 4) (fRs1 w))
    | _, _ => .error .function
  else .error .zeroField

/-- OPIMM. -/
def decodeOpImm (w : Nat) : Except Reject Instr :=
  match fF3 w with
  | 0 => .ok (.addi (fRd w) (fRs1 w) (fImm w))
  | 2 => .ok (.slti (fRd w) (fRs1 w) (fImm w))
  | 3 => .ok (.sltiu (fRd w) (fRs1 w) (fImm w))
  | 4 => .ok (.xori (fRd w) (fRs1 w) (fImm w))
  | 6 => .ok (.ori (fRd w) (fRs1 w) (fImm w))
  | 7 => .ok (.andi (fRd w) (fRs1 w) (fImm w))
  | 1 => if fImm w / 64 = 0 then .ok (.slli (fRd w) (fRs1 w) (fImm w)) else .error .function
  | 5 => if fImm w / 64 = 0 then .ok (.srli (fRd w) (fRs1 w) (fImm w))
    else if fImm w / 64 = 16 then .ok (.srai (fRd w) (fRs1 w) (fImm w % 64)) else .error .function
  | _ => .error .function

/-- CELL. -/
def decodeCell (w : Nat) : Except Reject Instr :=
  if fF7 w = 0 then
    match fF3 w with
    | 0 => .ok (.cmk (fRd w) (fRs1 w) (fRs2 w))
    | 1 => .ok (.cempty (fRd w) (fRs1 w) (fRs2 w))
    | 2 => .ok (.cfill (fRd w) (fRs1 w) (fRs2 w))
    | 3 => .ok (.ctag (fRd w) (fRs1 w) (fRs2 w))
    | 4 => .ok (.crevert (fRd w) (fRs1 w) (fRs2 w))
    | _ => .error .function
  else .error .zeroField

/-- FMT: imm[7:0] is the prefix byte, every other field zero (R313). -/
def decodeFmt (w : Nat) : Except Reject Instr :=
  if fF3 w ≠ 0 then .error .function
  else if fImm w / 256 = 0 ∧ fRs1 w = 0 ∧ fRd w = 0 then .ok (.fmt (fImm w)) else .error .zeroField

/-- STOREL. -/
def decodeStoreL (w : Nat) : Except Reject Instr :=
  match fF3 w with
  | 0 => .ok (.sb (fRs2 w) (fRs1 w) (fF7 w * 32 + fRd w))
  | 1 => .ok (.sh (fRs2 w) (fRs1 w) (fF7 w * 32 + fRd w))
  | 2 => .ok (.sw (fRs2 w) (fRs1 w) (fF7 w * 32 + fRd w))
  | 3 => .ok (.sd (fRs2 w) (fRs1 w) (fF7 w * 32 + fRd w))
  | _ => .error .function

/-- STOREF. -/
def decodeStoreF (w : Nat) : Except Reject Instr :=
  match fF3 w with
  | 0 => .ok (.fstB (fRs2 w) (fRs1 w) (fF7 w * 32 + fRd w))
  | 1 => .ok (.fstH (fRs2 w) (fRs1 w) (fF7 w * 32 + fRd w))
  | 2 => .ok (.fstW (fRs2 w) (fRs1 w) (fF7 w * 32 + fRd w))
  | 3 => .ok (.fstD (fRs2 w) (fRs1 w) (fF7 w * 32 + fRd w))
  | 4 => .ok (.fstQ (fRs2 w) (fRs1 w) (fF7 w * 32 + fRd w))
  | 5 => if fF7 w / 8 = 0 then .ok (.fstP (fF7 w) (fRs2 w) (fRs1 w) (fRd w)) else .error .zeroField
  | _ => .error .function

/-- AMO. -/
def decodeAmo (w : Nat) : Except Reject Instr :=
  match fF7 w / 8 with
  | 0 => .ok (.amoadd (fRd w) (fRs1 w) (fRs2 w) (fF7 w / 2 % 4) (fF7 w % 2) (fF3 w))
  | 1 => .ok (.amoswap (fRd w) (fRs1 w) (fRs2 w) (fF7 w / 2 % 4) (fF7 w % 2) (fF3 w))
  | 2 => .ok (.amocas (fRd w) (fRs1 w) (fRs2 w) (fF7 w / 2 % 4) (fF7 w % 2) (fF3 w))
  | 3 => .ok (.amomin (fRd w) (fRs1 w) (fRs2 w) (fF7 w / 2 % 4) (fF7 w % 2) (fF3 w))
  | 4 => .ok (.amomax (fRd w) (fRs1 w) (fRs2 w) (fF7 w / 2 % 4) (fF7 w % 2) (fF3 w))
  | 5 => .ok (.amominu (fRd w) (fRs1 w) (fRs2 w) (fF7 w / 2 % 4) (fF7 w % 2) (fF3 w))
  | 6 => .ok (.amomaxu (fRd w) (fRs1 w) (fRs2 w) (fF7 w / 2 % 4) (fF7 w % 2) (fF3 w))
  | 7 => .ok (.amoand (fRd w) (fRs1 w) (fRs2 w) (fF7 w / 2 % 4) (fF7 w % 2) (fF3 w))
  | 8 => .ok (.amoor (fRd w) (fRs1 w) (fRs2 w) (fF7 w / 2 % 4) (fF7 w % 2) (fF3 w))
  | 9 => .ok (.amoxor (fRd w) (fRs1 w) (fRs2 w) (fF7 w / 2 % 4) (fF7 w % 2) (fF3 w))
  | 10 => .ok (.amofadd (fRd w) (fRs1 w) (fRs2 w) (fF7 w / 2 % 4) (fF7 w % 2) (fF3 w))
  | _ => .error .function

/-- MSG. -/
def decodeMsg (w : Nat) : Except Reject Instr :=
  if fF7 w = 0 then
    match fF3 w with
    | 0 => if fRd w = 0 then .ok (.msend (fRs1 w) (fRs2 w)) else .error .zeroField
    | 1 => if fRd w = 0 ∧ fRs2 w = 0 then .ok (.msendc (fRs1 w)) else .error .zeroField
    | 2 => .ok (.mwait (fRd w) (fRs1 w) (fRs2 w))
    | 3 => if fRs2 w = 0 then .ok (.mpeek (fRd w) (fRs1 w)) else .error .zeroField
    | _ => .error .function
  else .error .zeroField

/-- The unary forms, selected by the rs2 field (R320). -/
def decodeUnary (w : Nat) : Except Reject Instr :=
  match fRs2 w with
  | 0 => .ok (.clz (fRd w) (fRs1 w))
  | 1 => .ok (.ctz (fRd w) (fRs1 w))
  | 2 => .ok (.popc (fRd w) (fRs1 w))
  | 3 => .ok (.sextw (fRd w) (fRs1 w))
  | 4 => .ok (.zextw (fRd w) (fRs1 w))
  | _ => .error .function

/-- OP. -/
def decodeOp (w : Nat) : Except Reject Instr :=
  match fF7 w, fF3 w with
  | 0, 0 => .ok (.add (fRd w) (fRs1 w) (fRs2 w))
  | 0, 1 => .ok (.sll (fRd w) (fRs1 w) (fRs2 w))
  | 0, 2 => .ok (.slt (fRd w) (fRs1 w) (fRs2 w))
  | 0, 3 => .ok (.sltu (fRd w) (fRs1 w) (fRs2 w))
  | 0, 4 => .ok (.xor (fRd w) (fRs1 w) (fRs2 w))
  | 0, 5 => .ok (.srl (fRd w) (fRs1 w) (fRs2 w))
  | 0, 6 => .ok (.or (fRd w) (fRs1 w) (fRs2 w))
  | 0, 7 => .ok (.and (fRd w) (fRs1 w) (fRs2 w))
  | 32, 0 => .ok (.sub (fRd w) (fRs1 w) (fRs2 w))
  | 32, 5 => .ok (.sra (fRd w) (fRs1 w) (fRs2 w))
  | 1, 0 => .ok (.mul (fRd w) (fRs1 w) (fRs2 w))
  | 1, 1 => .ok (.mulh (fRd w) (fRs1 w) (fRs2 w))
  | 1, 3 => .ok (.mulhu (fRd w) (fRs1 w) (fRs2 w))
  | 1, 4 => .ok (.div (fRd w) (fRs1 w) (fRs2 w))
  | 1, 5 => .ok (.divu (fRd w) (fRs1 w) (fRs2 w))
  | 1, 6 => .ok (.rem (fRd w) (fRs1 w) (fRs2 w))
  | 1, 7 => .ok (.remu (fRd w) (fRs1 w) (fRs2 w))
  | 5, 4 => .ok (.min (fRd w) (fRs1 w) (fRs2 w))
  | 5, 5 => .ok (.minu (fRd w) (fRs1 w) (fRs2 w))
  | 5, 6 => .ok (.max (fRd w) (fRs1 w) (fRs2 w))
  | 5, 7 => .ok (.maxu (fRd w) (fRs1 w) (fRs2 w))
  | 48, 1 => .ok (.rotl (fRd w) (fRs1 w) (fRs2 w))
  | 48, 5 => .ok (.rotr (fRd w) (fRs1 w) (fRs2 w))
  | 49, 0 => decodeUnary w
  | _, _ => .error .function

/-- OWN (R406). -/
def decodeOwn (w : Nat) : Except Reject Instr :=
  if fF7 w % 4 = 0 then
    match fF3 w with
    | 0 => .ok (.give (fRd w) (fRs1 w) (fRs2 w) (fF7 w / 4))
    | 1 => if fRs2 w = 0 ∧ fF7 w / 4 = 0 then .ok (.accept (fRd w) (fRs1 w)) else .error .zeroField
    | 2 => .ok (.lend (fRd w) (fRs1 w) (fRs2 w) (fF7 w / 4))
    | 3 => if fRs2 w = 0 ∧ fF7 w / 4 = 0 then .ok (.returnLoan (fRd w) (fRs1 w)) else .error .zeroField
    | 4 => if fRs2 w = 0 ∧ fF7 w / 4 = 0 then .ok (.reclaim (fRd w) (fRs1 w)) else .error .zeroField
    | 5 => .ok (.ownq (fRd w) (fRs1 w) (fRs2 w) (fF7 w / 4))
    | 6 => if fRs2 w = 0 ∧ fF7 w / 4 = 0 then .ok (.salvage (fRd w) (fRs1 w)) else .error .zeroField
    | 7 => if fRs1 w = 0 ∧ fRs2 w = 0 ∧ fF7 w / 4 = 0 then .ok (.pulse (fRd w)) else .error .zeroField
    | _ => .error .function
  else .error .zeroField

/-- TASK (R397). -/
def decodeTask (w : Nat) : Except Reject Instr :=
  if fF7 w = 0 then
    match fF3 w with
    | 0 => .ok (.spawn (fRd w) (fRs1 w) (fRs2 w))
    | 1 => .ok (.susp (fRd w) (fRs1 w) (fRs2 w))
    | 2 => if fRd w = 0 ∧ fRs1 w = 0 ∧ fRs2 w = 0 then .ok (.yield) else .error .zeroField
    | 3 => if fRd w = 0 ∧ fRs2 w = 0 then .ok (.done (fRs1 w)) else .error .zeroField
    | _ => .error .function
  else .error .zeroField

/-- FPS (R325). -/
def decodeFps (w : Nat) : Except Reject Instr :=
  match fF7 w / 4 with
  | 0 => .ok (.fadd (fF7 w % 4) (fRd w) (fRs1 w) (fRs2 w) (fF3 w))
  | 1 => .ok (.fsub (fF7 w % 4) (fRd w) (fRs1 w) (fRs2 w) (fF3 w))
  | 2 => .ok (.fmul (fF7 w % 4) (fRd w) (fRs1 w) (fRs2 w) (fF3 w))
  | 3 => .ok (.fdiv (fF7 w % 4) (fRd w) (fRs1 w) (fRs2 w) (fF3 w))
  | 4 => if fRs2 w = 0 then .ok (.fsqrt (fF7 w % 4) (fRd w) (fRs1 w) (fF3 w)) else .error .zeroField
  | 5 => .ok (.fmadd (fF7 w % 4) (fRd w) (fRs1 w) (fRs2 w) (fF3 w))
  | 6 => if fF3 w = 0 then .ok (.fmin (fF7 w % 4) (fRd w) (fRs1 w) (fRs2 w)) else .error .zeroField
  | 7 => if fF3 w = 0 then .ok (.fmax (fF7 w % 4) (fRd w) (fRs1 w) (fRs2 w)) else .error .zeroField
  | 8 => .ok (.fcmp (fF7 w % 4) (fRd w) (fRs1 w) (fRs2 w) (fF3 w))
  | 9 => .ok (.fcvt (fF7 w % 4) (fRd w) (fRs1 w) (fRs2 w) (fF3 w))
  | 10 => if fF3 w = 0 ∧ fRs2 w = 0 then .ok (.fclass (fF7 w % 4) (fRd w) (fRs1 w)) else .error .zeroField
  | _ => .error .function

/-- VARITH (R367). -/
def decodeVarith (w : Nat) : Except Reject Instr :=
  match fF7 w / 2 with
  | 0 => .ok (.vand (fRd w) (fRs1 w) (fRs2 w) (fF7 w % 2) (fF3 w))
  | 1 => .ok (.vor (fRd w) (fRs1 w) (fRs2 w) (fF7 w % 2) (fF3 w))
  | 2 => .ok (.vxor (fRd w) (fRs1 w) (fRs2 w) (fF7 w % 2) (fF3 w))
  | 3 => .ok (.vsll (fRd w) (fRs1 w) (fRs2 w) (fF7 w % 2) (fF3 w))
  | 4 => .ok (.vsrl (fRd w) (fRs1 w) (fRs2 w) (fF7 w % 2) (fF3 w))
  | 5 => .ok (.vsra (fRd w) (fRs1 w) (fRs2 w) (fF7 w % 2) (fF3 w))
  | 6 => .ok (.vsel (fRd w) (fRs1 w) (fRs2 w) (fF7 w % 2) (fF3 w))
  | 7 => .ok (.vshuf (fRd w) (fRs1 w) (fRs2 w) (fF7 w % 2) (fF3 w))
  | 8 => .ok (.vslide (fRd w) (fRs1 w) (fRs2 w) (fF7 w % 2) (fF3 w))
  | 9 => if fRs2 w = 0 then .ok (.vbcast (fRd w) (fRs1 w) (fF7 w % 2) (fF3 w)) else .error .zeroField
  | 10 => if fF7 w % 2 = 0 ∧ fF3 w = 0 then .ok (.vext (fRd w) (fRs1 w) (fRs2 w)) else .error .zeroField
  | 11 => if fF7 w % 2 = 0 ∧ fF3 w = 0 then .ok (.vins (fRd w) (fRs1 w) (fRs2 w)) else .error .zeroField
  | 12 => .ok (.vcvt (fRd w) (fRs1 w) (fRs2 w % 8) (fRs2 w / 8) (fF7 w % 2) (fF3 w))
  | _ => .error .function

/-- VFP (R362). -/
def decodeVfp (w : Nat) : Except Reject Instr :=
  match fF7 w / 2 with
  | 0 => .ok (.vadd (fRd w) (fRs1 w) (fRs2 w) (fF7 w % 2) (fF3 w))
  | 1 => .ok (.vsub (fRd w) (fRs1 w) (fRs2 w) (fF7 w % 2) (fF3 w))
  | 2 => .ok (.vmul (fRd w) (fRs1 w) (fRs2 w) (fF7 w % 2) (fF3 w))
  | 3 => .ok (.vmadd (fRd w) (fRs1 w) (fRs2 w) (fF7 w % 2) (fF3 w))
  | 4 => .ok (.vnmsub (fRd w) (fRs1 w) (fRs2 w) (fF7 w % 2) (fF3 w))
  | 5 => .ok (.vmin (fRd w) (fRs1 w) (fRs2 w) (fF7 w % 2) (fF3 w))
  | 6 => .ok (.vmax (fRd w) (fRs1 w) (fRs2 w) (fF7 w % 2) (fF3 w))
  | 7 => if fRs2 w = 0 then .ok (.vabs (fRd w) (fRs1 w) (fF7 w % 2) (fF3 w)) else .error .zeroField
  | 8 => .ok (.vdiv (fRd w) (fRs1 w) (fRs2 w) (fF7 w % 2) (fF3 w))
  | 9 => if fRs2 w = 0 then .ok (.vsqrt (fRd w) (fRs1 w) (fF7 w % 2) (fF3 w)) else .error .zeroField
  | 10 => if fRs2 w = 0 then .ok (.vexp2 (fRd w) (fRs1 w) (fF7 w % 2) (fF3 w)) else .error .zeroField
  | 11 => if fRs2 w = 0 then .ok (.vrcp (fRd w) (fRs1 w) (fF7 w % 2) (fF3 w)) else .error .zeroField
  | 12 => if fRs2 w = 0 then .ok (.vrsqrt (fRd w) (fRs1 w) (fF7 w % 2) (fF3 w)) else .error .zeroField
  | 16 => .ok (.vcmpEq (fRd w) (fRs1 w) (fRs2 w) (fF7 w % 2) (fF3 w))
  | 17 => .ok (.vcmpNe (fRd w) (fRs1 w) (fRs2 w) (fF7 w % 2) (fF3 w))
  | 18 => .ok (.vcmpLt (fRd w) (fRs1 w) (fRs2 w) (fF7 w % 2) (fF3 w))
  | 19 => .ok (.vcmpLe (fRd w) (fRs1 w) (fRs2 w) (fF7 w % 2) (fF3 w))
  | 20 => .ok (.vcmpGt (fRd w) (fRs1 w) (fRs2 w) (fF7 w % 2) (fF3 w))
  | 21 => .ok (.vcmpGe (fRd w) (fRs1 w) (fRs2 w) (fF7 w % 2) (fF3 w))
  | 24 => if fRs2 w = 0 then .ok (.vredSum (fRd w) (fRs1 w) (fF7 w % 2) (fF3 w)) else .error .zeroField
  | 25 => if fRs2 w = 0 then .ok (.vredMax (fRd w) (fRs1 w) (fF7 w % 2) (fF3 w)) else .error .zeroField
  | 26 => if fRs2 w = 0 then .ok (.vredMin (fRd w) (fRs1 w) (fF7 w % 2) (fF3 w)) else .error .zeroField
  | _ => .error .function

/-- BMANY and BMNONE: rs2 and imm[1] are zero (R372). -/
def decodeMaskBranch (w : Nat) (i : Instr) : Except Reject Instr :=
  if fRs2 w = 0 ∧ fRd w / 2 % 2 = 0 then .ok i else .error .zeroField

/-- VMASK (R371, R372). -/
def decodeVmask (w : Nat) : Except Reject Instr :=
  if fF3 w = 6 then decodeMaskBranch w (.bmany (fRs1 w) (bOffset (fF7 w) (fRd w)))
  else if fF3 w = 7 then decodeMaskBranch w (.bmnone (fRs1 w) (bOffset (fF7 w) (fRd w)))
  else match fF3 w, fF7 w with
  | 0, 0 => .ok (.mand (fRd w) (fRs1 w) (fRs2 w))
  | 1, 0 => .ok (.mor (fRd w) (fRs1 w) (fRs2 w))
  | 2, 0 => .ok (.mxor (fRd w) (fRs1 w) (fRs2 w))
  | 3, 0 => .ok (.mnot (fRd w) (fRs1 w) (fRs2 w))
  | 4, 0 => .ok (.mpop (fRd w) (fRs1 w) (fRs2 w))
  | 4, 1 => .ok (.mfirst (fRd w) (fRs1 w) (fRs2 w))
  | 4, 2 => .ok (.mset (fRd w) (fRs1 w) (fRs2 w))
  | 4, 3 => .ok (.mget (fRd w) (fRs1 w) (fRs2 w))
  | _, _ => .error .function

/-! Format M's fields (R285). -/
def mSa (w : Nat) : Nat := w / 4194304 % 64
def mSb (w : Nat) : Nat := w / 65536 % 64
def mAc (w : Nat) : Nat := w / 8192 % 8

/-- MATRIX (R378); bit 12 is zero. -/
def decodeMatrix (w : Nat) : Except Reject Instr :=
  if w / 4096 % 2 = 0 then
    match w / 268435456 % 16 with
    | 0 => if mAc w = 0 then .ok (.mclaim (fRd w) (mSa w) (mSb w)) else .error .zeroField
    | 1 => if mAc w = 0 ∧ fRd w = 0 then .ok (.mrel (mSa w) (mSb w)) else .error .zeroField
    | 2 => if mSb w = 0 ∧ mAc w = 0 then .ok (.mload (mSa w) (fRd w)) else .error .zeroField
    | 3 => if mSb w = 0 ∧ mAc w = 0 then .ok (.mldw (mSa w) (fRd w)) else .error .zeroField
    | 4 => if fRd w = 0 then .ok (.mmul (mAc w) (mSa w) (mSb w)) else .error .zeroField
    | 5 => if mSa w = 0 ∧ mSb w = 0 ∧ fRd w = 0 then .ok (.mzero (mAc w)) else .error .zeroField
    | 6 => if mSa w = 0 ∧ mSb w = 0 then .ok (.mstore (mAc w) (fRd w)) else .error .zeroField
    | 7 => if mSb w = 0 ∧ mAc w = 0 then .ok (.mstat (fRd w) (mSa w)) else .error .zeroField
    | _ => .error .function
  else .error .zeroField

/-- ENGINE (R387). -/
def decodeEngine (w : Nat) : Except Reject Instr :=
  match fF3 w with
  | 0 => if fF7 w / 2 % 2 = 0 then .ok (.cpy (fRd w) (fRs1 w) (fRs2 w) (fF7 w / 4) (fF7 w % 2)) else .error .zeroField
  | 1 => if fF7 w / 2 % 2 = 0 then .ok (.cpys (fRd w) (fRs1 w) (fRs2 w) (fF7 w / 4) (fF7 w % 2)) else .error .zeroField
  | 2 => if fF7 w = 0 ∧ fRs2 w = 0 then .ok (.cpyw (fRd w) (fRs1 w)) else .error .zeroField
  | 3 => if fF7 w = 0 ∧ fRs2 w = 0 ∧ fRs1 w = 0 then .ok (.cstat (fRd w)) else .error .zeroField
  | _ => .error .function

/-- MEMCORE (R392). -/
def decodeMemcore (w : Nat) : Except Reject Instr :=
  match fF3 w with
  | 0 => .ok (.mpush (fRd w) (fRs1 w) (fRs2 w) (fF7 w / 4) (fF7 w % 4))
  | 1 => if fF7 w = 0 ∧ fRs2 w = 0 then .ok (.mgath (fRd w) (fRs1 w)) else .error .zeroField
  | 2 => if fF7 w / 4 = 0 ∧ fRs2 w = 0 then .ok (.mpool (fRd w) (fRs1 w) (fF7 w % 4)) else .error .zeroField
  | _ => .error .function

/-- BRANCH; bit 8, imm[1], is zero (R286). -/
def decodeBranch (w : Nat) : Except Reject Instr :=
  if fRd w / 2 % 2 = 0 then
    match fF3 w with
    | 0 => .ok (.beq (fRs1 w) (fRs2 w) (bOffset (fF7 w) (fRd w)))
    | 1 => .ok (.bne (fRs1 w) (fRs2 w) (bOffset (fF7 w) (fRd w)))
    | 4 => .ok (.blt (fRs1 w) (fRs2 w) (bOffset (fF7 w) (fRd w)))
    | 5 => .ok (.bge (fRs1 w) (fRs2 w) (bOffset (fF7 w) (fRd w)))
    | 6 => .ok (.bltu (fRs1 w) (fRs2 w) (bOffset (fF7 w) (fRd w)))
    | 7 => .ok (.bgeu (fRs1 w) (fRs2 w) (bOffset (fF7 w) (fRd w)))
    | _ => .error .function
  else .error .zeroField

/-- JT, CALLT and RET. -/
def decodeJump (w : Nat) : Except Reject Instr :=
  match fF3 w with
  | 0 => if fRd w = 0 then .ok (.jt (fRs1 w) (fImm w)) else .error .zeroField
  | 1 => .ok (.callt (fRd w) (fRs1 w) (fImm w))
  | 2 => if fRd w = 0 ∧ fRs1 w = 0 ∧ fImm w = 0 then .ok (.ret) else .error .zeroField
  | _ => .error .function

/-- LPAD. -/
def decodeLpad (w : Nat) : Except Reject Instr :=
  if fRd w = 0 then .ok (.lpad (fUpper w)) else .error .zeroField

/-- JAL; bit 21, imm[1], is zero (R286). -/
def decodeJal (w : Nat) : Except Reject Instr :=
  if fUpper w / 512 % 2 = 0 then .ok (.jal (fRd w) (jOffset (fUpper w))) else .error .zeroField

/-- SYSTEM (R408). -/
def decodeSystem (w : Nat) : Except Reject Instr :=
  match fF3 w with
  | 0 => if fRd w = 0 then .ok (.trap (fRs1 w) (fImm w)) else .error .zeroField
  | 1 => if fRd w = 0 ∧ fRs1 w = 0 ∧ fImm w = 0 then .ok (.bkpt) else .error .zeroField
  | 2 => if fRs1 w = 0 then .ok (.gets (fRd w) (fImm w)) else .error .zeroField
  | 3 => if fRd w = 0 then .ok (.sets (fRs1 w) (fImm w)) else .error .zeroField
  | 4 => if fRs1 w = 0 ∧ fImm w = 0 then .ok (.time (fRd w)) else .error .zeroField
  | 5 => if fRd w = 0 ∧ fRs1 w = 0 ∧ fImm w = 0 then .ok (.halt) else .error .zeroField
  | _ => .error .function

/-- The opcode map (R287) and the function codes (R288), before the operand rules. -/
def decodeRaw (w : Nat) : Except Reject Instr :=
  match w % 128 with
  | 0x03 => decodeLoadL w
  | 0x07 => decodeLoadF w
  | 0x0B => decodeVmem w
  | 0x0F => decodeFence w
  | 0x13 => decodeOpImm w
  | 0x17 => .ok (.auipc (fRd w) (fUpper w))
  | 0x1B => decodeCell w
  | 0x1F => decodeFmt w
  | 0x23 => decodeStoreL w
  | 0x27 => decodeStoreF w
  | 0x2B => decodeAmo w
  | 0x2F => decodeMsg w
  | 0x33 => decodeOp w
  | 0x37 => .ok (.lui (fRd w) (fUpper w))
  | 0x3B => decodeOwn w
  | 0x3F => decodeTask w
  | 0x43 => decodeFps w
  | 0x47 => decodeVarith w
  | 0x4B => decodeVfp w
  | 0x4F => decodeVmask w
  | 0x53 => decodeMatrix w
  | 0x57 => decodeEngine w
  | 0x5B => decodeMemcore w
  | 0x63 => decodeBranch w
  | 0x67 => decodeJump w
  | 0x6B => decodeLpad w
  | 0x6F => decodeJal w
  | 0x73 => decodeSystem w
  | op => .error (if op % 4 = 3 then .major else .lowBits)

/-- The decoder: the instruction of a 32-bit word, or why it is none (R289). Which words a kind of core refuses (R290) and a pending prefix (R314) are the fetch's concern. -/
def decode (w : Nat) : Except Reject Instr :=
  if w < 4294967296 then
    match decodeRaw w with
    | .ok i => if i.wf then .ok i else .error .operand
    | .error r => .error r
  else .error .lowBits

/-- The instruction in a run of bytes, lowest address first, and the bytes after it (R285). -/
def decodeBytes : List Byte → Except Reject (Instr × List Byte)
  | b0 :: b1 :: b2 :: b3 :: rest =>
    match decode (b0.toNat + 256 * b1.toNat + 65536 * b2.toNat + 16777216 * b3.toNat) with
    | .ok i => .ok (i, rest)
    | .error r => .error r
  | _ => .error .lowBits

/-- The word of an instruction; 0, which is no instruction, for an event. -/
def encode : Instr → Nat
  | .lb rd rs1 imm => fmtI 0x03 0 rd rs1 imm
  | .lh rd rs1 imm => fmtI 0x03 1 rd rs1 imm
  | .lw rd rs1 imm => fmtI 0x03 2 rd rs1 imm
  | .ld rd rs1 imm => fmtI 0x03 3 rd rs1 imm
  | .lbu rd rs1 imm => fmtI 0x03 4 rd rs1 imm
  | .lhu rd rs1 imm => fmtI 0x03 5 rd rs1 imm
  | .lwu rd rs1 imm => fmtI 0x03 6 rd rs1 imm
  | .fldB rd rs1 imm => fmtI 0x07 0 rd rs1 imm
  | .fldH rd rs1 imm => fmtI 0x07 1 rd rs1 imm
  | .fldW rd rs1 imm => fmtI 0x07 2 rd rs1 imm
  | .fldD rd rs1 imm => fmtI 0x07 3 rd rs1 imm
  | .fldQ rd rs1 imm => fmtI 0x07 4 rd rs1 imm
  | .fldP w rd rs1 rt => fmtA 0x07 5 w rd rs1 rt
  | .fpf rs1 imm => fmtI 0x07 6 0 rs1 imm
  | .vld vd ra me mk => fmtV 0x0B 0 vd ra 0 me mk
  | .vst vd ra me mk => fmtV 0x0B 1 vd ra 0 me mk
  | .vlds vd ra vb me mk => fmtV 0x0B 2 vd ra vb me mk
  | .vsts vd ra vb me mk => fmtV 0x0B 3 vd ra vb me mk
  | .vldx vd ra vb me mk => fmtV 0x0B 4 vd ra vb me mk
  | .vstx vd ra vb me mk => fmtV 0x0B 5 vd ra vb me mk
  | .fenceAcq scope => fmtA 0x0F 0 0 0 0 (scope * 4 + 1)
  | .fenceRel scope => fmtA 0x0F 0 0 0 0 (scope * 4 + 2)
  | .fenceAr scope => fmtA 0x0F 0 0 0 0 (scope * 4 + 3)
  | .barInstruction scope rs1 => fmtA 0x0F 1 0 0 rs1 (scope * 4)
  | .addi rd rs1 imm => fmtI 0x13 0 rd rs1 imm
  | .slti rd rs1 imm => fmtI 0x13 2 rd rs1 imm
  | .sltiu rd rs1 imm => fmtI 0x13 3 rd rs1 imm
  | .xori rd rs1 imm => fmtI 0x13 4 rd rs1 imm
  | .ori rd rs1 imm => fmtI 0x13 6 rd rs1 imm
  | .andi rd rs1 imm => fmtI 0x13 7 rd rs1 imm
  | .slli rd rs1 amt => fmtI 0x13 1 rd rs1 amt
  | .srli rd rs1 amt => fmtI 0x13 5 rd rs1 amt
  | .srai rd rs1 amt => fmtI 0x13 5 rd rs1 (1024 + amt)
  | .auipc rd imm => fmtU 0x17 rd imm
  | .lui rd imm => fmtU 0x37 rd imm
  | .cmk rd rs1 rs2 => fmtA 0x1B 0 0 rd rs1 rs2
  | .cempty rd rs1 rs2 => fmtA 0x1B 1 0 rd rs1 rs2
  | .cfill rd rs1 rs2 => fmtA 0x1B 2 0 rd rs1 rs2
  | .ctag rd rs1 rs2 => fmtA 0x1B 3 0 rd rs1 rs2
  | .crevert rd rs1 rs2 => fmtA 0x1B 4 0 rd rs1 rs2
  | .fmt byte => fmtI 0x1F 0 0 0 byte
  | .sb rs2 rs1 imm => fmtS 0x23 0 rs1 rs2 imm
  | .sh rs2 rs1 imm => fmtS 0x23 1 rs1 rs2 imm
  | .sw rs2 rs1 imm => fmtS 0x23 2 rs1 rs2 imm
  | .sd rs2 rs1 imm => fmtS 0x23 3 rs1 rs2 imm
  | .fstB rs2 rs1 imm => fmtS 0x27 0 rs1 rs2 imm
  | .fstH rs2 rs1 imm => fmtS 0x27 1 rs1 rs2 imm
  | .fstW rs2 rs1 imm => fmtS 0x27 2 rs1 rs2 imm
  | .fstD rs2 rs1 imm => fmtS 0x27 3 rs1 rs2 imm
  | .fstQ rs2 rs1 imm => fmtS 0x27 4 rs1 rs2 imm
  | .fstP w rs2 rs1 rt => fmtA 0x27 5 w rt rs1 rs2
  | .amoadd rd rs1 rs2 ord pf scope => fmtA 0x2B scope (0 + ord * 2 + pf) rd rs1 rs2
  | .amoswap rd rs1 rs2 ord pf scope => fmtA 0x2B scope (8 + ord * 2 + pf) rd rs1 rs2
  | .amocas rd rs1 rs2 ord pf scope => fmtA 0x2B scope (16 + ord * 2 + pf) rd rs1 rs2
  | .amomin rd rs1 rs2 ord pf scope => fmtA 0x2B scope (24 + ord * 2 + pf) rd rs1 rs2
  | .amomax rd rs1 rs2 ord pf scope => fmtA 0x2B scope (32 + ord * 2 + pf) rd rs1 rs2
  | .amominu rd rs1 rs2 ord pf scope => fmtA 0x2B scope (40 + ord * 2 + pf) rd rs1 rs2
  | .amomaxu rd rs1 rs2 ord pf scope => fmtA 0x2B scope (48 + ord * 2 + pf) rd rs1 rs2
  | .amoand rd rs1 rs2 ord pf scope => fmtA 0x2B scope (56 + ord * 2 + pf) rd rs1 rs2
  | .amoor rd rs1 rs2 ord pf scope => fmtA 0x2B scope (64 + ord * 2 + pf) rd rs1 rs2
  | .amoxor rd rs1 rs2 ord pf scope => fmtA 0x2B scope (72 + ord * 2 + pf) rd rs1 rs2
  | .amofadd rd rs1 rs2 ord pf scope => fmtA 0x2B scope (80 + ord * 2 + pf) rd rs1 rs2
  | .msend rs1 rs2 => fmtA 0x2F 0 0 0 rs1 rs2
  | .msendc rs1 => fmtA 0x2F 1 0 0 rs1 0
  | .mwait rd rs1 rs2 => fmtA 0x2F 2 0 rd rs1 rs2
  | .mpeek rd rs1 => fmtA 0x2F 3 0 rd rs1 0
  | .add rd rs1 rs2 => fmtA 0x33 0 0 rd rs1 rs2
  | .sll rd rs1 rs2 => fmtA 0x33 1 0 rd rs1 rs2
  | .slt rd rs1 rs2 => fmtA 0x33 2 0 rd rs1 rs2
  | .sltu rd rs1 rs2 => fmtA 0x33 3 0 rd rs1 rs2
  | .xor rd rs1 rs2 => fmtA 0x33 4 0 rd rs1 rs2
  | .srl rd rs1 rs2 => fmtA 0x33 5 0 rd rs1 rs2
  | .or rd rs1 rs2 => fmtA 0x33 6 0 rd rs1 rs2
  | .and rd rs1 rs2 => fmtA 0x33 7 0 rd rs1 rs2
  | .sub rd rs1 rs2 => fmtA 0x33 0 32 rd rs1 rs2
  | .sra rd rs1 rs2 => fmtA 0x33 5 32 rd rs1 rs2
  | .mul rd rs1 rs2 => fmtA 0x33 0 1 rd rs1 rs2
  | .mulh rd rs1 rs2 => fmtA 0x33 1 1 rd rs1 rs2
  | .mulhu rd rs1 rs2 => fmtA 0x33 3 1 rd rs1 rs2
  | .div rd rs1 rs2 => fmtA 0x33 4 1 rd rs1 rs2
  | .divu rd rs1 rs2 => fmtA 0x33 5 1 rd rs1 rs2
  | .rem rd rs1 rs2 => fmtA 0x33 6 1 rd rs1 rs2
  | .remu rd rs1 rs2 => fmtA 0x33 7 1 rd rs1 rs2
  | .min rd rs1 rs2 => fmtA 0x33 4 5 rd rs1 rs2
  | .minu rd rs1 rs2 => fmtA 0x33 5 5 rd rs1 rs2
  | .max rd rs1 rs2 => fmtA 0x33 6 5 rd rs1 rs2
  | .maxu rd rs1 rs2 => fmtA 0x33 7 5 rd rs1 rs2
  | .rotl rd rs1 rs2 => fmtA 0x33 1 48 rd rs1 rs2
  | .rotr rd rs1 rs2 => fmtA 0x33 5 48 rd rs1 rs2
  | .clz rd rs1 => fmtA 0x33 0 49 rd rs1 0
  | .ctz rd rs1 => fmtA 0x33 0 49 rd rs1 1
  | .popc rd rs1 => fmtA 0x33 0 49 rd rs1 2
  | .sextw rd rs1 => fmtA 0x33 0 49 rd rs1 3
  | .zextw rd rs1 => fmtA 0x33 0 49 rd rs1 4
  | .give rd rs1 rs2 rs3 => fmtX 0x3B 0 0 rd rs1 rs2 rs3
  | .accept rd rs1 => fmtX 0x3B 1 0 rd rs1 0 0
  | .lend rd rs1 rs2 rs3 => fmtX 0x3B 2 0 rd rs1 rs2 rs3
  | .returnLoan rd rs1 => fmtX 0x3B 3 0 rd rs1 0 0
  | .reclaim rd rs1 => fmtX 0x3B 4 0 rd rs1 0 0
  | .ownq rd rs1 rs2 rs3 => fmtX 0x3B 5 0 rd rs1 rs2 rs3
  | .salvage rd rs1 => fmtX 0x3B 6 0 rd rs1 0 0
  | .pulse rd => fmtX 0x3B 7 0 rd 0 0 0
  | .spawn rd rs1 rs2 => fmtA 0x3F 0 0 rd rs1 rs2
  | .susp rd rs1 rs2 => fmtA 0x3F 1 0 rd rs1 rs2
  | .yield => fmtA 0x3F 2 0 0 0 0
  | .done rs1 => fmtA 0x3F 3 0 0 rs1 0
  | .fadd w rd rs1 rs2 rm => fmtA 0x43 rm (0 + w) rd rs1 rs2
  | .fsub w rd rs1 rs2 rm => fmtA 0x43 rm (4 + w) rd rs1 rs2
  | .fmul w rd rs1 rs2 rm => fmtA 0x43 rm (8 + w) rd rs1 rs2
  | .fdiv w rd rs1 rs2 rm => fmtA 0x43 rm (12 + w) rd rs1 rs2
  | .fsqrt w rd rs1 rm => fmtA 0x43 rm (16 + w) rd rs1 0
  | .fmadd w rd rs1 rs2 rm => fmtA 0x43 rm (20 + w) rd rs1 rs2
  | .fmin w rd rs1 rs2 => fmtA 0x43 0 (24 + w) rd rs1 rs2
  | .fmax w rd rs1 rs2 => fmtA 0x43 0 (28 + w) rd rs1 rs2
  | .fcmp w rd rs1 rs2 pred => fmtA 0x43 pred (32 + w) rd rs1 rs2
  | .fcvt w rd rs1 code rm => fmtA 0x43 rm (36 + w) rd rs1 code
  | .fclass w rd rs1 => fmtA 0x43 0 (40 + w) rd rs1 0
  | .vand vd va vb me mk => fmtV 0x47 0 vd va vb me mk
  | .vor vd va vb me mk => fmtV 0x47 1 vd va vb me mk
  | .vxor vd va vb me mk => fmtV 0x47 2 vd va vb me mk
  | .vsll vd va vb me mk => fmtV 0x47 3 vd va vb me mk
  | .vsrl vd va vb me mk => fmtV 0x47 4 vd va vb me mk
  | .vsra vd va vb me mk => fmtV 0x47 5 vd va vb me mk
  | .vsel vd va vb me mk => fmtV 0x47 6 vd va vb me mk
  | .vshuf vd va vb me mk => fmtV 0x47 7 vd va vb me mk
  | .vslide vd va vb me mk => fmtV 0x47 8 vd va vb me mk
  | .vbcast vd rs me mk => fmtV 0x47 9 vd rs 0 me mk
  | .vext rd va lane => fmtV 0x47 10 rd va lane 0 0
  | .vins vd rs lane => fmtV 0x47 11 vd rs lane 0 0
  | .vcvt vd va src part me mk => fmtV 0x47 12 vd va (part * 8 + src) me mk
  | .vadd vd va vb me mk => fmtV 0x4B 0 vd va vb me mk
  | .vsub vd va vb me mk => fmtV 0x4B 1 vd va vb me mk
  | .vmul vd va vb me mk => fmtV 0x4B 2 vd va vb me mk
  | .vmadd vd va vb me mk => fmtV 0x4B 3 vd va vb me mk
  | .vnmsub vd va vb me mk => fmtV 0x4B 4 vd va vb me mk
  | .vmin vd va vb me mk => fmtV 0x4B 5 vd va vb me mk
  | .vmax vd va vb me mk => fmtV 0x4B 6 vd va vb me mk
  | .vabs vd va me mk => fmtV 0x4B 7 vd va 0 me mk
  | .vdiv vd va vb me mk => fmtV 0x4B 8 vd va vb me mk
  | .vsqrt vd va me mk => fmtV 0x4B 9 vd va 0 me mk
  | .vexp2 vd va me mk => fmtV 0x4B 10 vd va 0 me mk
  | .vrcp vd va me mk => fmtV 0x4B 11 vd va 0 me mk
  | .vrsqrt vd va me mk => fmtV 0x4B 12 vd va 0 me mk
  | .vcmpEq md va vb me mk => fmtV 0x4B 16 md va vb me mk
  | .vcmpNe md va vb me mk => fmtV 0x4B 17 md va vb me mk
  | .vcmpLt md va vb me mk => fmtV 0x4B 18 md va vb me mk
  | .vcmpLe md va vb me mk => fmtV 0x4B 19 md va vb me mk
  | .vcmpGt md va vb me mk => fmtV 0x4B 20 md va vb me mk
  | .vcmpGe md va vb me mk => fmtV 0x4B 21 md va vb me mk
  | .vredSum vd va me mk => fmtV 0x4B 24 vd va 0 me mk
  | .vredMax vd va me mk => fmtV 0x4B 25 vd va 0 me mk
  | .vredMin vd va me mk => fmtV 0x4B 26 vd va 0 me mk
  | .mand md ma mb => fmtA 0x4F 0 0 md ma mb
  | .mor md ma mb => fmtA 0x4F 1 0 md ma mb
  | .mxor md ma mb => fmtA 0x4F 2 0 md ma mb
  | .mnot md ma rs2 => fmtA 0x4F 3 0 md ma rs2
  | .mpop rd ma rs2 => fmtA 0x4F 4 0 rd ma rs2
  | .mfirst rd ma rs2 => fmtA 0x4F 4 1 rd ma rs2
  | .mset md rs1 rs2 => fmtA 0x4F 4 2 md rs1 rs2
  | .mget rd ma rs2 => fmtA 0x4F 4 3 rd ma rs2
  | .bmany ma off => fmtB 0x4F 6 ma 0 off
  | .bmnone ma off => fmtB 0x4F 7 ma 0 off
  | .mclaim rd sa cnt => fmtM 0 sa cnt 0 rd
  | .mrel sa cnt => fmtM 1 sa cnt 0 0
  | .mload sa ra => fmtM 2 sa 0 0 ra
  | .mldw sa ra => fmtM 3 sa 0 0 ra
  | .mmul ac sa slb => fmtM 4 sa slb ac 0
  | .mzero ac => fmtM 5 0 0 ac 0
  | .mstore ac ra => fmtM 6 0 0 ac ra
  | .mstat rd sel => fmtM 7 sel 0 0 rd
  | .cpy rc rdst rsrc rlen tags => fmtX 0x57 0 tags rc rdst rsrc rlen
  | .cpys rc rdst rsrc rshape tags => fmtX 0x57 1 tags rc rdst rsrc rshape
  | .cpyw rd rs1 => fmtX 0x57 2 0 rd rs1 0 0
  | .cstat rd => fmtX 0x57 3 0 rd 0 0 0
  | .mpush rd rdst rsrc rlen kind => fmtX 0x5B 0 kind rd rdst rsrc rlen
  | .mgath rd rs1 => fmtX 0x5B 1 0 rd rs1 0 0
  | .mpool rd rs1 af => fmtX 0x5B 2 af rd rs1 0 0
  | .beq rs1 rs2 off => fmtB 0x63 0 rs1 rs2 off
  | .bne rs1 rs2 off => fmtB 0x63 1 rs1 rs2 off
  | .blt rs1 rs2 off => fmtB 0x63 4 rs1 rs2 off
  | .bge rs1 rs2 off => fmtB 0x63 5 rs1 rs2 off
  | .bltu rs1 rs2 off => fmtB 0x63 6 rs1 rs2 off
  | .bgeu rs1 rs2 off => fmtB 0x63 7 rs1 rs2 off
  | .jt rs1 imm => fmtI 0x67 0 0 rs1 imm
  | .callt rd rs1 imm => fmtI 0x67 1 rd rs1 imm
  | .ret => fmtI 0x67 2 0 0 0
  | .lpad label => fmtU 0x6B 0 label
  | .jal rd off => fmtJ 0x6F rd off
  | .trap rs1 imm => fmtI 0x73 0 0 rs1 imm
  | .bkpt => fmtI 0x73 1 0 0 0
  | .gets rd sreg => fmtI 0x73 2 rd 0 sreg
  | .sets rs1 sreg => fmtI 0x73 3 0 rs1 sreg
  | .time rd => fmtI 0x73 4 rd 0 0
  | .halt => fmtI 0x73 5 0 0 0
  | _ => 0

/-- Whether a constructor is an instruction word, and not an event. -/
def Instr.hasWord (i : Instr) : Bool := encode i % 4 == 3

/-- The four bytes of a word, lowest address first. -/
def wordBytes (w : Nat) : List Byte :=
  [BitVec.ofNat 8 w, BitVec.ofNat 8 (w / 256), BitVec.ofNat 8 (w / 65536), BitVec.ofNat 8 (w / 16777216)]

/-- What the decoder reads from a table row's word: every instruction of the table is one 32-bit little-endian word. -/
def decodeTableWord (nbits w : Nat) : Option Instr :=
  if nbits = 32 then
    match decodeBytes (wordBytes w) with
    | .ok (i, _) => some i
    | .error _ => none
  else none

end Sys2Proof
end

