-- ==== Sys2Proof/Machine/Flags.lean ====
section
/-! DEFINITION. STAT: the accrued flags, the default controls and the pending prefix (R282, R308, R313 to R316). -/

namespace Sys2Proof.Machine

namespace State

/-- STAT.PEND. -/
def pend (s : State) : Bool := wbits s.ctx.stat 63 63 == 1

/-- STAT.PFXB. -/
def pfxb (s : State) : Nat := wbits s.ctx.stat 55 48

def setStat (s : State) (v : Word) : State := s.setCtx { s.ctx with stat := v }

/-- OR exceptions into NV, DZ, OF, UF and NX (R308). -/
def orFlags (s : State) (fl : Flags) : State := s.setStat (s.ctx.stat ||| word (fl % 32 * 256))

/-- Clear PEND and PFXB as the qualified instruction issues (R315). -/
def clearPend (s : State) : State := s.setStat (word (wbits s.ctx.stat 12 0))

/-- FMT's effect (R314). -/
def setPend (s : State) (b : Nat) : State := s.setStat (word (2 ^ 63 + b % 256 * 2 ^ 48 + wbits s.ctx.stat 12 0))

/-- The next instruction, after one that a prefix may qualify. -/
def nextQ (s : State) : State := s.clearPend.next

/-- The effective format (R314). -/
def effFmt (s : State) : Nat :=
  if s.pend ∧ s.pfxb % 16 ≠ 15 then s.pfxb % 16 else wbits s.ctx.stat 3 0

/-- The effective rounding mode (R314). -/
def effRnd (s : State) : Nat :=
  if s.pend ∧ s.pfxb / 16 % 8 ≠ 7 then s.pfxb / 16 % 8 else wbits s.ctx.stat 6 4

/-- The effective saturation (R314). -/
def effSat (s : State) : Bool := if s.pend then s.pfxb / 128 % 2 == 1 else wbits s.ctx.stat 7 7 == 1

/-- The rounding mode of a scalar operation: f3, or STAT.DRND for 7 (R324). -/
def scalarRnd (s : State) (rm : Nat) : Nat := if rm = 7 then wbits s.ctx.stat 6 4 else rm

end State

end Sys2Proof.Machine
end

