-- ==== Sys2Proof/Machine/Operands.lean ====
section
/-! DEFINITION. The operand forms of the scalar instructions (R278, R295, R318 to R325): registers and ports as sources and destination. -/

namespace Sys2Proof.Machine

namespace State

/-- One source, one result. -/
def unary (s : State) (rd rs1 : Nat) (f : Word → Word) : State :=
  s.withPorts [rs1] rd fun s =>
    let a := s.take rs1
    (a.2.put rd (f a.1)).next

/-- Two sources read in the order rs1, rs2, one result. -/
def binary (s : State) (rd rs1 rs2 : Nat) (f : Word → Word → Word) : State :=
  s.withPorts [rs1, rs2] rd fun s =>
    let a := s.take rs1
    let b := a.2.take rs2
    (b.2.put rd (f a.1 b.1)).next

/-- No source, one result of the state. -/
def result (s : State) (rd : Nat) (v : State → Word) : State :=
  s.withPorts [] rd fun s => (s.put rd (v s)).next

/-- A branch (R331): off counts words. -/
def branch (s : State) (rs1 rs2 off : Nat) (cond : Word → Word → Bool) : State :=
  s.withPorts [rs1, rs2] 0 fun s =>
    let a := s.take rs1
    let b := a.2.take rs2
    if cond a.1 b.1 then b.2.setPc (b.2.ctx.pc + BitVec.ofNat 57 (sext (word (4 * off)) 13).toNat) else b.2.next

/-- The format of a width code: .s FP32, .d binary64 (R323). -/
def widthFmt (w : Nat) : Fmt := if w = 0 then fp32 else fp64

/-- The operand of a width: a .s operand is the low half of its register. -/
def widthArg (w : Nat) (v : Word) : Nat := if w = 0 then v.toNat % 2 ^ 32 else v.toNat

/-- A floating-point operation with two sources and accrued flags (R324, R325). -/
def fpBinary (s : State) (w rd rs1 rs2 : Nat) (f : Nat → Nat → Nat × Flags) : State :=
  s.withPorts [rs1, rs2] rd fun s =>
    let a := s.take rs1
    let b := a.2.take rs2
    let r := f (widthArg w a.1) (widthArg w b.1)
    ((b.2.orFlags r.2).put rd (word r.1)).next

/-- A floating-point operation with one source, given the whole register. -/
def fpUnary (s : State) (rd rs1 : Nat) (f : Word → Nat × Flags) : State :=
  s.withPorts [rs1] rd fun s =>
    let a := s.take rs1
    let r := f a.1
    ((a.2.orFlags r.2).put rd (word r.1)).next

end State

end Sys2Proof.Machine
end

