-- ==== Sys2Proof/Machine/Fetch.lean ====
section
/-! DEFINITION. Fetching: the code region, execute permission, what a fetch can meet, and which words a core and a pending prefix admit (R289 to R293, R314). -/

namespace Sys2Proof.Machine

/-- What a read of the code region meets (R289). -/
inductive Fetched where
  | word (w : Nat)
  | bound
  | service (v : Service)
  | code (c : Nat)
  | poison
  | shape (t : Nat)
  | later
  deriving DecidableEq, Repr

namespace State

/-- Whether n bytes at an address lie in the code region (R291). -/
def inCode (s : State) (va n : Nat) : Bool := decide (s.core.cbase.toNat ≤ va) && decide (va + n ≤ s.core.cbase.toNat + s.core.clim)

/-- The sector of a Birsar core's first-level cache that a read of code hits (R201, R292), its own or one of its pool: one that was filled with execute permission, since the cache keeps no translations. -/
def codeHit (s : State) (va : Nat) : Option Sector × State :=
  if s.coreNo < 16384 ∧ inWindow va = false then
    match (s.l1Find s.coreNo s.owner va).filter (·.exec) with
    | some e => (some e, s)
    | none => s.l1Pooled s.coreNo s.owner va true
  else (none, s)

/-- Read n bytes of code (R289, R292): through the first-level cache as a far load does, and else translated with execute permission. -/
def readCode (s : State) (va n : Nat) : Fetched × State :=
  if ¬ s.inCode va n then (.bound, s)
  else match s.codeHit va with
    | (some e, s) =>
      let k := e.pa + (va - e.va)
      (if s.poisoned k n then .poison else .word (s.natAt k n), s)
    | (none, s) => match s.locate s.coreNo s.owner va n .exec with
      | (.service v, s) => (.service v, s)
      | (.later, s) => (.later, s)
      | (.code c k, s) => (.code c, s.logCode s.coreNo s.owner va k c)
      | (.at k repl, s) =>
        match s.hostOwns k with
        | some p => (.later, s.askHost p (lineStart k) false)
        | none =>
        if s.poisoned k n then (.poison, s)
        else if s.tagAt k ≠ 0 then (.shape (s.tagAt k).toNat, s)
        else (.word (s.natAt k n), if inWindow va then s else s.fillSector s.coreNo s.owner va k repl true)

/-- How a read of code that gives no word ends (R289): with PC pc, at the address va. -/
def fetchTrap (s : State) (f : Fetched) (va : Nat) (pc : BitVec 57) : State :=
  match f with
  | .word _ => s
  | .bound => s.trapAt 0x02 0 s.core.cbase pc
  | .service v => s.drained fun s => s.blockAt s.owner va v false 0 s.ctx.pc none none
  | .code c => s.trapAt 0x0C (Machine.word va) (Machine.word c) pc
  | .poison => s.trapAt 0x0D (Machine.word va) 0 pc
  | .shape t => s.trapAt 0x09 (Machine.word va) (Machine.word t) pc
  | .later => s.await (.again 0)

/-- The fetch at PC. -/
def fetch (s : State) : Fetched × State := s.readCode s.ctx.pc.toNat 4

end State

/-- The major opcode of a word (R285). -/
def majorOf (w : Nat) : Nat := bits w 6 2

/-- A word that this kind of core has not (R290): VMEM, VARITH, VFP, VMASK, MATRIX and ENGINE on a memory core, MEMCORE on a Birsar core. -/
def absentOn (core w : Nat) : Bool :=
  if isMc core then [0x02, 0x11, 0x12, 0x13, 0x14, 0x15].contains (majorOf w) else majorOf w == 0x16

/-- The majors that a prefix may qualify (R314): VMEM, VARITH, VFP, MATRIX. -/
def qualifiable (w : Nat) : Bool := [0x02, 0x11, 0x12, 0x14].contains (majorOf w)

end Sys2Proof.Machine
end

