-- ==== Sys2Proof/Machine/Memory.lean ====
section
/-! DEFINITION. Local loads and stores (R194, R195, R338 to R340) and far loads, stores and prefetch (R341 to R346). -/

namespace Sys2Proof.Machine

/-! ## Register pages (R170, R172) -/

/-- A PDEST as written: its reserved fields read zero (R176, R280). -/
def pdestOf (v : Word) : Word := word (v.toNat / 2 ^ 32 * 2 ^ 32 + wbits v 17 4 * 16 + wbits v 1 0)

/-- The context registers as they are kept: their reserved bits read zero (R280, R282 to R284, R273), and PFXB too while PEND is 0. -/
def statOf (v : Word) : Word := word (wbits v 63 63 * 2 ^ 63 + wbits v 63 63 * wbits v 55 48 * 2 ^ 48 + wbits v 12 0)
def rtbOf (v : Word) : Word := word (wbits v 20 3 * 8)
def baseOf (v : Word) : Word := word (wbits v 56 0)
def shiftOf (v : Word) : Word := word (wbits v 4 0)
def evcOf (v : Word) : Word := word (wbits v 63 63 * 2 ^ 63 + wbits v 15 0)

/-- What the sixteen return-stack entries of a page hold, lowest first (R170, R332). -/
def Ctx.stack (c : Ctx) : List Word := (c.rstack.reverse ++ c.rdead ++ List.replicate 16 0).take 16

/-- Write word w of a register page; reserved words, the slot of x0 and that of m0 take nothing (R277), and a return-stack entry holds 57 bits (R332). -/
def setPageWord (c : Ctx) (w : Nat) (v : Word) : Ctx :=
  if w < 28 then (if w = 0 then c else { c with x := c.x.setIfInBounds w v })
  else if w < 32 then { c with pdest := c.pdest.setIfInBounds (w - 28) (pdestOf v) }
  else if 256 ≤ w then
    let r := (w - 256) / 8
    let old := (c.v.toList.getD r 0).toNat
    let sh := 2 ^ (64 * (w % 8))
    { c with v := c.v.setIfInBounds r (BitVec.ofNat 512 (old - old / sh % 2 ^ 64 * sh + v.toNat * sh)) }
  else match w with
    | 32 => { c with rtb := rtbOf v }
    | 33 => { c with stat := statOf v }
    | 34 => { c with scla := baseOf v }
    | 35 => { c with sclb := baseOf v }
    | 36 => { c with ela := baseOf v }
    | 37 => { c with elb := baseOf v }
    | 38 => { c with ssha := shiftOf v }
    | 39 => { c with sshb := shiftOf v }
    | 40 => { c with evc := evcOf v }
    | 41 => { c with copyCount := v.toNat }
    | 42 => { c with copyErr := v }
    | 48 =>
      let d := min v.toNat 16
      { c with rstack := (c.stack.take d).reverse, rdead := c.stack.drop d }
    | 66 => { c with m := (List.range 3).foldl (fun m i => m.setIfInBounds (1 + i) (BitVec.ofNat 16 (v.toNat / 2 ^ (16 * (1 + i))))) c.m }
    | 67 => { c with m := (List.range 4).foldl (fun m i => m.setIfInBounds (4 + i) (BitVec.ofNat 16 (v.toNat / 2 ^ (16 * i)))) c.m }
    | _ =>
      if 49 ≤ w ∧ w < 65 then
        let l := c.stack.set (w - 49) (baseOf v)
        let d := c.rstack.length
        { c with rstack := (l.take d).reverse, rdead := l.drop d }
      else c

/-! ## The protection unit (R195) -/

/-- A region of local space. -/
inductive Region where
  | scratch
  | cache
  | faultPage
  | page (slot : Nat)             -- another slot's register page
  | refused                       -- the running slot's page, the spare page, not present
  deriving DecidableEq, Repr

namespace State

/-- The region of a local address of the core in view (R194, R195, R210). -/
def regionOf (s : State) (a : Nat) : Region :=
  if isMc s.coreNo then (if a < 0x40000 then .scratch else .refused)
  else if a < scratchSize s.coreNo s.core then .scratch
  else if a < 0x17A000 then .cache
  else if a < 0x17B000 then .faultPage
  else if a < 0x180000 then
    match (List.range 4).find? (fun k => k != s.running && s.core.pages.toList.getD k 0 == (a - 0x17B000) / 4096) with
    | some k => .page k
    | none => .refused
  else .refused

/-- Whether a SPLIT change under way holds an access (R197): its bank changes portion. -/
def splitHolds (s : State) (a : Nat) : Bool :=
  match s.core.splitChange with
  | some (_, cb, _) =>
    let x := scratchSize s.coreNo s.core
    let y := 98304 * (16 - cb)
    decide (min x y ≤ a) && decide (a < max x y)
  | none => false

/-- A word of local space outside the scratchpad that a load may read: an entry of the fault page, or another slot's register page: its context's registers while it waits, the page's own bytes while the slot is empty, and a free value while the context is ready (R172, log 6). -/
def specialWord (s : State) (a : Nat) : Word :=
  match s.regionOf a with
  | .faultPage =>
    let i := (a - 0x17A000) / 64
    faultWord i ((s.faultPage s.coreNo).getD i FaultEntry.fresh) (a % 64 / 8)
  | .page k =>
    match s.core.slots.toList.getD k (.empty 0) with
    | .busy c => if c.wait = Wait.ready then Config.freeWord s.free else pageWord c (a % 4096 / 8)
    | _ => s.wordAt (sramKey s.coreNo (a / 8 * 8))
  | _ => 0

/-- Write bytes of another slot's register page (R172). -/
def storePage (s : State) (k a n : Nat) (v : Nat) : State :=
  let old := (s.specialWord a).toNat
  let sh := 2 ^ (8 * (a % 8))
  let new := word (old - old / sh % 2 ^ (8 * n) * sh + v % 2 ^ (8 * n) * sh)
  match s.core.slots.toList.getD k (.empty 0) with
  | .busy c =>
    let v := if c.wait = Wait.ready then Config.freeWord s.free else new
    let s := if c.wait = Wait.ready then { s with free := s.free + 1 } else s
    { s with core := { s.core with slots := s.core.slots.setIfInBounds k (.busy (setPageWord c (a % 4096 / 8) v)) } }
  | _ => s.setWord (sramKey s.coreNo (a / 8 * 8)) new

/-- A store performed in local SRAM at issue (R246). -/
def storeLocal (s : State) (k : Nat) (bs : List (Nat × Byte)) : State := (s.setOffsets k bs).unpoison k bs

/-- The checks of R339 on a local access of n bytes, and the waits of R197 and R377; then go on with the address. -/
def localChecked (s : State) (a : Word) (n : Nat) (write : Bool) (k : State → Nat → State) : State :=
  if a.toNat % n ≠ 0 then s.trapAddr 0x05 a (word n)
  else if s.splitHolds a.toNat then s.await (.again 0)
  else if 0x200000 ≤ a.toNat ∨ s.regionOf a.toNat = .cache ∨ s.regionOf a.toNat = .refused then s.trapAddr 0x06 a (word (a.toNat % 0x200000))
  else if s.matHolds s.coreNo a.toNat n write then s.await (.again 0)
  else k s a.toNat

/-- A local load of n bytes (R338 to R340): wide for LD. -/
def localLoad (s : State) (rd rs1 imm n : Nat) (wide : Bool) (ext : Word → Word) : State :=
  s.localChecked (s.rx rs1 + imm12 imm) n false fun s a =>
    if s.regionOf a = .scratch then
      let k := sramKey s.coreNo a
      if s.poisoned k n then s.trapAddr 0x0D (word a) 0
      else if s.tagAt k = 0 ∨ isMc s.coreNo then (s.wx rd (ext (word (s.natAt k n)))).next
      else if wide then
        let acc := s.access (.load 3) (windowVa s.coreNo a) 8 rd 0 0
        s.settleAnswer acc (s.loadAt acc k)
      else s.trapAddr 0x09 (word a) (word (s.tagAt k).toNat)
    else
      let v := s.specialWord a
      let s := match s.regionOf a with
        | .page k => match s.core.slots.toList.getD k (.empty 0) with
          | .busy c => if c.wait = Wait.ready then { s with free := s.free + 1 } else s
          | _ => s
        | _ => s
      (s.wx rd (ext (word (v.toNat / 2 ^ (8 * (a % 8)) % 2 ^ (8 * n))))).next

/-- A local store of n bytes (R338 to R340, R195): in the fault page only an 8-byte store to a REPLY word. -/
def localStore (s : State) (rs2 rs1 imm n : Nat) : State :=
  s.localChecked (s.rx rs1 + imm12 imm) n true fun s a =>
    let v := s.rx rs2
    match s.regionOf a with
    | .scratch =>
      let k := sramKey s.coreNo a
      let bs := offsets (toBytes n v.toNat)
      if isMc s.coreNo then (s.rawWrite s.coreNo s.running k bs).next
      else if s.tagAt k = 0 then (s.storeLocal k bs).next
      else s.trapAddr (if n = 8 then 0x08 else 0x09) (word a) (word (s.tagAt k).toNat)
    | .faultPage =>
      if n = 8 ∧ a % 64 = 56 then (s.replyStore s.coreNo ((a - 0x17A000) / 64) v).next
      else s.trapAddr 0x06 (word a) (word a)
    | .page k => (s.storePage k a n v.toNat).next
    | _ => s.trapAddr 0x06 (word a) (word a)

/-! ## Far loads, stores and prefetch -/

/-- The address of a far access (R341). -/
def farVa (s : State) (rs1 imm : Nat) : Nat := va57 (s.rx rs1 + imm12 imm)

/-- Run on where an address is aligned to the access, else MISALIGN (R341). -/
def aligned (s : State) (va n : Nat) (k : State → State) : State := if va % n ≠ 0 then s.trapAddr 0x05 (word va) (word n) else k s

/-- Run on where the owner holds a scope's grant, else SCOPE with the scope code (R250). -/
def inScope (s : State) (scope : Nat) (k : State → State) : State := if s.hasGrant s.owner scope then k s else s.trap 0x07 (word scope)

/-- A far load of a width code (R342). -/
def farLoad (s : State) (w rd va : Nat) : State := s.aligned va (2 ^ w) fun s => s.issue (s.access (.load w) va (2 ^ w) rd 0 0)

/-- The bytes of a sector in the order in which they were first stored, a later store's replacing earlier ones. -/
def mergeBytes (old add : List (Nat × Byte)) : List (Nat × Byte) :=
  old.map (fun o => (add.find? (fun b => b.1 == o.1)).getD o) ++ add.filter (fun b => !(old.any (fun o => o.1 == b.1)))

/-- A store enters a combining entry of its context, the last that it has open for the sector (R203, R245); where all eight are in use the oldest drains first, and one that needs service stops its context. -/
def enterStore (s : State) (va : Nat) (bs : List Byte) (k : State → State) : State :=
  let sec := sectorStart va
  let add := (List.range bs.length).zip bs |>.map (fun b => (va - sec + b.1, b.2))
  let pairs := if bs.length = 16 then add.map (fun b => (b.1, va - sec)) else []
  let own (e : Combine) : Bool := e.slot == s.running && e.va == sec && e.owner == s.owner
  let fresh (s : State) : State :=
    let e : Combine := { slot := s.running, va := sec, bytes := add, opened := s.cycle, owner := s.owner, first := va, pairs := pairs }
    k { s with core := { s.core with combining := s.core.combining ++ [e] } }
  let s := s.dropSector s.coreNo s.owner va
  match ((List.range s.core.combining.length).filter (fun n => (s.core.combining[n]?).any own)).getLast? with
  | some n =>
    let grow (e : Combine) : Combine := { e with bytes := mergeBytes e.bytes add, pairs := e.pairs.filter (fun p => !(add.any (fun b => b.1 == p.1))) ++ pairs }
    k { s with core := { s.core with combining := s.core.combining.modify n grow } }
  | none => match s.core.combining with
    | e :: _ =>
      if s.core.combining.length < 8 then fresh s
      else match s.drainEntry s.coreNo e with
        | (.ok _, s) => fresh (s.dropEntry (some e))
        | (.error v, s) =>
          if e.slot = s.running then s.blockAt e.owner e.va v true 0 s.ctx.pc (some (s.drainAccess e)) (some e)
          else (s.blockOther e v).await (.again 0)
    | [] => fresh s

/-- The bytes that a far store writes: of rs2, or of the pair (R343). -/
def storeBytes (s : State) (w rs2 : Nat) : List Byte :=
  if w = 4 then toBytes 8 (s.rx rs2).toNat ++ toBytes 8 (s.rx (rs2 + 1)).toNat else toBytes (2 ^ w) (s.rx rs2).toNat

/-- A far store of a width code (R343). -/
def farStore (s : State) (w rs2 va : Nat) : State := s.aligned va (2 ^ w) fun s => s.enterStore va (s.storeBytes w rs2) next

/-- The package and the owner that a target word names (R345). -/
def targetPkg (t : Word) : Nat := wbits t 60 48
def targetOwner (s : State) (t : Word) : Nat := if wbits t 15 0 = 0 then s.owner else wbits t 15 0

/-- FLD.P (R345). -/
def loadP (s : State) (w rd rs1 rt : Nat) : State :=
  let va := va57 (s.rx rs1)
  let t := s.rx rt
  s.inScope 5 fun s => s.aligned va (2 ^ w) fun s =>
    if targetPkg t = s.pkgNum then
      if s.targetOwner t = s.owner then s.farLoad w rd va
      else (s.logTo s.coreNo (s.targetOwner t) s.owner va sramBase 2).trapAddr 0x0C (word va) 2
    else s.issueRemote (s.access (.load w) va (2 ^ w) rd 0 0) 0 (targetPkg t) (s.targetOwner t) w []

/-- FST.P (R345): its WR is sent at issue. -/
def storeP (s : State) (w rs2 rs1 rt : Nat) : State :=
  let va := va57 (s.rx rs1)
  let t := s.rx rt
  s.inScope 5 fun s => s.aligned va (2 ^ w) fun s =>
    if targetPkg t = s.pkgNum then
      if s.targetOwner t = s.owner then s.farStore w rs2 va
      else ((s.logTo s.coreNo (s.targetOwner t) s.owner va sramBase 2).report s.owner 0x46 (word va) 2).next
    else
      let acc := s.access .store va (2 ^ w) 0 0 0
      match s.sendRequest acc 1 (targetPkg t) (s.targetOwner t) w (s.storeBytes w rs2) (8 + s.running) with
      | (.ok _, s) => s.next
      | (.error c, s) => if c = 16 then s.await (.again 0) else ((s.logTo s.coreNo (s.targetOwner t) s.owner va sramBase c).report s.owner 0x46 (word va) (word c)).next

end State

/-! ## The instructions -/

/-- LB. -/
def execLb (rd rs1 imm : Nat) (s : State) : Host.Outcome State Fault Refusal := .next (s.localLoad rd rs1 imm 1 false (fun v => sext v 8))

/-- LH. -/
def execLh (rd rs1 imm : Nat) (s : State) : Host.Outcome State Fault Refusal := .next (s.localLoad rd rs1 imm 2 false (fun v => sext v 16))

/-- LW. -/
def execLw (rd rs1 imm : Nat) (s : State) : Host.Outcome State Fault Refusal := .next (s.localLoad rd rs1 imm 4 false (fun v => sext v 32))

/-- LD. -/
def execLd (rd rs1 imm : Nat) (s : State) : Host.Outcome State Fault Refusal := .next (s.localLoad rd rs1 imm 8 true (id))

/-- LBU. -/
def execLbu (rd rs1 imm : Nat) (s : State) : Host.Outcome State Fault Refusal := .next (s.localLoad rd rs1 imm 1 false (id))

/-- LHU. -/
def execLhu (rd rs1 imm : Nat) (s : State) : Host.Outcome State Fault Refusal := .next (s.localLoad rd rs1 imm 2 false (id))

/-- LWU. -/
def execLwu (rd rs1 imm : Nat) (s : State) : Host.Outcome State Fault Refusal := .next (s.localLoad rd rs1 imm 4 false (id))

/-- SB. -/
def execSb (rs2 rs1 imm : Nat) (s : State) : Host.Outcome State Fault Refusal := .next (s.localStore rs2 rs1 imm 1)

/-- SH. -/
def execSh (rs2 rs1 imm : Nat) (s : State) : Host.Outcome State Fault Refusal := .next (s.localStore rs2 rs1 imm 2)

/-- SW. -/
def execSw (rs2 rs1 imm : Nat) (s : State) : Host.Outcome State Fault Refusal := .next (s.localStore rs2 rs1 imm 4)

/-- SD. -/
def execSd (rs2 rs1 imm : Nat) (s : State) : Host.Outcome State Fault Refusal := .next (s.localStore rs2 rs1 imm 8)

/-- FLD.b. -/
def execFldB (rd rs1 imm : Nat) (s : State) : Host.Outcome State Fault Refusal := .next (s.farLoad 0 rd (s.farVa rs1 imm))

/-- FLD.h. -/
def execFldH (rd rs1 imm : Nat) (s : State) : Host.Outcome State Fault Refusal := .next (s.farLoad 1 rd (s.farVa rs1 imm))

/-- FLD.w. -/
def execFldW (rd rs1 imm : Nat) (s : State) : Host.Outcome State Fault Refusal := .next (s.farLoad 2 rd (s.farVa rs1 imm))

/-- FLD.d. -/
def execFldD (rd rs1 imm : Nat) (s : State) : Host.Outcome State Fault Refusal := .next (s.farLoad 3 rd (s.farVa rs1 imm))

/-- FLD.q. -/
def execFldQ (rd rs1 imm : Nat) (s : State) : Host.Outcome State Fault Refusal := .next (s.farLoad 4 rd (s.farVa rs1 imm))

/-- FLD.P. -/
def execFldP (w rd rs1 rt : Nat) (s : State) : Host.Outcome State Fault Refusal := .next (s.loadP w rd rs1 rt)

/-- FPF (R346): no alignment requirement. -/
def execFpf (rs1 imm : Nat) (s : State) : Host.Outcome State Fault Refusal := .next (s.prefetch (s.access .prefetch (s.farVa rs1 imm) 1 0 0 0))

/-- FST.b. -/
def execFstB (rs2 rs1 imm : Nat) (s : State) : Host.Outcome State Fault Refusal := .next (s.farStore 0 rs2 (s.farVa rs1 imm))

/-- FST.h. -/
def execFstH (rs2 rs1 imm : Nat) (s : State) : Host.Outcome State Fault Refusal := .next (s.farStore 1 rs2 (s.farVa rs1 imm))

/-- FST.w. -/
def execFstW (rs2 rs1 imm : Nat) (s : State) : Host.Outcome State Fault Refusal := .next (s.farStore 2 rs2 (s.farVa rs1 imm))

/-- FST.d. -/
def execFstD (rs2 rs1 imm : Nat) (s : State) : Host.Outcome State Fault Refusal := .next (s.farStore 3 rs2 (s.farVa rs1 imm))

/-- FST.q. -/
def execFstQ (rs2 rs1 imm : Nat) (s : State) : Host.Outcome State Fault Refusal := .next (s.farStore 4 rs2 (s.farVa rs1 imm))

/-- FST.P. -/
def execFstP (w rs2 rs1 rt : Nat) (s : State) : Host.Outcome State Fault Refusal := .next (s.storeP w rs2 rs1 rt)

/-! ## Far accesses as events (R239, R247) -/

namespace State

/-- Act as the context of a ring slot, then return to the core in view. -/
def asSlot (s : State) (core slot : Nat) (k : State → State) : State :=
  let c := s.coreNo
  let r := s.running
  (k (s.focus core slot)).focus c r

/-- An outstanding load ends as one that is the only one would (R248): the context stands as before it, and what issued behind it is discarded. Where the load must wait all the same, it stays outstanding. -/
def unwindLoad (s : State) (o : Outstanding) (a : Answer) : State :=
  let old := s.ctx
  let t := State.settleAnswer (s.setCtx { old with x := o.before.x, v := o.before.v, m := o.before.m, stat := o.before.stat, pc := o.before.pc, wait := .ready, word := none, loads := [] }) o.acc a
  if t.live ∧ t.coreNo = s.coreNo ∧ t.running = s.running then t.setCtx old else t

/-- The line that a load reads (R199), by the key of what it names: the core window's own addresses, else as the translation that it carries says, or the first-level sector that it hits, or its interface; none while that only has to wait, and an address apart from every key where it needs service. -/
def loadLine (s : State) (a : Access) : Option Nat :=
  if inWindow a.va then some (2 ^ 80 + a.va / 4096 * 32 + lineIndex (a.va % 4096))
  else match a.via with
    | some t => some (lineKey (s.homeKey (t.pa + (a.va - t.va))))
    | none => match s.l1Find a.core a.space a.va with
      | some e => some (lineKey e.pa)
      | none => match (s.lookUp (ifaceOf a.core) a.space a.va .read).1 with
        | .ok (k, _, _) => some (lineKey k)
        | .error v => if v.kind = 8 then none else some (2 ^ 90)

/-- Two loads may read one line. -/
def sameLine (s : State) (a b : Access) : Bool :=
  match s.loadLine a, s.loadLine b with
  | some m, some n => m == n
  | _, _ => true

def setGot (s : State) (j : Nat) (r : Returned) : State :=
  s.setCtx { s.ctx with loads := ((List.range s.ctx.loads.length).zip s.ctx.loads).map (fun e => if e.1 = j then { e.2 with got := some r } else e.2) }

/-- The request as it comes to be performed: under the translation that it took at its issue, or, where its interface served it only now, under one that it takes afresh (R217, R226). -/
def served (s : State) (acc : Access) : Access := if s.arg.e = 1 then { acc with via := none } else acc

/-- Outstanding load j is performed (R239, R247, R248): after the earlier loads of its line. One that is not the oldest is declined where it would park, launch or need service, and holds an error; what its walk has read stays in the caches either way (R421). -/
def performOut (s : State) (j : Nat) : State :=
  match s.ctx.loads[j]? with
  | none => s
  | some o =>
    if o.got.isSome ∨ (s.ctx.loads.take j).any (fun e => e.got.isNone && s.sameLine e.acc o.acc) then s
    else
      let r := s.perform (s.served o.acc)
      match r.1 with
      | .value lo hi => r.2.setGot j (.value lo hi)
      | .later => r.2
      | .snoop p a inv => r.2.askHost p a inv
      | .code c => if j = 0 then r.2.unwindLoad o (.code c) else r.2.setGot j (.code c)
      | .poison => if j = 0 then r.2.unwindLoad o .poison else r.2.setGot j .poison
      | a => if j = 0 then r.2.unwindLoad o a else r.2

/-- The registers after a load's value comes back (R342). -/
def withValue (x : Vector Word 28) (acc : Access) (lo hi : Word) : Vector Word 28 :=
  let put (x : Vector Word 28) (r : Nat) (v : Word) : Vector Word 28 := if r = 0 then x else x.setIfInBounds r v
  match acc.kind with
  | .load 4 => put (put x acc.dreg lo) (acc.dreg + 1) hi
  | .load 3 => put x acc.dreg lo
  | .load w => put x acc.dreg (sext lo (8 * 2 ^ w))
  | _ => x

/-- Outstanding load j returns: its value goes to its register, in what is held for the later loads too; a held error comes up once the load is the oldest (R248). -/
def returnOut (s : State) (j : Nat) : State :=
  match s.ctx.loads[j]? with
  | none => s
  | some o =>
    match o.got with
    | some (.value lo hi) =>
      s.setCtx { s.ctx with
        x := withValue s.ctx.x o.acc lo hi,
        loads := s.ctx.loads.take j ++ (s.ctx.loads.drop (j + 1)).map (fun e => { e with before := { e.before with x := withValue e.before.x o.acc lo hi } }) }
    | some (.code c) => if j = 0 then s.unwindLoad o (.code c) else s
    | some .poison => if j = 0 then s.unwindLoad o .poison else s
    | none => s

end State

/-- ACCESS_AT_POINT_OF_SERIALISATION: a far access under way is performed (R266), or of several outstanding loads the one that the event names. With e other than 0 the accesses are table reads (R218): the first e reads of the walk that interface c makes for address w of owner d's space. -/
def execAccessAtPointOfSerialisation (s : State) : Host.Outcome State Fault Refusal :=
  .next (if s.arg.e ≠ 0 then s.walkReads s.arg.c s.arg.d (va57 s.arg.w) s.arg.e else s.asSlot s.arg.a (s.arg.b % 4) fun s =>
    match s.live, s.ctx.wait with
    | true, .far acc =>
      let r := s.perform (s.served acc)
      r.2.settleAnswer acc r.1
    | true, _ => s.performOut (s.arg.b / 4)
    | false, _ => s)

/-- FAR_RESPONSE: the response of a performed access reaches its context, or of several outstanding loads that of the one that the event names. -/
def execFarResponse (s : State) : Host.Outcome State Fault Refusal :=
  .next (s.asSlot s.arg.a (s.arg.b % 4) fun s =>
    match s.live, s.ctx.wait with
    | true, .response acc lo hi => s.deliver acc lo hi
    | true, _ => s.returnOut (s.arg.b / 4)
    | false, _ => s)

end Sys2Proof.Machine
end

