-- ==== Sys2Proof/Machine/Messages.lean ====
section
/-! DEFINITION. Message instructions (R175 to R179, R402 to R405) and system instructions with the state registers (R171, R196, R197, R204, R213, R279 to R284, R408). -/

namespace Sys2Proof.Machine

namespace State

/-! ## MSEND and MSENDC (R403) -/

/-- The head word that a source field shows without taking it; skip is 1 where an earlier field names the same port. -/
def peekSource (s : State) (r skip : Nat) : Word :=
  if r < 28 then s.rx r
  else match ((s.heldWords.filter (fun w => w.1 == r - 28)).map (·.2) ++ s.rxOf (r - 28))[skip]? with
    | some w => w.value
    | none => 0

/-- Whether a word through a destination can leave at all (R71, R76). -/
def leaves (s : State) (e : Word) : Bool := wbits e 60 48 == s.pkgNum || (s.pickPort s.owner 2 (wbits e 60 48) (wbits e 17 4)).isSome

/-- Take the source words, leaving the values aside. -/
def takeAll (s : State) (srcs : List Nat) : State := srcs.foldl (fun s r => (s.take r).2) s

/-- SENT after a send: one more, saturating, or 0 after a closing word. -/
def sentAfter (e : Word) (closing : Bool) : Word :=
  let n := if closing then 0 else min (wbits e 31 18 + 1) 0x3FFF
  word (e.toNat / 2 ^ 32 * 2 ^ 32 + n * 2 ^ 18 + wbits e 17 0)

/-- MSEND, or MSENDC where closing: with port operands it takes no word before the step in which the chosen send queue has room (R403). -/
def msend (s : State) (rs1 rs2 : Nat) (closing : Bool) : State :=
  let srcs := if closing then [rs1] else [rs1, rs2]
  let rtb := s.ctx.rtb.toNat
  if s.splitSpan s.coreNo rtb 512 then s.await (match s.ctx.wait with | .port l r t => .port l r t | _ => .again 0)
  else if scratchSize s.coreNo s.core < rtb + 512 then s.trapAddr 0x06 (word rtb) (word rtb)
  else if ¬ s.canTake srcs then s.awaitPorts srcs heldBack
  else
    let k := sramKey s.coreNo (rtb + 8 * wbits (s.peekSource rs1 0) 5 0)
    let v := s.peekSource rs2 (if 28 ≤ rs1 ∧ rs1 = rs2 then 1 else 0)
    let e := s.wordAt k
    if s.destBad e true ∨ ¬ s.leaves e then ((s.takeAll srcs).dropAt e).next
    else if ¬ s.txRoom (wbits e 1 0) then (if portMask srcs = 0 then s.await (.again 2) else s.awaitPorts srcs heldBack)
    else
      let s := (s.takeAll srcs).sendWord e (if closing then word (wbits e 31 18) else v) closing
      (s.storeLocal k (offsets (toBytes 8 (sentAfter e closing).toNat))).next

/-! ## MWAIT and MPEEK (R404, R405) -/

/-- The ports with a word in their receive queue, as a mask. -/
def nonempty (s : State) : Nat := ((List.range 4).map (fun p => if (s.rxOf p).isEmpty then 0 else 2 ^ p)).sum

/-- MWAIT waiting, or waiting no more: the ports are tested before the deadline. -/
def mwaitTest (s : State) (rd mask : Nat) (d : Option Nat) : State :=
  let r := Nat.land mask s.nonempty
  if r ≠ 0 then (s.wx rd (word r)).next
  else match d with
    | some t => if t ≤ s.time then (s.wx rd 0).next else s.await (.mwait mask d)
    | none => s.await (.mwait mask d)

def mwait (s : State) (rd rs1 rs2 : Nat) : State :=
  match s.ctx.wait with
  | .mwait m d => s.mwaitTest rd m d
  | _ =>
    s.withPorts [rs1, rs2] 0 fun s =>
      let a := s.take rs1
      let b := a.2.take rs2
      let s := b.2
      let mask := wbits a.1 3 0
      if b.1 = 0 then (s.wx rd (word (Nat.land mask s.nonempty))).next
      else s.mwaitTest rd mask (if b.1 = BitVec.allOnes 64 then none else some (min (s.time + b.1.toNat) (2 ^ 64 - 1)))

/-- The status of a port (R178). -/
def portStatus (s : State) (p : Nat) : Word :=
  word ((s.rxOf p).length + (s.core.tx.toList.getD p 0 + s.stoppedWords p) * 2 ^ 8 + bit (s.core.closed.toList.getD p false) * 2 ^ 16 + (s.core.drops.toList.getD p 0).toNat * 2 ^ 24)

/-! ## State registers (R279, R280) -/

/-- WSREF (R212, R213) on a die. -/
def wsref (s : State) (die : Nat) : Word :=
  let t := (s.time + 2000 * die) % 32000
  word (2000 * die * 2 ^ 32 + t / 1000 * 2 ^ 16 + (1000 - t % 1000))

/-- A state register, whole. -/
def getSreg (s : State) (n : Nat) : Word :=
  match n with
  | 0x000 => s.ctx.stat
  | 0x001 => word ((0x17B + s.core.pages.toList.getD s.running 0) * 2 ^ 12 + s.running)
  | 0x002 => word (s.core.mwt * 2 ^ 28 + s.core.cbanks)
  | 0x003 => word (bit s.core.pool)
  | 0x004 => s.ctx.scla
  | 0x005 => s.ctx.sclb
  | 0x006 => s.ctx.ela
  | 0x007 => s.ctx.elb
  | 0x008 => s.ctx.ssha
  | 0x009 => s.ctx.sshb
  | 0x00A => s.ctx.pdest[0]
  | 0x00B => s.ctx.pdest[1]
  | 0x00C => s.ctx.pdest[2]
  | 0x00D => s.ctx.pdest[3]
  | 0x00E => s.ctx.rtb
  | 0x00F => word s.time
  | 0x010 => word s.clock.skb
  | 0x011 => s.wsref s.workDie
  | 0x012 => word s.owner
  | 0x013 => s.ctx.evc
  | 0x014 => s.core.cbase
  | _ => word s.core.clim

/-- STAT as a SETS leaves it: unchanged for a reserved DFMT or DRND; PEND and PFXB stand (R282). -/
def statSet (old v : Word) : Word :=
  if 8 ≤ wbits v 3 0 ∨ 5 ≤ wbits v 6 4 then old
  else word (wbits old 63 63 * 2 ^ 63 + wbits old 55 48 * 2 ^ 48 + wbits v 12 0)

/-- CBANKS as written: 7 to 16 (R196). -/
def cbanksOf (v : Word) : Nat := min 16 (max 7 (wbits v 4 0))

/-- Leaving a victim pool, or a change of CBANKS, discards what the core holds for others (R205). -/
def dropPooled (c : Core) (core : Nat) : Core := { c with l1 := c.l1.filter (fun e => e.held == core) }

/-- Write a state register that is not SPLIT; a read-only one takes nothing (R280). -/
def setSreg (s : State) (n : Nat) (v : Word) : State :=
  let a := zext v 57
  let c := s.ctx
  match n with
  | 0x000 => s.setStat (statSet c.stat v)
  | 0x003 =>
    let k := { s.core with pool := wbits v 0 0 == 1 }
    { s with core := if wbits v 0 0 = 0 then dropPooled k s.coreNo else k }
  | 0x004 => s.setCtx { c with scla := a }
  | 0x005 => s.setCtx { c with sclb := a }
  | 0x006 => s.setCtx { c with ela := a }
  | 0x007 => s.setCtx { c with elb := a }
  | 0x008 => s.setCtx { c with ssha := zext v 5 }
  | 0x009 => s.setCtx { c with sshb := zext v 5 }
  | 0x00A => s.setCtx { c with pdest := c.pdest.set 0 (pdestOf v) }
  | 0x00B => s.setCtx { c with pdest := c.pdest.set 1 (pdestOf v) }
  | 0x00C => s.setCtx { c with pdest := c.pdest.set 2 (pdestOf v) }
  | 0x00D => s.setCtx { c with pdest := c.pdest.set 3 (pdestOf v) }
  | 0x00E => s.setCtx { c with rtb := word (wbits v 20 3 * 8) }
  | _ => s

/-- SETS of SPLIT (R197): at once where CBANKS stays; otherwise the change begins and the context waits. A second SETS waits for the first, and they go in the order in which they reached the core. -/
def setSplit (s : State) (rs1 : Nat) : State :=
  if s.core.splitChange.isSome ∨ (s.core.splitWaits.head?.getD s.running ≠ s.running) then
    let l := s.core.splitWaits
    let t : State := { s with core := { s.core with splitWaits := if l.contains s.running then l else l ++ [s.running] } }
    if rs1 < 28 then t.await (.again 0) else t.awaitPorts [rs1] heldBack
  else if ¬ s.canTake [rs1] then s.awaitPorts [rs1] heldBack
  else
    let s : State := { s with core := { s.core with splitWaits := s.core.splitWaits.filter (· != s.running) } }
    let a := s.take rs1
    let s := a.2
    let cb := cbanksOf a.1
    if cb = s.core.cbanks ∨ isMc s.coreNo then ({ s with core := { s.core with mwt := wbits a.1 31 28, cbanks := cb } }).next
    else ({ s with core := { s.core with splitChange := some (wbits a.1 31 28, cb, s.running) } }).next.await .split

/-- Whether a SPLIT change can go on to its third step (R197): no copy command of any engine writes any more into a bank that leaves the scratchpad, and no matrix command of the core names one; those that stand in its queue run first (log 26). -/
def splitClear (s : State) (core : Nat) : Bool :=
  match s.splitLeaves core with
  | none => true
  | some (lo, hi) => (s.allCopies ++ (s.hubCopy.toList.flatten).map (·.2)).all (fun q => !(q.into core lo hi)) && (s.getCore core).matq.all (fun m => !(matInto m lo hi))

/-- A SPLIT change completes (R197): every combining entry drains, the cache portion is discarded, the banks that change portion hold zeros and VAL, and SPLIT is written. -/
def splitComplete (s : State) (core : Nat) : State :=
  let c := s.getCore core
  match c.splitChange with
  | none => s
  | some (mwt, cb, slot) =>
    if ¬ s.splitClear core then s
    else match s.drainList core c.combining with
      | (.error (e, v), s) => s.asSlot core e.slot (fun s => s.blockOther e v)
      | (.ok _, s) =>
        let c := s.getCore core
        let x := scratchSize core c
        let y := 98304 * (16 - cb)
        let lo := sramKey core (min x y)
        let hi := sramKey core (max x y)
        let s := (s.zeroStore lo hi).setCore core { c with l1 := [], mwt := mwt, cbanks := cb, splitChange := none }
        s.asSlot core slot fun s => if s.live ∧ s.ctx.wait = .split then s.await .ready else s

end State

/-! ## The instructions -/

/-- MSEND. -/
def execMsend (rs1 rs2 : Nat) (s : State) : Host.Outcome State Fault Refusal := .next (s.msend rs1 rs2 false)

/-- MSENDC. -/
def execMsendc (rs1 : Nat) (s : State) : Host.Outcome State Fault Refusal := .next (s.msend rs1 0 true)

/-- MWAIT. -/
def execMwait (rd rs1 rs2 : Nat) (s : State) : Host.Outcome State Fault Refusal := .next (s.mwait rd rs1 rs2)

/-- MPEEK: never waits but for its operand. -/
def execMpeek (rd rs1 : Nat) (s : State) : Host.Outcome State Fault Refusal :=
  .next (s.withPorts [rs1] 0 fun s =>
    let a := s.take rs1
    (a.2.wx rd (a.2.portStatus (wbits a.1 1 0))).next)

/-- TRAP (R408): DETAIL the operand plus the offset, PC the next instruction. -/
def execTrap (rs1 imm : Nat) (s : State) : Host.Outcome State Fault Refusal := .next (s.trapAt 0x13 0 (s.rx rs1 + imm12 imm) (s.ctx.pc + 4))

/-- BKPT: PC the BKPT itself. -/
def execBkpt (s : State) : Host.Outcome State Fault Refusal := .next (s.trap 0x14 0)

/-- GETS. -/
def execGets (rd sreg : Nat) (s : State) : Host.Outcome State Fault Refusal := .next (s.result rd fun s => s.getSreg sreg)

/-- SETS: SPLIT by its own sequence (R197). -/
def execSets (rs1 sreg : Nat) (s : State) : Host.Outcome State Fault Refusal :=
  .next (if sreg = 0x002 then s.setSplit rs1
    else s.withPorts [rs1] 0 fun s =>
      let a := s.take rs1
      (a.2.setSreg sreg a.1).next)

/-- TIME (R19). -/
def execTime (rd : Nat) (s : State) : Host.Outcome State Fault Refusal := .next (s.result rd fun s => word s.time)

/-! ## Events -/

/-- MWAIT_TIMEOUT: a deadline passes; the context is ready and its MWAIT tests the ports, then the deadline. -/
def execMwaitTimeout (s : State) : Host.Outcome State Fault Refusal :=
  .next (s.asSlot s.arg.a (s.arg.b % 4) fun s =>
    match s.live, s.ctx.wait with
    | true, .mwait _ (some d) => if d ≤ s.time then s.await (match s.ctx.wait with | .mwait m _ => .mwait m (some s.time) | w => w) else s
    | _, _ => s)

/-- SPLIT_CHANGE_COMPLETE. -/
def execSplitChangeComplete (s : State) : Host.Outcome State Fault Refusal := .next (s.splitComplete s.arg.a)

end Sys2Proof.Machine
end

