-- ==== Sys2Proof/Machine/Vector.lean ====
section
/-! DEFINITION. The vector instructions: lanes and packed elements, masking, vector memory, arithmetic, comparison, reduction, bitwise operations, lane moves and conversion (R356 to R370). -/

namespace Sys2Proof.Machine

/-! ## Lanes (R356) -/

def lanesOf (v : BitVec 512) : List Nat := (List.range 16).map (fun i => v.toNat / 2 ^ (32 * i) % 2 ^ 32)

def ofLanes (l : List Nat) : BitVec 512 := BitVec.ofNat 512 (((List.range 16).zip l).foldl (fun z e => z + e.2 % 2 ^ 32 * 2 ^ (32 * e.1)) 0)

/-- The elements of a lane, w bits each. -/
def laneElems (w lane : Nat) : List Nat := (List.range (32 / w)).map (fun j => lane / 2 ^ (w * j) % 2 ^ w)

def ofElems (w : Nat) (l : List Nat) : Nat := ((List.range l.length).zip l).foldl (fun z e => z + e.2 % 2 ^ w * 2 ^ (w * e.1)) 0

/-- The flags of a list of results. -/
def unionFlags (l : List Flags) : Flags := l.foldl Flags.or 0

namespace State

def vreg (s : State) (r : Nat) : List Nat := lanesOf (s.ctx.v.toList.getD r 0)

def wv (s : State) (r : Nat) (l : List Nat) : State := s.setCtx { s.ctx with v := s.ctx.v.setIfInBounds r (ofLanes l) }

/-- A mask register; m0 reads 0xFFFF (R277). -/
def mreg (s : State) (k : Nat) : BitVec 16 := if k = 0 then BitVec.allOnes 16 else s.ctx.m.toList.getD k 0

/-- Write a mask register; m0 discards. -/
def wm (s : State) (k : Nat) (v : BitVec 16) : State := if k = 0 then s else s.setCtx { s.ctx with m := s.ctx.m.setIfInBounds k v }

/-- Whether lane i is active (R358). -/
def activeLane (s : State) (me mk i : Nat) : Bool := me == 0 || (s.mreg mk).getLsbD i

/-- ILLOP at an instruction that does not accept its effective format (R357). -/
def accepts (s : State) (codes : List Nat) (i : Instr) (k : State → State) : State :=
  if codes.contains s.effFmt then k s else s.trap 0x01 (word (encode i))

/-- Write the active lanes of vd from their number (R358); done under a pending prefix, which clears. -/
def lanewise (s : State) (vd me mk : Nat) (f : Nat → Nat × Flags) : State :=
  let r := (List.range 16).map (fun i => if s.activeLane me mk i then f i else ((s.vreg vd).getD i 0, 0))
  ((s.wv vd (r.map (·.1))).orFlags (unionFlags (r.map (·.2)))).nextQ

/-- Elementwise over three sources, c being the old destination (R362). -/
def elementwise (s : State) (vd va vb me mk w : Nat) (f : Nat → Nat → Nat → Nat × Flags) : State :=
  let a := s.vreg va
  let b := s.vreg vb
  let c := s.vreg vd
  s.lanewise vd me mk fun i =>
    let r := ((laneElems w (a.getD i 0)).zip ((laneElems w (b.getD i 0)).zip (laneElems w (c.getD i 0)))).map (fun e => f e.1 e.2.1 e.2.2)
    (ofElems w (r.map (·.1)), unionFlags (r.map (·.2)))

/-! ## Vector memory (R359 to R361) -/

/-- The word of local space that a lane's 4 bytes lie in. -/
def localWord (s : State) (a : Nat) : Word := if s.regionOf a = .scratch then s.wordAt (sramKey s.coreNo (a / 8 * 8)) else s.specialWord a

/-- Whether the protection unit refuses a lane's access (R195). -/
def laneRefused (s : State) (a : Nat) (store : Bool) : Bool :=
  decide (0x200000 ≤ a) || (match s.regionOf a with
    | .scratch => false
    | .page _ => false
    | .faultPage => store
    | _ => true)

/-- The checks of R360 over the active lanes, then the accesses. -/
def vecChecked (s : State) (addrs : List (Nat × Nat)) (store : Bool) (k : State → State) : State :=
  match addrs.find? (fun e => e.2 % 4 != 0) with
  | some e => s.trapAddr 0x05 (word e.2) 4
  | none => if addrs.any (fun e => s.splitHolds e.2) then s.await (.again 0) else match addrs.find? (fun e => s.laneRefused e.2 store) with
    | some e => s.trapAddr 0x06 (word (e.2 % 0x200000)) (word (e.2 % 0x200000))
    | none => match addrs.find? (fun e => s.regionOf e.2 == .scratch && s.tagAt (sramKey s.coreNo e.2) != 0) with
      | some e => s.trapAddr 0x09 (word e.2) (word (s.tagAt (sramKey s.coreNo e.2)).toNat)
      | none =>
        if addrs.any (fun e => s.matHolds s.coreNo e.2 4 store) then s.await (.again 0)
        else match addrs.find? (fun e => !store && s.regionOf e.2 == .scratch && s.poisoned (sramKey s.coreNo e.2) 4) with
          | some e => s.trapAddr 0x0D (word e.2) 0
          | none => k s

/-- The active lanes with their addresses, in lane order. -/
def laneAddrs (s : State) (me mk : Nat) (addr : Nat → Word) : List (Nat × Nat) :=
  ((List.range 16).filter (fun i => s.activeLane me mk i)).map (fun i => (i, (addr i).toNat))

/-- One lane's access; the context goes on to the next lane, or to its next instruction. -/
def laneAt (s : State) (l : List (Nat × Nat)) (one : State → Nat × Nat → State) (n : Nat) : State :=
  match l[n]? with
  | some e => if n + 1 < l.length then (one s e).await (.lanes (n + 1)) else (one s e).nextQ
  | none => s.nextQ

/-- The lanes of a vector access one by one, each in a step of its own, so that another agent's access may come between two of them (R361). -/
def byLanes (s : State) (l : List (Nat × Nat)) (store : Bool) (one : State → Nat × Nat → State) : State :=
  match s.ctx.wait with
  | .lanes n => s.laneAt l one n
  | _ => s.vecChecked l store fun s => s.laneAt l one 0

/-- Every format code that there is (R357). -/
def allFormats : List Nat := [0, 1, 2, 3, 4, 5, 6, 7]

/-- A vector memory instruction accepts every format code that there is (R357); one of which lanes are performed has been accepted. -/
def vecAccepts (s : State) (i : Instr) (k : State → State) : State :=
  match s.ctx.wait with
  | .lanes _ => k s
  | _ => s.accepts allFormats i k

/-- Read the active lanes, in lane order. -/
def vecLoad (s : State) (i : Instr) (vd me mk : Nat) (addr : Nat → Word) : State :=
  s.vecAccepts i fun s =>
    let l := s.laneAddrs me mk addr
    let read (s : State) (a : Nat) : Nat := (s.localWord a).toNat / 2 ^ (8 * (a % 8)) % 2 ^ 32
    if s.async then s.byLanes l false fun s e => s.wv vd ((s.vreg vd).set e.1 (read s e.2))
    else s.vecChecked l false fun s => s.lanewise vd me mk fun i => (read s (addr i).toNat, 0)

/-- One lane's store. -/
def storeLane (s : State) (a v : Nat) : State :=
  match s.regionOf a with
  | .page k => s.storePage k a 4 v
  | _ => s.storeLocal (sramKey s.coreNo a) (offsets (toBytes 4 v))

/-- Write the active lanes, in lane order. -/
def vecStore (s : State) (i : Instr) (vd me mk : Nat) (addr : Nat → Word) : State :=
  s.vecAccepts i fun s =>
    let l := s.laneAddrs me mk addr
    let data := s.vreg vd
    if s.async then s.byLanes l true fun s e => s.storeLane e.2 (data.getD e.1 0)
    else s.vecChecked l true fun s => (l.foldl (fun s e => s.storeLane e.2 (data.getD e.1 0)) s).nextQ

/-- Addresses a + 4i. -/
def unitAddr (s : State) (ra : Nat) (i : Nat) : Word := s.rx ra + word (4 * i)

/-- Addresses a + i × s, the stride signed, modulo 2^64. -/
def strideAddr (s : State) (ra rb : Nat) (i : Nat) : Word := s.rx ra + word i * s.rx rb

/-- Addresses a plus lane i of the offsets. -/
def indexAddr (s : State) (ra vb : Nat) (i : Nat) : Word := s.rx ra + word ((s.vreg vb).getD i 0)

/-! ## Arithmetic (R362 to R364) -/

/-- The formats of VADD to VABS. -/
def arithFormats : List Nat := [0, 1, 2, 6, 7]

/-- Apply a floating-point or an integer operation in the effective format. -/
def arith (s : State) (i : Instr) (vd va vb me mk : Nat) (codes : List Nat) (fp : Fmt → Nat → Bool → Nat → Nat → Nat → Nat × Flags) (int : Int → Int → Int → Int) : State :=
  s.accepts codes i fun s =>
    let w := widthOf s.effFmt
    s.elementwise vd va vb me mk w fun a b c =>
      match fmtOf s.effFmt with
      | some f => fp f s.effRnd s.effSat a b c
      | none => (fromInt w s.effSat (int (toInt w a) (toInt w b) (toInt w c)), 0)

/-- VABS of a floating-point element (R362, R300, R307). -/
def fpAbs (f : Fmt) (sat : Bool) (a : Nat) : Nat × Flags :=
  match f.read a with
  | .nan q => (f.canonical, if q then fNV else 0)
  | .inf _ => (f.infinite sat false, 0)
  | .fin _ _ _ => (f.keep a % f.signBit, 0)

/-- VSQRT, VEXP2, VRCP, VRSQRT (R364). -/
def approximate (s : State) (i : Instr) (f6 vd va me mk : Nat) : State :=
  s.accepts [0] i fun s => s.elementwise vd va va me mk 32 fun a _ _ => approxOp f6 s.effSat a

/-! ## Comparison and reduction (R365, R366) -/

/-- One comparison: eq 0, ne 1, lt 2, le 3, gt 4, ge 5. -/
def compareOp (fp : Bool) (op a b : Nat) : Bool × Flags :=
  if fp then
    match op with
    | 0 => fp32.compare 0 a b
    | 1 => let r := fp32.compare 0 a b; (!r.1, r.2)
    | 2 => fp32.compare 1 a b
    | 3 => fp32.compare 2 a b
    | 4 => fp32.compare 1 b a
    | _ => fp32.compare 2 b a
  else
    let x := toInt 32 a
    let y := toInt 32 b
    (match op with
      | 0 => decide (x = y)
      | 1 => decide (x ≠ y)
      | 2 => decide (x < y)
      | 3 => decide (x ≤ y)
      | 4 => decide (y < x)
      | _ => decide (y ≤ x), 0)

/-- VCMP (R365): bit i of the mask is lane i's comparison, in FP32 with its flags or in INT32. -/
def vcmp (s : State) (i : Instr) (op md va vb me mk : Nat) : State :=
  s.accepts [0, 7] i fun s =>
    let r := ((List.range 16).map (fun i => if s.activeLane me mk i then compareOp (s.effFmt == 0) op ((s.vreg va).getD i 0) ((s.vreg vb).getD i 0) else (false, 0)))
    let m := ((List.range 16).zip r).foldl (fun z e => z + bit e.2.1 * 2 ^ e.1) 0
    ((s.wm md (BitVec.ofNat 16 m)).orFlags (unionFlags (r.map (·.2)))).nextQ

/-- The identity of a reduction: sum 0, max 1, min 2. -/
def redIdent (fp : Bool) (op : Nat) : Nat :=
  match op with
  | 0 => 0
  | 1 => if fp then 0xFF800000 else 0x80000000
  | _ => if fp then 0x7F800000 else 0x7FFFFFFF

/-- The combining step of a reduction. -/
def redComb (fp : Bool) (op rm : Nat) (sat : Bool) (a b : Nat) : Nat × Flags :=
  if fp then
    match op with
    | 0 => fp32.add rm sat a b
    | 1 => fp32.minmax true sat a b
    | _ => fp32.minmax false sat a b
  else
    (fromInt 32 sat (match op with
      | 0 => toInt 32 a + toInt 32 b
      | 1 => max (toInt 32 a) (toInt 32 b)
      | _ => min (toInt 32 a) (toInt 32 b)), 0)

/-- One level of the tree: neighbours combined. -/
def redLevel (f : Nat → Nat → Nat × Flags) : List Nat → List Nat × Flags
  | a :: b :: l =>
    let r := f a b
    let t := redLevel f l
    (r.1 :: t.1, Flags.or r.2 t.2)
  | l => (l, 0)

/-- VRED (R366): neighbours combined pairwise four times, inactive lanes at the operation's identity. -/
def vred (s : State) (i : Instr) (op vd va me mk : Nat) : State :=
  s.accepts [0, 7] i fun s =>
    let fp := s.effFmt == 0
    let f := redComb fp op s.effRnd s.effSat
    let t0 := (List.range 16).map (fun i => if s.activeLane me mk i then (s.vreg va).getD i 0 else redIdent fp op)
    let t1 := redLevel f t0
    let t2 := redLevel f t1.1
    let t3 := redLevel f t2.1
    let t4 := redLevel f t3.1
    ((s.wv vd (t4.1.getD 0 0 :: List.replicate 15 0)).orFlags (unionFlags [t1.2, t2.2, t3.2, t4.2])).nextQ

/-! ## Bitwise operations, shifts, lane moves (R367 to R369) -/

/-- A bitwise operation on whole lanes. -/
def bitwise (s : State) (i : Instr) (vd va vb me mk : Nat) (f : Nat → Nat → Nat) : State :=
  s.accepts allFormats i fun s =>
    let a := s.vreg va
    let b := s.vreg vb
    s.lanewise vd me mk fun i => (f (a.getD i 0) (b.getD i 0), 0)

/-- A shift of each element by the low log2(w) bits of the matching one (R367). -/
def vshift (s : State) (i : Instr) (vd va vb me mk : Nat) (f : Nat → Nat → Nat → Nat) : State :=
  s.accepts [0, 1, 2, 3, 4, 6, 7] i fun s =>
    let w := widthOf s.effFmt
    s.elementwise vd va vb me mk w fun a b _ => (f w a (b % w), 0)

/-- Copies of the top bit entering. -/
def sraElem (w a n : Nat) : Nat := fromInt w false (toInt w a / 2 ^ n)

/-! ## Conversion (R370) -/

/-- How many elements of a format a lane holds. -/
def perLane (code : Nat) : Nat := 32 / widthOf code

/-- The elements of a register in a format. -/
def elemsOf (code : Nat) (l : List Nat) : List Nat := (l.map (laneElems (widthOf code))).flatten

/-- Whether a part is allowed. -/
def partAllowed (src dst p : Nat) : Bool :=
  let ks := perLane src
  let kd := perLane dst
  decide (p < max (kd / ks) (ks / kd))

/-- VCVT (R370): each element of the source format to the effective one. -/
def vcvt (s : State) (i : Instr) (vd va src p me mk : Nat) : State :=
  s.accepts [0, 1, 2, 3, 4, 6, 7] i fun s =>
    let dst := s.effFmt
    if ¬ partAllowed src dst p then s.trap 0x01 (word (encode i))
    else
      let kd := perLane dst
      let ks := perLane src
      let a := elemsOf src (s.vreg va)
      let old := elemsOf dst (s.vreg vd)
      let w := widthOf dst
      -- the source element of destination element j, if it has one
      let from? (j : Nat) : Option Nat :=
        if ks ≤ kd then (if p * 16 * ks ≤ j ∧ j < p * 16 * ks + 16 * ks then some (j - p * 16 * ks) else none)
        else some (p * 16 * kd + j)
      s.lanewise vd me mk fun l =>
        let r := (List.range kd).map (fun e =>
          let j := l * kd + e
          match from? j with
          | some q => convElem src dst s.effRnd s.effSat (a.getD q 0)
          | none => (old.getD j 0, 0))
        (ofElems w (r.map (·.1)), unionFlags (r.map (·.2)))

end State

/-! ## The instructions -/

/-- VLD. -/
def execVld (vd ra me mk : Nat) (s : State) : Host.Outcome State Fault Refusal := .next (s.vecLoad (.vld vd ra me mk) vd me mk (s.unitAddr ra))

/-- VST. -/
def execVst (vd ra me mk : Nat) (s : State) : Host.Outcome State Fault Refusal := .next (s.vecStore (.vst vd ra me mk) vd me mk (s.unitAddr ra))

/-- VLDS. -/
def execVlds (vd ra vb me mk : Nat) (s : State) : Host.Outcome State Fault Refusal := .next (s.vecLoad (.vlds vd ra vb me mk) vd me mk (s.strideAddr ra vb))

/-- VSTS. -/
def execVsts (vd ra vb me mk : Nat) (s : State) : Host.Outcome State Fault Refusal := .next (s.vecStore (.vsts vd ra vb me mk) vd me mk (s.strideAddr ra vb))

/-- VLDX. -/
def execVldx (vd ra vb me mk : Nat) (s : State) : Host.Outcome State Fault Refusal := .next (s.vecLoad (.vldx vd ra vb me mk) vd me mk (s.indexAddr ra vb))

/-- VSTX. -/
def execVstx (vd ra vb me mk : Nat) (s : State) : Host.Outcome State Fault Refusal := .next (s.vecStore (.vstx vd ra vb me mk) vd me mk (s.indexAddr ra vb))

/-- VAND. -/
def execVand (vd va vb me mk : Nat) (s : State) : Host.Outcome State Fault Refusal := .next (s.bitwise (.vand vd va vb me mk) vd va vb me mk Nat.land)

/-- VOR. -/
def execVor (vd va vb me mk : Nat) (s : State) : Host.Outcome State Fault Refusal := .next (s.bitwise (.vor vd va vb me mk) vd va vb me mk Nat.lor)

/-- VXOR. -/
def execVxor (vd va vb me mk : Nat) (s : State) : Host.Outcome State Fault Refusal := .next (s.bitwise (.vxor vd va vb me mk) vd va vb me mk Nat.xor)

/-- VSLL. -/
def execVsll (vd va vb me mk : Nat) (s : State) : Host.Outcome State Fault Refusal := .next (s.vshift (.vsll vd va vb me mk) vd va vb me mk fun w a n => a * 2 ^ n % 2 ^ w)

/-- VSRL. -/
def execVsrl (vd va vb me mk : Nat) (s : State) : Host.Outcome State Fault Refusal := .next (s.vshift (.vsrl vd va vb me mk) vd va vb me mk fun _ a n => a / 2 ^ n)

/-- VSRA. -/
def execVsra (vd va vb me mk : Nat) (s : State) : Host.Outcome State Fault Refusal := .next (s.vshift (.vsra vd va vb me mk) vd va vb me mk State.sraElem)

/-- VSEL (R368): the mask selects and holds no lane back. -/
def execVsel (vd va vb me mk : Nat) (s : State) : Host.Outcome State Fault Refusal := .next (s.accepts State.allFormats (.vsel vd va vb me mk) fun s =>
    let a := s.vreg va
    let b := s.vreg vb
    s.lanewise vd 0 0 fun i => (if s.activeLane me mk i then a.getD i 0 else b.getD i 0, 0))

/-- VSHUF. -/
def execVshuf (vd va vb me mk : Nat) (s : State) : Host.Outcome State Fault Refusal := .next (s.accepts State.allFormats (.vshuf vd va vb me mk) fun s =>
    let a := s.vreg va
    let b := s.vreg vb
    s.lanewise vd me mk fun i => (a.getD (b.getD i 0 % 16) 0, 0))

/-- VSLIDE (R368): up for vb[4] 0, down for 1. -/
def execVslide (vd va vb me mk : Nat) (s : State) : Host.Outcome State Fault Refusal := .next (s.accepts State.allFormats (.vslide vd va vb me mk) fun s =>
    let a := s.vreg va
    let k := vb % 16
    s.lanewise vd me mk fun i =>
      (if vb / 16 % 2 = 0 then (if i < k then 0 else a.getD (i - k) 0) else a.getD (i + k) 0, 0))

/-- VBCAST (R369). -/
def execVbcast (vd rs me mk : Nat) (s : State) : Host.Outcome State Fault Refusal := .next (s.accepts State.allFormats (.vbcast vd rs me mk) fun s =>
    s.withPorts [rs] 0 fun s =>
      let a := s.take rs
      a.2.lanewise vd me mk fun _ => (a.1.toNat % 2 ^ 32, 0))

/-- VEXT (R369). -/
def execVext (rd va lane : Nat) (s : State) : Host.Outcome State Fault Refusal := .next (s.accepts State.allFormats (.vext rd va lane) fun s =>
    s.withPorts [] rd fun s => (s.put rd (sext (word ((s.vreg va).getD lane 0)) 32)).nextQ)

/-- VINS (R369). -/
def execVins (vd rs lane : Nat) (s : State) : Host.Outcome State Fault Refusal := .next (s.accepts State.allFormats (.vins vd rs lane) fun s =>
    s.withPorts [rs] 0 fun s =>
      let a := s.take rs
      (a.2.wv vd ((a.2.vreg vd).set lane (a.1.toNat % 2 ^ 32))).nextQ)

/-- VCVT. -/
def execVcvt (vd va src part me mk : Nat) (s : State) : Host.Outcome State Fault Refusal := .next (s.vcvt (.vcvt vd va src part me mk) vd va src part me mk)

/-- VADD. -/
def execVadd (vd va vb me mk : Nat) (s : State) : Host.Outcome State Fault Refusal := .next (s.arith (.vadd vd va vb me mk) vd va vb me mk State.arithFormats (fun f rm sat a b _ => f.add rm sat a b) fun a b _ => a + b)

/-- VSUB. -/
def execVsub (vd va vb me mk : Nat) (s : State) : Host.Outcome State Fault Refusal := .next (s.arith (.vsub vd va vb me mk) vd va vb me mk State.arithFormats (fun f rm sat a b _ => f.sub rm sat a b) fun a b _ => a - b)

/-- VMUL. -/
def execVmul (vd va vb me mk : Nat) (s : State) : Host.Outcome State Fault Refusal := .next (s.arith (.vmul vd va vb me mk) vd va vb me mk State.arithFormats (fun f rm sat a b _ => f.mul rm sat a b) fun a b _ => a * b)

/-- VMADD. -/
def execVmadd (vd va vb me mk : Nat) (s : State) : Host.Outcome State Fault Refusal := .next (s.arith (.vmadd vd va vb me mk) vd va vb me mk State.arithFormats (fun f rm sat a b c => f.fma rm sat a b c) fun a b c => a * b + c)

/-- VNMSUB. -/
def execVnmsub (vd va vb me mk : Nat) (s : State) : Host.Outcome State Fault Refusal := .next (s.arith (.vnmsub vd va vb me mk) vd va vb me mk State.arithFormats (fun f rm sat a b c => f.fnms rm sat a b c) fun a b c => c - a * b)

/-- VMIN. -/
def execVmin (vd va vb me mk : Nat) (s : State) : Host.Outcome State Fault Refusal := .next (s.arith (.vmin vd va vb me mk) vd va vb me mk State.arithFormats (fun f _ sat a b _ => f.minmax false sat a b) fun a b _ => min a b)

/-- VMAX. -/
def execVmax (vd va vb me mk : Nat) (s : State) : Host.Outcome State Fault Refusal := .next (s.arith (.vmax vd va vb me mk) vd va vb me mk State.arithFormats (fun f _ sat a b _ => f.minmax true sat a b) fun a b _ => max a b)

/-- VABS (R362, R363): of the most negative integer element, that element itself. -/
def execVabs (vd va me mk : Nat) (s : State) : Host.Outcome State Fault Refusal := .next (s.accepts State.arithFormats (.vabs vd va me mk) fun s =>
    let w := widthOf s.effFmt
    s.elementwise vd va va me mk w fun a _ _ =>
      match fmtOf s.effFmt with
      | some f => State.fpAbs f s.effSat a
      | none => (if toInt w a = -(2 ^ (w - 1) : Nat) then a else fromInt w false (toInt w a).natAbs, 0))

/-- VDIV. -/
def execVdiv (vd va vb me mk : Nat) (s : State) : Host.Outcome State Fault Refusal := .next (s.arith (.vdiv vd va vb me mk) vd va vb me mk [0] (fun f rm sat a b _ => f.div rm sat a b) fun a _ _ => a)

/-- VSQRT. -/
def execVsqrt (vd va me mk : Nat) (s : State) : Host.Outcome State Fault Refusal := .next (s.approximate (.vsqrt vd va me mk) 9 vd va me mk)

/-- VEXP2. -/
def execVexp2 (vd va me mk : Nat) (s : State) : Host.Outcome State Fault Refusal := .next (s.approximate (.vexp2 vd va me mk) 10 vd va me mk)

/-- VRCP. -/
def execVrcp (vd va me mk : Nat) (s : State) : Host.Outcome State Fault Refusal := .next (s.approximate (.vrcp vd va me mk) 11 vd va me mk)

/-- VRSQRT. -/
def execVrsqrt (vd va me mk : Nat) (s : State) : Host.Outcome State Fault Refusal := .next (s.approximate (.vrsqrt vd va me mk) 12 vd va me mk)

/-- VCMP.eq. -/
def execVcmpEq (md va vb me mk : Nat) (s : State) : Host.Outcome State Fault Refusal := .next (s.vcmp (.vcmpEq md va vb me mk) 0 md va vb me mk)

/-- VCMP.ne. -/
def execVcmpNe (md va vb me mk : Nat) (s : State) : Host.Outcome State Fault Refusal := .next (s.vcmp (.vcmpNe md va vb me mk) 1 md va vb me mk)

/-- VCMP.lt. -/
def execVcmpLt (md va vb me mk : Nat) (s : State) : Host.Outcome State Fault Refusal := .next (s.vcmp (.vcmpLt md va vb me mk) 2 md va vb me mk)

/-- VCMP.le. -/
def execVcmpLe (md va vb me mk : Nat) (s : State) : Host.Outcome State Fault Refusal := .next (s.vcmp (.vcmpLe md va vb me mk) 3 md va vb me mk)

/-- VCMP.gt. -/
def execVcmpGt (md va vb me mk : Nat) (s : State) : Host.Outcome State Fault Refusal := .next (s.vcmp (.vcmpGt md va vb me mk) 4 md va vb me mk)

/-- VCMP.ge. -/
def execVcmpGe (md va vb me mk : Nat) (s : State) : Host.Outcome State Fault Refusal := .next (s.vcmp (.vcmpGe md va vb me mk) 5 md va vb me mk)

/-- VRED.sum. -/
def execVredSum (vd va me mk : Nat) (s : State) : Host.Outcome State Fault Refusal := .next (s.vred (.vredSum vd va me mk) 0 vd va me mk)

/-- VRED.max. -/
def execVredMax (vd va me mk : Nat) (s : State) : Host.Outcome State Fault Refusal := .next (s.vred (.vredMax vd va me mk) 1 vd va me mk)

/-- VRED.min. -/
def execVredMin (vd va me mk : Nat) (s : State) : Host.Outcome State Fault Refusal := .next (s.vred (.vredMin vd va me mk) 2 vd va me mk)

end Sys2Proof.Machine
end

