-- ==== Sys2Proof/Machine/Matrix.lean ====
section
/-! DEFINITION. The matrix unit (R374 to R386): claims, the queue, the arbiter, the scale cache, and what each command does. -/

namespace Sys2Proof.Machine

/-! ## Tiles (R374, R381) -/

/-- Where an MMUL finds its elements: the slot's bytes. -/
def tileByte (k fmt i e : Nat) : Nat := k + 128 * i + e * widthOf fmt / 8

namespace State

/-- Element e of row i of the tile at a store key, its bits. -/
def tileElem (s : State) (k fmt i e : Nat) : Nat :=
  if fmt = 5 then (s.byteAt (tileByte k 5 i e)).toNat / 16 ^ (e % 2) % 16
  else s.natAt (tileByte k fmt i e) (widthOf fmt / 8)

/-- Element e of row i as a number; an element of an invalid block is NaN in every product (R304, R310). -/
def tileNum (s : State) (k fmt : Nat) (headers : List Word) (i e : Nat) : Num :=
  let v := s.tileElem k fmt i e
  match fmtOf fmt with
  | some f => f.read v
  | none => (bx4Value v (headers.getD (8 * i + e / 32) 0).toNat).getD (.nan false)

/-- K_t (R296). -/
def tileK (fmt : Nat) : Nat := 1024 / widthOf fmt

/-- A row's numbers, cut into blocks of 32. -/
def tileRow (s : State) (k fmt : Nat) (headers : List Word) (i : Nat) : List (List Num) :=
  (List.range (tileK fmt / 32)).map (fun j => (List.range 32).map (fun n => s.tileNum k fmt headers i (32 * j + n)))

/-- A row of INT8, in blocks. -/
def tileInts (s : State) (k i : Nat) : List (List Int) :=
  (List.range 4).map (fun j => (List.range 32).map (fun n => toInt 8 (s.tileElem k 6 i (32 * j + n))))

/-- reduce (R310). -/
def reduceRow (sat : Bool) (acc : Nat) (a b : List (List Num)) : Nat :=
  (a.zip b).foldl (fun acc p => reduceStep sat acc ((p.1.zip p.2).map (fun e => product e.1 e.2))) acc

/-- reduce for INT8 (R311). -/
def reduceInts (sat : Bool) (acc : Nat) (a b : List (List Int)) : Nat :=
  (a.zip b).foldl (fun acc p => fromInt 32 sat (toInt 32 acc + ((p.1.zip p.2).map (fun e => e.1 * e.2)).sum)) acc

/-- The 1,024 new words of an MMUL's accumulator, row by row (R381). -/
def mmulWords (s : State) (quad core : Nat) (m : MatCmd) : List Nat :=
  let ka := slotKey quad m.slotA 0
  let kb := slotKey quad m.slotB 0
  let old (i j : Nat) : Nat := s.natAt (accKey core m.acc (128 * i + 4 * j)) 4
  if m.fmt = 6 then
    let bs := (List.range 32).map (fun j => s.tileInts kb j)
    ((List.range 32).map (fun i =>
      let a := s.tileInts ka i
      ((List.range 32).zip bs).map (fun e => reduceInts m.sat (old i e.1) a e.2))).flatten
  else
    let bs := (List.range 32).map (fun j => s.tileRow kb m.fmt (m.headers.drop 256) j)
    ((List.range 32).map (fun i =>
      let a := s.tileRow ka m.fmt m.headers i
      ((List.range 32).zip bs).map (fun e => reduceRow m.sat (old i e.1) a e.2))).flatten

/-- An accumulator element as MSTORE stores it (R383): FP32 too is written under the effective saturation (R307). -/
def storeElem (m : MatCmd) (v : Nat) : Nat :=
  if m.fmt = 0 then (convFloat fp32 fp32 m.rnd m.sat v).1
  else (convElem (if m.fmt = 6 ∨ m.fmt = 7 then 7 else 0) m.fmt m.rnd m.sat v).1

/-- The bytes of an MSTORE's tile. -/
def mstoreBytes (s : State) (core : Nat) (m : MatCmd) : List Byte :=
  ((List.range 1024).map (fun e => toBytes (widthOf m.fmt / 8) (storeElem m (s.natAt (accKey core m.acc (4 * e)) 4)))).flatten

/-! ## Claims and the unit (R378, R379) -/

def quadOf (core : Nat) : Nat := core / 4

/-- The core's holder holds the quad's unit, unfrozen. -/
def unitHeld (s : State) (core : Nat) : Bool :=
  let e := s.getEntry (entryKey 2 (quadOf core))
  e.holder == s.coreOwner core && !(s.ownerRec e.holder).silent

/-- The core of the quad that claims a slot, 4 for none. -/
def claimOf (s : State) (core slot : Nat) : Nat := SMap.get 4 (s.getQuad (quadOf core)).claims slot

def claims (s : State) (core slot : Nat) : Bool := s.claimOf core slot == core % 4

/-- The slots of a range. -/
def slotRange (sa cnt : Nat) : List Nat := (List.range (cnt + 1)).map (sa + ·)

def setClaims (s : State) (core v : Nat) (l : List Nat) : State :=
  let q := s.getQuad (quadOf core)
  s.setQuad (quadOf core) { q with claims := l.foldl (fun m n => SMap.set 4 m n v) q.claims }

/-- NOUNIT (R378); while the unit is being scrubbed its use waits (R141). -/
def withUnit (s : State) (k : State → State) : State :=
  if ¬ s.unitHeld s.coreNo then s.trap 0x0F 1
  else if (s.getEntry (entryKey 2 (quadOf s.coreNo))).scrub then s.await (.again 0)
  else k s

/-- NOSLOT (R378). -/
def withSlots (s : State) (l : List Nat) (k : State → State) : State :=
  if l.all (fun n => s.claims s.coreNo n) then k s else s.trap 0x0F 2

/-- Run on where the queue has room, else wait (R375). -/
def withQueue (s : State) (k : State → State) : State := if 4 ≤ s.core.matq.length then s.await (.again 0) else k s

/-- A command of the running context. -/
def matCmd (s : State) (i : Instr) (op : Nat) : MatCmd :=
  { op := op, slotA := 64, slotB := 64, acc := 8, addr := 0, va := 0, fmt := s.effFmt, rnd := s.effRnd, sat := s.effSat, ring := s.running, flight := s.ctx.flight, word := encode i, headers := [], started := false, recheck := false, home := s.coreNo }

/-- A command enters the queue, and the context goes on. -/
def enqueueMat (s : State) (m : MatCmd) : State := (State.nextQ { s with core := { s.core with matq := s.core.matq ++ [m] } })

/-- A slot's element address is set as its load issues (R374). -/
def setElem (s : State) (core slot : Nat) (a : Word) : State :=
  let q := s.getQuad (quadOf core)
  s.setQuad (quadOf core) { q with elems := SMap.set 0 q.elems slot a }

/-- MLOAD's and MSTORE's checks of n bytes at a local address (R380, R383); one to banks that change portion waits, and is then checked under the new layout (R197). -/
def tileChecked (s : State) (a : Word) (n : Nat) (k : State → State) : State :=
  let top := scratchSize s.coreNo s.core
  if a.toNat % 64 ≠ 0 then s.trapAddr 0x05 a 64
  else if s.splitSpan s.coreNo a.toNat n then s.await (.again 0)
  else if top < a.toNat + n then s.trapAddr 0x06 (word (max a.toNat top)) (word (max a.toNat top))
  else match ((List.range (n / 8)).map (fun i => a.toNat + 8 * i)).find? (fun b => s.tagAt (sramKey s.coreNo b) != 0) with
    | some b => s.trapAddr 0x09 (word b) (word (s.tagAt (sramKey s.coreNo b)).toNat)
    | none => k s

/-! ## The scale cache (R305, R381, R382) -/

/-- header_va. -/
def headerVa (scl el ssh : Word) (a : Nat) : Nat :=
  (scl.toNat + (a + 2 ^ 57 - el.toNat % 2 ^ 57) % 2 ^ 57 / 2 ^ ssh.toNat) % 2 ^ 57 / 2 * 2

/-- The 512 header addresses of an MMUL, A's then B's. -/
def headerVas (s : State) (sa sb : Nat) : List Nat :=
  let el (n : Nat) : Nat := (SMap.get 0 (s.getQuad (quadOf s.coreNo)).elems n).toNat
  ((List.range 256).map (fun n => headerVa s.ctx.scla s.ctx.ela s.ctx.ssha ((el sa + 128 * (n / 8) + 16 * (n % 8)) % 2 ^ 57))) ++
  ((List.range 256).map (fun n => headerVa s.ctx.sclb s.ctx.elb s.ctx.sshb ((el sb + 128 * (n / 8) + 16 * (n % 8)) % 2 ^ 57)))

/-- A header that the quad's cache serves: until the lease of its line has ended. -/
def cachedHeader (s : State) (va : Nat) : Option Word :=
  ((s.getQuad (quadOf s.coreNo)).scale.find? (fun e => e.1 == s.owner && e.2.1 == va && decide (s.time < e.2.2.2))).map (fun e => e.2.2.1)

/-- A header comes into the cache with the lease of the line it was read from, if there is one. -/
def keepHeader (s : State) (va : Nat) (h : Word) : State :=
  match s.l1Find s.coreNo s.owner va with
  | some e =>
    let q := s.getQuad (quadOf s.coreNo)
    s.setQuad (quadOf s.coreNo) { q with scale := ((s.owner, va, h, e.stop) :: q.scale).take 8192 }
  | none => s

/-- Fetch headers in order, each an ordinary far load of 2 bytes (R305); the first that cannot be had ends the acceptance. -/
def headers (s : State) (k : State → List Word → State) : List Nat → List Word → State
  | [], got => k s got.reverse
  | va :: rest, got =>
    match s.cachedHeader va with
    | some h => s.headers k rest (h :: got)
    | none =>
      s.drainSector s.owner va fun s =>
        let acc := s.access (.load 1) va 2 0 0 0
        match s.perform acc with
        | (.value lo _, s) => (s.keepHeader va lo).headers k rest (lo :: got)
        | (.service v, s) => s.blockAgain s.owner va v false
        | (a, s) => s.settleAnswer acc a

/-- A context that waits for a header is in the middle of an acceptance (R385). -/
def accepting (s : State) : State := if s.ctx.wait = .again 0 then s.await (.again 9) else s

/-! ## Starting and completing (R375, R376, R380) -/

/-- Whether two commands name the same slot or accumulator, or local ranges that overlap. -/
def matClash (a b : MatCmd) : Bool :=
  let slots (m : MatCmd) : List Nat := [m.slotA, m.slotB].filter (· < 64)
  (slots a).any (fun n => (slots b).contains n) || (a.acc == b.acc && decide (a.acc < 8)) ||
  (decide (0 < matLen a) && decide (0 < matLen b) && decide (a.addr < b.addr + matLen b) && decide (b.addr < a.addr + matLen a))

/-- The core's next command to start, with what stands before it: every earlier one has started. -/
def nextMat (l : List MatCmd) : Option (List MatCmd × MatCmd × List MatCmd) :=
  match l.dropWhile (·.started) with
  | [] => none
  | m :: rest => some (l.takeWhile (·.started), m, rest)

/-- The next command is clear under R375. -/
def matClear (l : List MatCmd) : Bool :=
  match nextMat l with
  | some (before, m, _) => before.all (fun b => !(matClash b m))
  | none => false

/-- The die and bank of a weight-store key, and whether that bank is out of refresh with n ticks to its next window (R211, R212). -/
def bankFree (s : State) (k n : Nat) : Bool :=
  let e := (k - 2 ^ 40) / 67108864
  let t := (s.time + 2000 * (e / 32)) % 32000
  let start := 1000 * (e % 32)
  let left := (start + 32000 - t) % 32000
  !(decide (start ≤ t) && decide (t < start + 1000)) && decide (n ≤ left)

/-- MLDW's checks on a translated address (R378, R380): the refusal code, or none. -/
def weightRefusal (s : State) (core k : Nat) : Option Nat :=
  let e := (k - 2 ^ 40) / 67108864
  if storage k ≠ .weight then some 3
  else if ¬ s.sealedExt.contains e then some 4
  else if e / 32 ≠ dieOf core then some 5
  else if s.holder 5 e ≠ s.coreOwner core then some 6
  else none

/-- The arbiter (R376): the core of the quad that is granted, with p and its count; none where no core is clear. -/
def arbitrate (s : State) (quad : Nat) : Option (Nat × Quad) :=
  let q := s.getQuad quad
  let clear (c : Nat) : Bool :=
    let l := (s.getCore (4 * quad + c)).matq
    (match nextMat l with | some (_, m, _) => m.op == 4 | none => false) && matClear l && !(s.enginesHalt (4 * quad + c))
  if clear q.ptr ∧ q.count < (s.getCore (4 * quad + q.ptr)).mwt + 1 then some (q.ptr, { q with count := q.count + 1, busy := some (4 * quad + q.ptr) })
  else match ((List.range 4).map (fun i => (q.ptr + 1 + i) % 4)).find? clear with
    | some c => some (c, { q with ptr := c, count := 1, busy := some (4 * quad + c) })
    | none => none

/-- At throttle level n the arbiter withholds n of every four start slots from MMUL (R14), counted in cycles (log 5). -/
def withheld (s : State) : Bool := decide (s.cycle % 4 < s.power.level)

/-- The poisoned words among n bytes at a key, as offsets in words. -/
def poisonIn (s : State) (k n : Nat) : List Nat := (s.poison.filter (fun p => decide (k / 8 ≤ p) && decide (p < (k + n) / 8))).map (· - k / 8)

/-- n bytes at a key are written, and hold poison in these words alone. -/
def setPoison (s : State) (k n : Nat) (l : List Nat) : State :=
  { s with poison := s.poison.filter (fun p => !(decide (k / 8 ≤ p) && decide (p < (k + n) / 8))) ++ l.map (· + k / 8) }

/-- A load command fills its slot from a key (R380), poison with the data (R89). -/
def fillTile (s : State) (core slot k : Nat) : State :=
  (s.setBytes (slotKey (quadOf core) slot 0) (s.bytesAt k 4096)).setPoison (slotKey (quadOf core) slot 0) 4096 (s.poisonIn k 4096)

/-- The next command of a core is marked started. -/
def markStarted (s : State) (core : Nat) : State :=
  let c := s.getCore core
  match nextMat c.matq with
  | some (before, m, rest) => s.setCore core { c with matq := before ++ { m with started := true } :: rest }
  | none => s

/-- What the weight store answers to an MLDW that starts. -/
inductive Weight where
  | at (k : Nat)
  | waits                         -- for a scrub, a page table or the bank's refresh (R133, R212)
  | lost                          -- it fails (R386)
  deriving DecidableEq, Repr

/-- Where an MLDW that starts finds its tile: a saved one, or one that comes later than the end of its translation and SKB (R226), is translated and checked afresh (R386); each is checked against the extent's holder as it stands (R142), a refusal logged. One that fails is treated as R386 treats a saved one (log 26). -/
def weightSpot (s : State) (core : Nat) (m : MatCmd) : Weight × State :=
  let judge (s : State) (k : Nat) : Weight × State :=
    match s.weightRefusal core k with
    | some c => (.lost, if c = 6 then s.logCode core (s.coreOwner core) m.va k 3 else s)
    | none => (if s.scrubbing k ∨ ¬ s.bankFree k 200 then .waits else .at k, s)
  if m.recheck ∨ m.stop + s.clock.skb < s.time then
    if inWindow m.va then (.lost, s)
    else match s.translate (ifaceOf core) (s.coreOwner core) m.va .read with
      | (.ok (k, _), s) => judge s k
      | (.error v, s) => (if v.kind = 8 then .waits else .lost, s)
  else judge s m.addr

/-- The start of a core's next command (MATRIX_COMMAND_START): an MMUL by the arbiter's grant, which may fall on another core of the quad, and which throttling may withhold (R14); a load fills its slot. On a core whose gang has stopped nothing starts (R189). -/
def matStart (s : State) (core : Nat) : State :=
  let c := s.getCore core
  match nextMat c.matq with
  | none => s
  | some (_, m, _) =>
    if ¬ matClear c.matq ∨ s.enginesHalt core then s
    else if m.op = 4 then
      if (s.getQuad (quadOf core)).busy.isSome ∨ s.withheld then s
      else match s.arbitrate (quadOf core) with
        | some (g, q) => (s.setQuad (quadOf core) q).markStarted (4 * quadOf core + g)
        | none => s
    else if m.op = 2 then (s.fillTile core m.slotA (sramKey core m.addr)).markStarted core
    else if m.op = 3 then
      match s.weightSpot core m with
      | (.at k, s) => (s.fillTile core m.slotA k).markStarted core
      | (.waits, s) => s
      | (.lost, s) => ((s.setBytes (slotKey (quadOf core) m.slotA 0) (List.replicate 4096 0)).markStarted core).report (s.coreOwner core) 0x49 (word m.va) (word m.slotA)
    else s.markStarted core

/-- A product of a poisoned operand word poisons the accumulator elements that it enters: those of its row of A, or of its row of B (R89, log 45). -/
def mmulPoison (s : State) (core : Nat) (m : MatCmd) : State :=
  let a := (s.poisonIn (slotKey (quadOf core) m.slotA 0) 4096).map (· / 16)
  let b := (s.poisonIn (slotKey (quadOf core) m.slotB 0) 4096).map (· / 16)
  if a = [] ∧ b = [] then s
  else
    let k := accKey core m.acc 0
    s.setPoison k 4096 ((List.range 512).filter (fun w => (s.poisonIn k 4096).contains w || a.contains (w / 16) || b.contains (w % 16 * 2) || b.contains (w % 16 * 2 + 1)))

/-- A tile stored from a poisoned accumulator is poisoned where it holds those elements (R89, log 45). -/
def mstorePoison (s : State) (core : Nat) (m : MatCmd) : State :=
  let w := widthOf m.fmt / 8
  s.setPoison (sramKey core m.addr) (matLen m) (firsts ((s.poisonIn (accKey core m.acc 0) 4096).map (fun p => 2 * p * w / 8)))

/-- What a command has done when it completes. -/
def matEffect (s : State) (core : Nat) (m : MatCmd) : State :=
  if m.op = 4 then
    let q := s.getQuad (quadOf core)
    ((s.setBytes (accKey core m.acc 0) ((s.mmulWords (quadOf core) core m).map (toBytes 4)).flatten).mmulPoison core m).setQuad (quadOf core) { q with busy := none }
  else if m.op = 5 then (s.clearMem (accKey core m.acc 0) (accKey core m.acc 4096)).setPoison (accKey core m.acc 0) 4096 []
  else if m.op = 6 then
    let bs := s.mstoreBytes core m
    ((s.clearTags (sramKey core m.addr) (sramKey core (m.addr + matLen m))).storeLocal (sramKey core m.addr) (offsets bs)).mstorePoison core m
  else s

/-- The oldest started command of a core completes and frees its entry (MATRIX_COMMAND_COMPLETE). -/
def matComplete (s : State) (core : Nat) : State :=
  match (s.getCore core).matq.find? (·.started) with
  | none => s
  | some m =>
    let s := s.matEffect core m
    let c := s.getCore core
    s.setCore core { c with matq := c.matq.erase m }

/-- MSTAT's words (R384). -/
def mstatWord (s : State) (sel : Nat) : Word :=
  let mine := (List.range 64).filter (fun n => s.claims s.coreNo n)
  if sel = 0 then
    word (s.core.matq.length + bit (s.core.matq.any (fun m => m.op == 4 && m.started)) * 8 + mine.length * 256 + bit (s.unitHeld s.coreNo) * 65536)
  else if sel = 1 then word ((mine.map (2 ^ ·)).sum)
  else word ((((List.range 64).filter (fun n => decide (s.claimOf s.coreNo n < 4))).map (2 ^ ·)).sum)

end State

/-! ## The instructions -/

/-- MCLAIM (R379). -/
def execMclaim (rd sa cnt : Nat) (s : State) : Host.Outcome State Fault Refusal :=
  .next (s.withUnit fun s =>
    if (State.slotRange sa cnt).all (fun n => s.claimOf s.coreNo n == 4 || s.claims s.coreNo n) then
      ((s.setClaims s.coreNo (s.coreNo % 4) (State.slotRange sa cnt)).wx rd 0).nextQ
    else (s.wx rd 1).nextQ)

/-- MREL (R379). -/
def execMrel (sa cnt : Nat) (s : State) : Host.Outcome State Fault Refusal :=
  .next (s.withUnit fun s =>
    let l := State.slotRange sa cnt
    if s.core.matq.any (fun m => l.contains m.slotA || l.contains m.slotB) then s.await (.again 0)
    else (s.setClaims s.coreNo 4 (l.filter (fun n => s.claims s.coreNo n))).nextQ)

/-- MLOAD (R380). -/
def execMload (sa ra : Nat) (s : State) : Host.Outcome State Fault Refusal :=
  let a := s.rx ra
  .next (s.withUnit fun s => s.withSlots [sa] fun s => s.tileChecked a 4096 fun s => s.withQueue fun s =>
    (s.setElem s.coreNo sa a).enqueueMat { s.matCmd (.mload sa ra) 2 with slotA := sa, addr := a.toNat, va := a.toNat })

/-- MLDW (R380): service blocks the context, which executes it again; it waits while its extent is under scrub (R133). -/
def execMldw (sa ra : Nat) (s : State) : Host.Outcome State Fault Refusal :=
  let a := s.rx ra
  .next (s.withUnit fun s => s.withSlots [sa] fun s =>
    if a.toNat % 4096 ≠ 0 then s.trapAddr 0x05 a 4096
    else if State.inWindow (va57 a) then s.trapAddr 0x0F a 3
    else match s.translate (ifaceOf s.coreNo) s.owner (va57 a) .read with
      | (.error v, s) => s.blockAgain s.owner (va57 a) v false
      | (.ok (k, t), s) =>
        match s.weightRefusal s.coreNo k with
        | some c => s.trapAddr 0x0F a (word c)
        | none =>
          if s.scrubbing k then s.await (.again 0)
          else s.withQueue fun s => (s.setElem s.coreNo sa a).enqueueMat { s.matCmd (.mldw sa ra) 3 with slotA := sa, addr := k, va := a.toNat, stop := t.stop })

/-- MMUL (R381): a BX4 one once all its headers are at hand. -/
def execMmul (ac sa slb : Nat) (s : State) : Host.Outcome State Fault Refusal :=
  let i : Instr := .mmul ac sa slb
  .next (s.accepts [0, 1, 2, 3, 4, 5, 6] i fun s => s.withUnit fun s => s.withSlots [sa, slb] fun s => s.withQueue fun s =>
    let m : MatCmd := { s.matCmd i 4 with acc := ac, slotA := sa, slotB := slb }
    if s.effFmt = 5 then (s.headers (fun s hs => s.enqueueMat { m with headers := hs }) (s.headerVas sa slb) []).accepting
    else s.enqueueMat m)

/-- MZERO (R383). -/
def execMzero (ac : Nat) (s : State) : Host.Outcome State Fault Refusal :=
  .next (s.withUnit fun s => s.withQueue fun s => s.enqueueMat { s.matCmd (.mzero ac) 5 with acc := ac })

/-- MSTORE (R383). -/
def execMstore (ac ra : Nat) (s : State) : Host.Outcome State Fault Refusal :=
  let i : Instr := .mstore ac ra
  let a := s.rx ra
  .next (s.accepts [0, 1, 2, 3, 4, 6, 7] i fun s => s.withUnit fun s => s.tileChecked a (128 * widthOf s.effFmt) fun s => s.withQueue fun s =>
    s.enqueueMat { s.matCmd i 6 with acc := ac, addr := a.toNat, va := a.toNat })

/-- MSTAT (R384). -/
def execMstat (rd sel : Nat) (s : State) : Host.Outcome State Fault Refusal := .next ((s.wx rd (s.mstatWord sel)).nextQ)

/-! ## Events -/

/-- MATRIX_COMMAND_START. -/
def execMatrixCommandStart (s : State) : Host.Outcome State Fault Refusal := .next (s.matStart s.arg.a)

/-- MATRIX_COMMAND_COMPLETE. -/
def execMatrixCommandComplete (s : State) : Host.Outcome State Fault Refusal := .next (s.matComplete s.arg.a)

end Sys2Proof.Machine
end

