-- ==== Sys2Proof/Machine/Engines.lean ====
section
/-! DEFINITION. The engines: the copy engine of each core, the hub copy engines and the commands of memory cores, with the copy instructions (R113, R174, R234, R257, R258, R387 to R391). -/

namespace Sys2Proof.Machine

/-! ## Engines (R257)

Engine u is core u's copy engine, memory core u − 16384's for u from 16384, or the hub copy engine of hub u − 17500. -/

/-- The interface that translates for an engine (R217). -/
def engineIface (u : Nat) : Nat := if 17500 ≤ u then 16 + (u - 17500) % 4 else ifaceOf u

/-- The number under which an engine waits in a fault entry. -/
def engineUnit (u : Nat) : Nat := 2 ^ 21 + u

/-- The number under which an engine's writes stand. -/
def engineCore (u : Nat) : Nat := 24576 + u

/-- The die whose host port an engine uses (R32). -/
def engineDie (u : Nat) : Nat := if 17500 ≤ u then (hubDies ((u - 17500) % 4)).1 else if u < 16384 then dieOf u else nearDieOfMc (u - 16384)

/-- What an engine meets at an address. -/
inductive Meets where
  | at (k : Nat)
  | stop (code : Nat)             -- R390
  | fault (v : Service)
  | later
  deriving DecidableEq, Repr

/-- A result word (R390). -/
def resultWord (code progress : Nat) : Word := word ((if code = 0 then 0 else 2 ^ 63) + code * 2 ^ 56 + progress % 2 ^ 48 * 2 ^ 8)

namespace CopyCmd

/-- An engine command that moves nothing yet. -/
def blank : CopyCmd :=
  { kind := 0, dst := 0, src := 0, rows := 1, rowb := 0, dstride := 0, sstride := 0, cell := 0, tags := false, strided := false, add := 0, index := [], weights := [], sfmt := 0, sums := [],
    target := none, rid := none, ring := 0, home := 0, key := none, owner := 0, flight := 0, started := false, row := 0, off := 0, pages := [], visible := 0, res := none, filled := false, stopAt := 0 }

/-- Where the next byte to read lies (R387, R393 to R396): none where the bytes are a pool's sums or a gather's row, read already. -/
def source (c : CopyCmd) : Option Nat :=
  if c.kind = 0 then some (wrap (c.src + c.row * c.sstride + c.off))
  else if c.kind = 1 then some (c.src + c.off)
  else if (c.kind = 3 ∧ c.rows ≤ c.row) ∨ (c.kind = 2 ∧ c.reading = false) then none
  else some (wrap (c.src + c.index.getD c.row 0 * c.sstride + (if c.kind = 2 then c.sums.length else c.off)))

/-- The rows to move: a pool's sums are one more. -/
def total (c : CopyCmd) : Nat := if c.kind = 3 then c.rows + 1 else c.rows

/-- PROGRESS (R390): bytes, or rows for a gather and a pool. -/
def progress (c : CopyCmd) : Nat := if 2 ≤ c.kind then min c.row c.rows else c.row * c.rowb + c.off

/-- The spans of destination and source overlap (R389). -/
def overlaps (c : CopyCmd) : Bool :=
  let e := (c.rows : Int) - 1
  let lo (a : Nat) (st : Int) : Int := a + min 0 (e * st)
  let hi (a : Nat) (st : Int) : Int := a + max 0 (e * st) + c.rowb - 1
  decide (lo c.src c.sstride ≤ hi c.dst c.dstride) && decide (lo c.dst c.dstride ≤ hi c.src c.sstride)

/-- n bytes are done. -/
def advance (c : CopyCmd) (n : Nat) : CopyCmd :=
  if c.reading then c
  else if c.rowLen ≤ c.off + n then { c with row := c.row + 1, off := 0, sums := if c.kind = 2 then [] else c.sums } else { c with off := c.off + n }

end CopyCmd

namespace State

/-! ## Queues of engines -/

def engineQueue (s : State) (u : Nat) : List CopyCmd :=
  if 17500 ≤ u then (s.hubCopy.toList.getD ((u - 17500) % 4) []).map (·.2) else (s.getCore u).copyq

/-- Replace the command at the head of an engine's queue. -/
def setHead (s : State) (u : Nat) (c : CopyCmd) : State :=
  if 17500 ≤ u then
    let h := (u - 17500) % 4
    match s.hubCopy.toList.getD h [] with
    | (q, _) :: rest => { s with hubCopy := s.hubCopy.setIfInBounds h ((q, c) :: rest) }
    | [] => s
  else
    let k := s.getCore u
    match k.copyq with
    | _ :: rest => s.setCore u { k with copyq := c :: rest }
    | [] => s

/-- The command at the head leaves. -/
def dropHead (s : State) (u : Nat) : State :=
  if 17500 ≤ u then
    let h := (u - 17500) % 4
    { s with hubCopy := s.hubCopy.setIfInBounds h ((s.hubCopy.toList.getD h []).drop 1) }
  else
    let k := s.getCore u
    s.setCore u { k with copyq := k.copyq.drop 1 }

/-! ## Translation page by page (R234) -/

/-- The same mapping: frame, permissions, REPL and page size, which is its leaf's whatever merged with it in the cache (R222). -/
def sameMapping (a b : Trans) (page : Nat) : Bool :=
  pageFrame a page == pageFrame b page && a.read == b.read && a.write == b.write && a.exec == b.exec && a.repl == b.repl && a.leaf == b.leaf

/-- Keep a page's translation, in place of that of another page of the same use. -/
def keepPage (l : List (Nat × Bool × Trans)) (page : Nat) (w : Bool) (t : Trans) : List (Nat × Bool × Trans) :=
  (page, w, t) :: l.filter (fun e => e.2.1 != w)

/-- A write through a page translation in use is noted where its interface does not keep that translation (R236). -/
def notePage (s : State) (iface : Nat) (t : Trans) : State :=
  if (s.getIface iface).leaf.any (fun x => x.owner == t.owner && x.va == t.va && x.size == t.size && x.dirty) then s else s.noteDirty iface t false

/-- An engine's walk for a page: for an access, or for a lease alone, which writes nothing and logs nothing (R234, R236). -/
def engineWalk (s : State) (u owner va : Nat) (need : Need) (access : Bool) : Except Service Trans × State :=
  if access then
    let r := s.translate (engineIface u) owner va need
    (r.1.map (·.2), r.2)
  else
    let r := s.lookUp (engineIface u) owner va need
    (r.1.map (·.2.1), match r.1 with | .error v => r.2.logWalk owner va v | .ok _ => r.2)

/-- The page translation that an engine uses at an address, for an access or to renew its lease: the one in use while its lease runs and the host has not denied its page since (R57); walked again where it has ended, and stopped with CHANGED (8) where anything differs; a walk that needs service stops it too, and one that only has to wait is waited for. -/
def enginePage (s : State) (u : Nat) (c : CopyCmd) (va : Nat) (w access : Bool) : Except Meets Trans × CopyCmd × State :=
  let page := va / 4096
  let need : Need := if w then .write else .read
  let fresh : Except Meets Trans × CopyCmd × State := match s.engineWalk u c.owner va need access with
    | (.ok t, s) => (.ok t, { c with pages := keepPage c.pages page w t }, s)
    | (.error v, s) => (.error (if v.kind = 8 then .later else .fault v), c, s)
  match c.pages.find? (fun e => e.1 == page && e.2.1 == w) with
  | some (_, _, old) =>
    if s.hostDenied (pageFrame old page) need then fresh
    else if s.time < old.stop then (.ok old, c, if w ∧ access then s.notePage (engineIface u) old else s)
    else match s.engineWalk u c.owner va need access with
      | (.ok t, s) => if sameMapping old t page then (.ok t, { c with pages := keepPage c.pages page w t }, s) else (.error (.stop 8), c, s)
      | (.error v, s) => (.error (if v.kind = 8 then .later else .stop 8), c, s)
  | none => fresh

/-- Whether the target of an engine's access takes it, and when (R142, R198, R208, R211, R212, R214). -/
def engineTarget (s : State) (u owner k n : Nat) (w : Bool) : Meets :=
  match storage k with
  | .hbm => if s.holder 4 (k / 2097152) ≠ owner then .stop 2 else if (s.getEntry (entryKey 4 (k / 2097152))).scrub then .later else .at k
  | .weight =>
    let e := (k - 2 ^ 40) / 67108864
    if s.holder 5 e ≠ owner ∨ (isMc u = true) ∨ (w = true ∧ s.sealedExt.contains e = true) then .stop 2
    else if (s.getEntry (entryKey 5 e)).scrub ∨ ¬ s.bankFree k 0 then .later
    else .at k
  | .host => if (s.hostPort (engineDie u)).isNone then .stop 5 else .at k
  | .pooled => if (s.hostPort (engineDie u)).isNone ∨ ¬ s.pooledGood k then .stop 5 else .at k
  | .sram => if s.matHolds ((k - sramBase) / 2097152) ((k - sramBase) % 2097152) n w then .later else .at k
  | .none => .stop 2

/-- The number under which an engine's refused access stands in the log: its core, or a core of a die that borders its hub. -/
def engineLogCore (u : Nat) : Nat := if 17500 ≤ u then engineDie u * 1024 else u

/-- The target's answer to an engine's access at a key, a refusal logged there (R142, R208, R211, R214). -/
def engineAt (s : State) (u : Nat) (c : CopyCmd) (va k n : Nat) (w : Bool) : Meets × State :=
  match s.engineTarget u c.owner k n w with
  | .stop code => (.stop code, s.logCode (engineLogCore u) c.owner va k (if code = 5 then 9 else 3))
  | m => (m, s)

/-- Bytes of a page that the command is still to write lie in a line that another engine holds. -/
def pageTaken (s : State) (c : CopyCmd) (page : Nat) (t : Trans) : Bool :=
  (List.range 22).any (fun i => let off := 192 * i; c.ahead (page * 4096 + off) (if i = 21 then 64 else 192) && s.lineHeld (pageFrame t page + off))

/-- What an engine's access of n bytes within a page names. A copy into a bank that leaves the scratchpad goes on while the change waits for it; other writes to banks that change portion wait (R197). As it reaches a destination page it gives up the one before, and takes the lines of the new one as other engines have finished them (R257). -/
def engineSpot (s : State) (u : Nat) (c : CopyCmd) (va n : Nat) (w : Bool) : Meets × CopyCmd × State :=
  if inWindow va then
    match windowCore va with
    | none => (.stop 2, c, s.logCode (engineLogCore u) c.owner va sramBase 3)
    | some (m, off) =>
      if s.coreOwner m ≠ c.owner then (.stop 2, c, s.logCode (engineLogCore u) c.owner va (sramKey m off) 3)
      else if s.splitSpan m off n ∧ (scratchSize m (s.getCore m) < off + n ∨ (w = true ∧ c.kind ≠ 0)) then (.later, c, s)
      else if scratchSize m (s.getCore m) < off + n then (if m = u then (.stop 11, c, s) else (.stop 2, c, s.logCode (engineLogCore u) c.owner va (sramKey m off) 3))
      else if (s.getEntry (entryOfCore m)).scrub then (.later, c, s)
      else (s.engineTarget u c.owner (sramKey m off) n w, c, s)
  else if w = true ∧ 4096 ≤ (s.getIface (engineIface u)).dirty.length then (.later, c, s)
  else match s.enginePage u c va w true with
    | (.error m, c, s) => (m, c, s)
    | (.ok t, d, s) =>
      let left : CopyCmd := { c with pages := c.pages.filter (fun e => !e.2.1) }
      if w ∧ c.pages.all (fun e => !(e.2.1 && e.1 == va / 4096)) ∧ (s.setHead u left).pageTaken c (va / 4096) t then (.later, left, s)
      else let r := s.engineAt u d va (s.homeKey (t.pa + (va - t.va))) n w; (r.1, d, r.2)

/-! ## Moving bytes (R267, R389) -/

/-- The first words of a run that stop a command: offset and code 3 TAG or 7 POISON. -/
def sourceStop (s : State) (k n : Nat) (tags : Bool) (carries : Bool) : Option (Nat × Nat) :=
  ((List.range ((k % 8 + n + 7) / 8)).map (fun i => k / 8 * 8 + 8 * i)).findSome? (fun a =>
    let t := s.tagAt a
    if t ≠ 0 ∧ (¬ tags ∨ t = 3 ∨ ¬ carries) then some (a - k, 3) else if s.poisoned a 8 then some (a - k, 7) else none)

def destStop (s : State) (k n : Nat) (tags : Bool) : Option (Nat × Nat) :=
  ((List.range ((k % 8 + n + 7) / 8)).map (fun i => k / 8 * 8 + 8 * i)).findSome? (fun a =>
    let t := s.serialTag a
    if t ≠ 0 ∧ (¬ tags ∨ t = 3 ∨ (t = 1 ∧ wbits (word (s.serialNat a 8)) 63 63 = 1)) then some (a - k, 3) else none)

/-- The earlier of two stops, the source's first. -/
def firstStop : Option (Nat × Nat) → Option (Nat × Nat) → Option (Nat × Nat)
  | some a, some b => some (if b.1 < a.1 then b else a)
  | some a, none => some a
  | none, b => b

/-- The pieces of a run that lie in one line each: offset and length. -/
def linePieces (k : Nat) : Nat → Nat → Nat → List (Nat × Nat)
  | 0, _, _ => []
  | fuel + 1, off, n =>
    if n = 0 then []
    else
      let a := k + off
      let start := lineStart a
      let top := if lineIndex (a % 4096) = 21 then start + 64 else start + 192
      let m := min n (top - a)
      (off, m) :: linePieces k fuel (off + m) (n - m)

/-- A line of a run that the host holds as its only copy. -/
def hostOwnsRun (s : State) (k n : Nat) : Option (Nat × Nat) := (linePieces k 4100 0 n).findSome? (fun p => (s.hostOwns (k + p.1)).map (fun q => (q, lineStart (k + p.1))))

/-- One arrival of an engine, with the V of it; in a line that the engine goes on holding it is not visible before the release (R257). -/
def engineArrive (s : State) (u k : Nat) (bs : List Byte) (tag : Option (BitVec 2)) (held : Nat → Bool) : Nat × State :=
  let s := s.markContended (engineCore u) k
  let h := held k
  (if h then 0 else s.formV k bs.length,
   (s.shadowHost (engineCore u) k (offsets bs)).arriveAt (if h then unreleased else 0) (engineCore u) 7 k (offsets bs) tag false)

/-- Write a run plainly, line by line. -/
def engineWrite (s : State) (u k : Nat) (bs : List Byte) (held : Nat → Bool) : Nat × State :=
  (linePieces k 4100 0 bs.length).foldl (fun r e =>
    let w := r.2.engineArrive u (k + e.1) ((bs.drop e.1).take e.2) none held
    (max r.1 w.1, w.2)) (0, s)

/-- Copy words with their tags: an EMPTY word as EMPTY with WQ 0 (R267). A word that is not VAL and where nothing waits for its V is read and changed in one event (R266), as a cell operation changes it. -/
def engineTagged (s : State) (u src dst n : Nat) (held : Nat → Bool) : Nat × State :=
  (List.range (n / 8)).foldl (fun r i =>
    let t := r.2.tagAt (src + 8 * i)
    let bs := if t = 1 then List.replicate 8 0 else r.2.bytesAt (src + 8 * i) 8
    let k := dst + 8 * i
    if r.2.tagAt k ≠ 0 ∧ r.2.arrived.all (fun a => a.key / 8 != k / 8) then
      (r.1, ((r.2.markLine (engineCore u) k true).setTag k t).setWord k (word (ofBytes bs)))
    else
      let w := r.2.engineArrive u k bs (some t) held
      (max r.1 w.1, w.2)) (0, s)

/-- Add words at the destination's point of serialisation (R312, R393). -/
def engineAdd (s : State) (u k add : Nat) (bs : List Byte) (held : Nat → Bool) : Nat × State :=
  (List.range (bs.length / 4)).foldl (fun r i =>
    let a := k + 4 * i
    let w := r.2.engineArrive u a (toBytes 4 (addWord add (r.2.serialNat a 4) (ofBytes ((bs.drop (4 * i)).take 4)))) none held
    (max r.1 w.1, w.2)) (0, s)

/-! ## A pool's sums (R312, R396) -/

/-- The width in bytes of a pool's elements. -/
def poolWidth (sfmt : Nat) : Nat := widthOf sfmt / 8

/-- One step of an element's sum. -/
def poolStep (c : CopyCmd) (acc v : Nat) : Nat :=
  let x := match fmtOf c.sfmt with
    | some f => if c.sfmt = 0 then v else (convFloat f fp32 0 false v).1
    | none => v
  match c.weights[c.row]? with
  | some w => (fp32.fma 0 false w x acc).1
  | none => (fp32.add 0 false acc x).1

/-- Add n bytes of the row under way to the sums. -/
def poolAdd (s : State) (c : CopyCmd) (k n : Nat) : CopyCmd :=
  let w := poolWidth c.sfmt
  let e0 := c.off / w
  { c with sums := ((List.range c.sums.length).zip c.sums).map (fun e =>
      if e0 ≤ e.1 ∧ e.1 < e0 + n / w then poolStep c e.2 (s.natAt (k + (e.1 - e0) * w) w) else e.2) }

/-! ## Stops -/

/-- A command stops with a code (R390): its result word is fixed, and COPYSTOP posted; a COPY packet reports by its status instead (R113). -/
def engineStop (s : State) (u : Nat) (c : CopyCmd) (code va : Nat) (tell : Bool) : State :=
  let r := resultWord code c.progress
  let s := (s.forget (engineUnit u)).setHead u { c with res := some r, stopAt := va, rid := none }
  if u < 17500 ∨ tell then s.report c.owner 0x48 (word va) r else s

/-- An engine's fault is posted, and the command waits (R234); one that cannot be posted, or was answered with FAIL = 1, stops it with FAULT (R436). -/
def engineFault (s : State) (u : Nat) (c : CopyCmd) (va : Nat) (v : Service) (w : Bool) : State :=
  if s.waiting (.agent (engineUnit u)) then s.setHead u c
  else match s.postFault c.owner u va v w (.agent (engineUnit u)) with
    | (.unposted, s) => s.engineStop u c 1 c.unwritten true
    | (_, s) => s.setHead u c

/-- The bytes left in the page of an address. -/
def pageLeft (a : Option Nat) : Nat := match a with | some v => 4096 - v % 4096 | none => 4096

/-- The bytes to do next: within the row and one page of each side. No aligned 8-byte word of the destination is cut (R255): one whose source passes the end of a page is done by itself. -/
def chunkLen (c : CopyCmd) : Nat :=
  if c.reading then min (c.rowb - c.sums.length) (pageLeft c.source)
  else
    let whole := min (c.rowLen - c.off) (pageLeft c.dest)
    let src := if c.kind = 1 then whole else pageLeft c.source
    match c.dest with
    | some d => if whole ≤ src then whole else if 8 ≤ src + d % 8 then src - (d + src) % 8 else min whole (8 - d % 8)
    | none => min whole src

/-- A piece of a push to another package: a whole line, or the largest aligned power of two. -/
def pushSize (va n : Nat) : Nat × Nat :=
  if va = lineStart va ∧ 192 ≤ n ∧ lineIndex (va % 4096) < 21 then (5, 192)
  else if va % 16 = 0 ∧ 16 ≤ n then (4, 16)
  else if va % 8 = 0 ∧ 8 ≤ n then (3, 8)
  else (2, 4)

/-- Send the next piece of a push to another package (R393), one at a time. -/
def pushFar (s : State) (u : Nat) (c : CopyCmd) (pkg town : Nat) : State :=
  let va := c.dest.getD 0
  let z := pushSize va (c.rowLen - c.off)
  let k := sramKey u (c.src + c.off)
  match s.sourceStop k z.2 false true with
  | some (_, code) => s.engineStop u c code va false
  | none =>
    let acc : Access := { kind := .atomic c.add, owner := c.owner, space := c.owner, core := u, va := va, size := z.2, data := 0, cmp := 0, bytes := [], dreg := 0, flight := c.flight, evid := none }
    match s.sendRequest acc 4 pkg (if town = 0 then c.owner else town) z.1 (s.bytesAt k z.2) 16 with
    | (.ok rid, s) => s.setHead u { c with rid := some rid }
    | (.error code, s) => if code = 16 then s.setHead u c else s.engineStop u c 12 va false

/-- The first stop among the pieces of a source, by its offset from the first. -/
def piecesStop (s : State) (tags carries : Bool) : List (Nat × Nat) → Option (Nat × Nat)
  | [] => none
  | (k, n) :: rest => match s.sourceStop k n tags carries with
    | some e => some e
    | none => (s.piecesStop tags carries rest).map (fun e => (e.1 + n, e.2))

/-- The bytes that a command has read or summed already. -/
def kept (c : CopyCmd) : List Byte := if c.kind = 3 then (c.sums.map (toBytes 4)).flatten else c.sums.map (BitVec.ofNat 8)

/-- Move the next bytes, all of them known to be free to move: stop at the first word that a tag rule or poison stops. The source lies in up to two pieces; without a destination a row is read. -/
def moveChunk (s : State) (u : Nat) (c : CopyCmd) (src : List (Nat × Nat)) (dst : Option Nat) (n : Nat) : State :=
  let carries := match dst with | some d => tagged d | none => true
  let e := firstStop (s.piecesStop c.tags carries src) (dst.bind (fun k => s.destStop k n c.tags))
  let m := match e with | some (o, _) => o | none => n
  let bytes := if src.isEmpty then ((kept c).drop c.off).take m else (src.flatMap (fun p => s.bytesAt p.1 p.2)).take m
  let after := c.advance n
  match dst with
  | some d =>
    let va := c.unwritten / 4096 * 4096
    let held (k : Nat) : Bool := e.isNone && storage k != .sram && after.ahead (va + lineStart k % 4096) (lineLen k)
    let r := if c.tags then s.engineTagged u ((src.headD (0, 0)).1) d m held else if c.add = 0 then s.engineWrite u d bytes held else s.engineAdd u d c.add bytes held
    let v := max c.visible r.1
    match e with
    | some (o, code) => r.2.engineStop u { c with off := c.off + o, visible := v } code (c.unwritten + o) false
    | none => r.2.setHead u { after with visible := v }
  | none =>
    match e with
    | some (_, code) => s.engineStop u c code c.unwritten false
    | none =>
      if c.kind = 3 then s.setHead u (CopyCmd.advance (s.poolAdd c ((src.headD (0, 0)).1) n) n)
      else s.setHead u { c with sums := c.sums ++ bytes.map (·.toNat) }

/-- Where n bytes of a source lie, in the order of their addresses: in two pieces where they pass the end of a page. -/
def sourcePieces (s : State) (u : Nat) (c : CopyCmd) (a n : Nat) : Meets × List (Nat × Nat) × CopyCmd × State :=
  let m := min n (pageLeft (some a))
  match s.engineSpot u c a m false with
  | (.at k, c, s) =>
    if m = n then (.at k, [(k, n)], c, s)
    else match s.engineSpot u c (CopyCmd.wrap (a + m)) (n - m) false with
      | (.at j, c, s) => (.at k, [(k, m), (j, n - m)], c, s)
      | (x, c, s) => (x, [], c, s)
  | (x, c, s) => (x, [], c, s)

/-- The lines of a destination page that a command is still to write and that the host holds: the engine takes all of them as it reaches the page (R50, R55, R257). -/
def pageAsks (s : State) (c : CopyCmd) (va k : Nat) : List (Nat × Nat) :=
  if storage k = .sram then []
  else
    let base := k - va % 4096
    (s.host.held.filter (fun h => decide (base ≤ h.2.1) && decide (h.2.1 < base + 4096) && c.ahead (va / 4096 * 4096 + (h.2.1 - base)) (lineLen h.2.1))).map (fun h => (h.1, h.2.1))

/-- One chunk of the command at the head. One that stops at its source stops, like one that stops at its destination, at the first byte of the destination not written, which is then the ADDR of its report or of its packet's record (R113, R390): for a read the model's choice (log 27). -/
def engineChunk (s : State) (u : Nat) (c : CopyCmd) : State :=
  if c.total ≤ c.row then s.setHead u { c with res := some (resultWord 0 c.progress) }
  else if c.rid.isSome then s
  else match c.target with
    | some (pkg, town) => s.pushFar u c pkg town
    | none =>
      let n := chunkLen c
      let from? : Meets × List (Nat × Nat) × CopyCmd × State := match c.source with
        | none => (.at 0, [], c, s)
        | some a => if c.kind = 1 then (.at (sramKey u a), [(sramKey u a, n)], c, s) else s.sourcePieces u c a n
      match from? with
      | (.stop code, _, c, s) => s.engineStop u c code c.unwritten false
      | (.fault v, _, c, s) =>
        -- the page of the source that needs service: the second where the first is at hand
        let a := c.source.getD 0
        s.engineFault u c (if c.pages.any (fun e => !e.2.1 && e.1 == a / 4096) then CopyCmd.wrap (a + pageLeft (some a)) else a) v false
      | (.later, _, c, s) => s.setHead u c
      | (.at _, src, c, s) =>
        let asks : Option ((Nat × Nat)) := src.findSome? (fun p => s.hostOwnsRun p.1 p.2)
        match (if c.reading then none else c.dest) with
        | none => match asks with
          | some (q, a) => (s.setHead u c).askHost q a false
          | none => s.moveChunk u c src none n
        | some d =>
          match s.engineSpot u c d n true with
          | (.stop code, c, s) => s.engineStop u c code c.unwritten false
          | (.fault v, c, s) => s.engineFault u c d v true
          | (.later, c, s) => s.setHead u c
          | (.at kd, c, s) =>
            match s.pageAsks c d kd, asks with
            | [], none => s.moveChunk u c src (some kd) n
            | [], some (q, a) => (s.setHead u c).askHost q a false
            | l, _ => l.foldl (fun s p => s.askHost p.1 p.2 true) (s.setHead u c)

/-! ## Completion (R174, R390, R391) -/

/-- A context's count falls, and its record takes the first error. -/
def countDown (n : Nat) (e : Word) (r : Word) : Nat × Word := (n - 1, if r.toNat / 2 ^ 63 = 1 ∧ e = 0 then r else e)

/-- Some command of an instar still writes into the scratchpad of the core that holds it (R174). -/
def stillTethered (s : State) (k : Key) (i : Instar) : Bool :=
  s.allCopies.any (fun q => q.key == some k && (match i.tethered with | some p => q.intoOwn p | none => false))

/-- The completion reaches the command's context, wherever it is, and an instar's record (R391); the last of those that tether an instar clears TETH in its record, and a ready one that no slot has drawn joins its ring (R174). -/
def noteCopy (s : State) (c : CopyCmd) (r : Word) : State :=
  match c.key with
  | some k =>
    match s.getInstar k with
    | none => s
    | some i =>
      let e := countDown i.copyCount i.copyErr r
      let i := { i with copyCount := e.1, copyErr := e.2 }
      if i.tethered.isSome && !(s.stillTethered k i) then
        let core := i.tethered.getD 0
        let s := (s.setInstar k { i with tethered := none }).writeImage k.die k
        if i.state = InstarState.ready ∧ s.drawnAlready core k = false then s.pushRing k.owner k.die i.prio (.instar k.slot k.die i.flight) else s
      else (s.setInstar k i).writeImage k.die k
  | none =>
    match s.slotOf c.home c.ring with
    | .busy x =>
      let e := countDown x.copyCount x.copyErr r
      s.setSlot c.home c.ring (.busy { x with copyCount := e.1, copyErr := e.2 })
    | _ => s

/-- The entry is released. -/
def engineRelease (s : State) (u : Nat) (c : CopyCmd) (r : Word) : State := (s.dropHead u).noteCopy c r

/-- The fill of the completion cell (R267, R390): refused on CHRY and where CFILL would be; then a COPYSTOP names the cell. -/
def engineFill (s : State) (u : Nat) (c : CopyCmd) (r : Word) : State :=
  let fail (s : State) (c : CopyCmd) : State := (s.report c.owner 0x48 (word c.cell) r).engineRelease u c r
  if s.denied.contains (engineUnit u) then fail { s with denied := s.denied.filter (· != engineUnit u) } c else
  match s.engineSpot u c c.cell 8 true with
  | (.stop _, c, s) => fail s c
  | (.later, c, s) => s.setHead u c
  | (.fault v, c, s) =>
    if s.waiting (.agent (engineUnit u)) then s.setHead u c
    else match s.postFault c.owner u c.cell v true (.agent (engineUnit u)) with
      | (.unposted, s) => fail s c
      | (_, s) => s.setHead u c
  | (.at k, c, s) =>
    if storage k = .pooled ∨ storage k = .weight ∨ s.serialTag k = 2 then fail s c
    else if s.lineHeld k then s.setHead u c
    else match s.hostHolds k with
      | some q => (s.setHead u c).askHost q (lineStart k) true
      | none =>
        let bs := offsets (toBytes 8 r.toNat)
        let tag : Option (BitVec 2) := if s.serialTag k = 0 then none else some 0
        let s := s.markContended (engineCore u) k
        let v := s.formV k 8
        ((s.shadowHost (engineCore u) k bs).arrive (engineCore u) 7 k bs tag tag.isSome).setHead u { c with filled := true, visible := max c.visible v }

/-- Every store of a command's context, wherever that is, is visible (R258). -/
def issuerSeen (s : State) (c : CopyCmd) : Bool :=
  match c.key with
  | some k => s.instarSeen k
  | none => s.storesDone c.home c.ring 7

/-- One step of an engine: its first command starts after the V of every earlier store of its context (R258), moves its next bytes, and in the end fills its cell after the V of every write, and leaves. A COPY packet's command stays for its packet to find. A copy command that starts on a quad which is gated or about to be wakes it, which the spec does not say (log 36). On a core whose gang has stopped it goes no further than the end of its page (R189). -/
def engineStep (s : State) (u : Nat) : State :=
  match s.engineQueue u with
  | [] => s
  | c :: _ =>
    match c.res with
    | some r =>
      if s.time < c.visible ∨ s.arrived.any (fun a => a.core == engineCore u) ∨ 17500 ≤ u ∨ isMc u then s.releaseLines
      else if c.cell ≠ 0 ∧ c.filled = false then s.engineFill u c r
      else s.engineRelease u c r
    | none =>
      if s.denied.contains (engineUnit u) then s.engineStop u c 1 c.unwritten false
      else if s.enginesHalt u ∧ c.pageEnd then s
      else if c.started then (s.engineChunk u c).releaseLines
      else if 17500 ≤ u ∨ s.issuerSeen c then
        let s := if 16384 ≤ u then s else s.wakeCore u
        if c.kind = 0 ∧ c.overlaps then s.engineStop u { c with started := true } 4 c.dst false
        else s.setHead u { c with started := true }
      else s

/-- Up to n steps of an engine. -/
def engineRun (s : State) (u : Nat) : Nat → State
  | 0 => s
  | n + 1 => (s.engineStep u).engineRun u n

/-- The cores with a command in a queue. -/
def busyCores (s : State) : List Nat :=
  let busy (c : Core) : Bool := !c.matq.isEmpty || !c.copyq.isEmpty
  (if busy s.core then [s.coreNo] else []) ++ (s.cores.filter (fun e => e.1 != s.coreNo && busy e.2)).map (·.1)

/-- Every engine and matrix queue with work goes on by one step, and the hub copy engines. -/
def engines (s : State) : State :=
  let s := s.busyCores.foldl (fun s n =>
    let s := s.matComplete n
    (s.matStart n).engineStep n) s
  [0, 1, 2, 3].foldl (fun s h => s.engineStep (17500 + h)) s

/-- The end of a page translation in use (R234): the engine walks again, and goes on or stops. -/
def renewLease (s : State) (u : Nat) : State :=
  match s.engineQueue u with
  | [] => s
  | c :: _ =>
    if c.res.isSome ∨ c.started = false then s
    else match c.pages.find? (fun e => decide (e.2.2.stop ≤ s.time)) with
      | none => s
      | some (page, w, _) =>
        match s.enginePage u c (page * 4096) w false with
        | (.ok _, c, s) => s.setHead u c
        | (.error (.stop code), c, s) => s.engineStop u c code c.unwritten false
        | (.error _, c, s) => s.setHead u c

/-! ## CPY, CPYS, CPYW, CSTAT (R387 to R391) -/

/-- The word of CPYW and CSTAT. -/
def copyStatus (s : State) : Word := word (s.ctx.copyErr.toNat / 256 * 256 + min s.ctx.copyCount 255)

/-- A command enters the core's queue (R388): its context's stores drain first, so that it can start after their V (R258). -/
def submitCopy (s : State) (c : CopyCmd) : State :=
  if 4 ≤ s.core.copyq.length then s.await (.again 0)
  else s.drained fun s =>
    let c := { c with ring := s.running, home := s.coreNo, owner := s.owner, flight := s.ctx.flight }
    let s := s.setCtx { s.ctx with copyCount := s.ctx.copyCount + 1 }
    State.next { s with core := { s.core with copyq := s.core.copyq ++ [c] } }

/-- The checks of R388, then submission. -/
def copy (s : State) (c : CopyCmd) (len : Bool) : State :=
  if ¬ len then s.trap 0x10 1
  else if c.tags = true ∧ (c.dst % 8 ≠ 0 ∨ c.src % 8 ≠ 0 ∨ c.rowb % 8 ≠ 0 ∨ c.dstride % 8 ≠ 0 ∨ c.sstride % 8 ≠ 0) then s.trap 0x10 2
  else if c.cell % 8 ≠ 0 then s.trap 0x10 3
  else s.submitCopy c

end State

/-! ## The instructions -/

/-- CPY. -/
def execCpy (rc rdst rsrc rlen tags : Nat) (s : State) : Host.Outcome State Fault Refusal :=
  let n := (s.rx rlen).toNat
  .next (s.copy { CopyCmd.blank with dst := va57 (s.rx rdst), src := va57 (s.rx rsrc), rowb := n, cell := va57 (s.rx rc), tags := tags == 1 } (decide (0 < n) && decide (n < 2 ^ 48)))

/-- CPYS. -/
def execCpys (rc rdst rsrc rshape tags : Nat) (s : State) : Host.Outcome State Fault Refusal :=
  let a := s.rx rshape
  let b := s.rx (rshape + 1)
  let rows := wbits a 63 32
  let rowb := wbits a 31 0
  .next (s.copy { CopyCmd.blank with dst := va57 (s.rx rdst), src := va57 (s.rx rsrc), rows := rows, rowb := rowb, dstride := toInt 32 (wbits b 63 32), sstride := toInt 32 (wbits b 31 0), cell := va57 (s.rx rc), tags := tags == 1, strided := true }
    (decide (0 < rows) && decide (rows ≤ 65536) && decide (0 < rowb) && decide (rowb ≤ 2 ^ 24) && decide (rows * rowb < 2 ^ 48)))

/-- CPYW (R391). -/
def execCpyw (rd rs1 : Nat) (s : State) : Host.Outcome State Fault Refusal :=
  .next (if (s.rx rs1).toNat < s.ctx.copyCount then s.await (.again 0)
    else
      let w := s.copyStatus
      ((s.setCtx { s.ctx with copyErr := 0 }).wx rd w).next)

/-- CSTAT (R391). -/
def execCstat (rd : Nat) (s : State) : Host.Outcome State Fault Refusal := .next ((s.wx rd s.copyStatus).next)

/-! ## Events -/

/-- ENGINE_COMMAND_COMPLETE: the engine goes on with its first command, to its end where nothing holds it. -/
def execEngineCommandComplete (s : State) : Host.Outcome State Fault Refusal := .next (s.engineRun s.arg.a 4096)

/-- COPY_LEASE_RENEWAL. -/
def execCopyLeaseRenewal (s : State) : Host.Outcome State Fault Refusal := .next (s.renewLease s.arg.a)

/-- REFRESH_WINDOW_END (R212): what waits on a bank of the die goes on; MLDW starts and the engines' accesses test the window themselves. -/
def execRefreshWindowEnd (s : State) : Host.Outcome State Fault Refusal :=
  .next ((s.busyCores.filter (fun n => dieOf n == s.arg.a)).foldl (fun s n => (s.matStart n).engineStep n) s)

end Sys2Proof.Machine
end

