-- ==== Sys2Proof/Machine/Sync.lean ====
section
/-! DEFINITION. Atomics (R347 to R349), fences and barriers (R250 to R254, R350, R351), and cell operations (R352 to R354). -/

namespace Sys2Proof.Machine

namespace State

/-! ## Release and acquire (R251 to R253) -/

/-- A release at a scope (R251): the context's stores drain, and it waits until the V of every one that the scope covers has passed. -/
def release (s : State) (scope : Nat) (k : State → State) : State :=
  s.drained fun s => if s.storesDone s.coreNo s.running scope then k s else s.await (.again 4)

/-- FENCE at a scope (R250 to R253): ord 1 .acq, 2 .rel, 3 .ar. An acquire finds every earlier load and atomic of the context returned (R249, R252), and invalidates nothing. -/
def fence (s : State) (ord scope : Nat) : State :=
  s.inScope scope fun s => if ord = 1 then s.drained next else s.release scope next

/-! ## Atomics -/

/-- An atomic (R347 to R349, R355): the grants, alignment, the release of .rel and .ar, then its access; the acquire of .acq and .ar finds nothing outstanding after the result. -/
def atomic (s : State) (op rd rs1 rs2 ord pf scope : Nat) : State :=
  let n := if op = 10 then 4 else 8
  let va := va57 (s.rx rs1)
  let t := s.rx (rs1 + 1)
  s.inScope (if ord = 0 then 0 else scope) fun s => s.inScope (if pf = 0 then 0 else 5) fun s => s.aligned va n fun s =>
    let go (s : State) : State :=
      let acc := s.access (.atomic op) va n rd (s.rx rs2) (s.rx rd)
      if pf = 0 then s.issue acc
      else if targetPkg t = s.pkgNum then
        if s.targetOwner t = s.owner then s.issue acc
        else (s.logTo s.coreNo (s.targetOwner t) s.owner va sramBase 2).trapAddr 0x0C (word va) 2
      else s.issueRemote acc 2 (targetPkg t) (s.targetOwner t) (if op = 10 then 2 else 3) (toBytes 8 (s.rx rs2).toNat ++ toBytes 8 (s.rx rd).toNat)
    if ord = 2 ∨ ord = 3 then s.release scope go else go s

/-! ## BAR (R254, R351) -/

/-- The scope under which an instance is kept: .pod and .sys count together. -/
def barScope (scope : Nat) : Nat := if scope = 7 then 5 else scope

/-- What names the instance that a context of a core meets (R351): the flight or the owner, and the place. -/
def barName (s : State) (scope : Nat) : Nat := if scope ≤ 4 then s.ctx.flight else s.owner
def barPlace (core scope : Nat) : Nat := if scope = 1 then core else if scope = 2 then core / 4 else if scope = 3 then core / 1024 else 0

/-- The largest n (R351). -/
def barMax (scope : Nat) : Nat :=
  if scope = 1 then 4 else if scope = 2 then 16 else if scope = 3 then 1024 else if scope = 4 ∨ scope = 6 then 16384 else 100663296

/-- A resident context's wait changes. -/
def setWait (s : State) (core slot : Nat) (w : Wait) : State :=
  match s.slotOf core slot with
  | .busy c => s.setSlot core slot (.busy { c with wait := w })
  | _ => s

/-- A participant of a complete episode leaves: a context that does not hold its BAR fetched, as one that a gang's return has restored, has nothing left of it to do. -/
def leaveBar (s : State) (core slot : Nat) : State :=
  match s.slotOf core slot with
  | .busy c => s.setSlot core slot (.busy (if c.word.isSome then { c with wait := .barDone } else { c with wait := .ready, pc := c.pc + 4 }))
  | _ => s

/-- The episode of an instance is complete: it closes, and its participants leave. -/
def barComplete (s : State) (b : Barrier) : State :=
  b.members.foldl (fun s m => s.leaveBar m.1 m.2) { s with barriers := s.barriers.filter (fun x => x.id != b.id) }

def findBar (s : State) (scope name place : Nat) : Option Barrier :=
  s.barriers.find? (fun b => b.scope == scope && b.name == name && b.place == place)

/-- One arrival is counted (R351): the first fixes n, the nth completes the episode. -/
def barArrive (s : State) (scope name place n : Nat) (member : List (Nat × Nat)) : Nat × State :=
  match s.findBar scope name place with
  | some b =>
    let b := { b with count := b.count + 1, members := b.members ++ member }
    let s := { s with barriers := s.barriers.map (fun x => if x.id = b.id then b else x) }
    (b.id, if b.n ≤ b.count then s.barComplete b else s)
  | none =>
    let b : Barrier := { id := s.nextBar, scope := scope, name := name, place := place, n := n, count := 1, members := member }
    let s := { s with barriers := s.barriers ++ [b], nextBar := s.nextBar + 1 }
    (b.id, if n ≤ 1 then s.barComplete b else s)

/-- The token of one arrival at a pod barrier (R68, R254): a BAR transaction for each package that the routing table names, with the owner identifier and n (log 41). -/
def sendTokens (s : State) (o n : Nat) : State :=
  (s.fabric.routes.filter (fun r => r.2.isSome)).foldl (fun s r =>
    s.sendFree r.1 (s.coreNo % 16384) { w0 := word (16 * 2 ^ 59 + r.1 * 2 ^ 43 + s.pkgNum * 2 ^ 30 + s.coreNo % 16384 * 2 ^ 16), w1 := word (o * 2 ^ 48 + o * 2 ^ 32), w2 := word n, w3 := 0, data := [] }) s

/-- BAR: release, arrival, wait, acquire. -/
def barrier (s : State) (scope rs1 : Nat) : State :=
  s.inScope scope fun s =>
    match s.ctx.wait with
    | .barDone => s.next
    | .bar _ _ => s
    | _ =>
      s.release scope fun s =>
        let n := min (s.rx rs1).toNat (barMax scope)
        if n = 0 then s.next
        else
          let s := if scope = 5 ∨ scope = 7 then s.sendTokens s.owner n else s
          let i := s.nextBar
          let sc := barScope scope
          let name := s.barName scope
          let place := barPlace s.coreNo scope
          let id := match s.findBar sc name place with | some b => b.id | none => i
          let r := (s.await (.bar id scope)).barArrive sc name place n [(s.coreNo, s.running)]
          if r.2.ctx.wait = .barDone then r.2.next else r.2

/-! ## Cell operations -/

/-- A write of the context at the home of a word: service blocks the instruction, which executes again (R187); an answer other than OK is a FARERR at the word; a line the host holds is asked for (R50). -/
def atHome (s : State) (va : Nat) (k : State → Nat → State) : State :=
  match s.locate s.coreNo s.owner va 8 .write with
  | (.service v, s) => s.blockAgain s.owner va v true
  | (.later, s) => s.await (.again 0)
  | (.code c a, s) => (s.logCode s.coreNo s.owner va a c).trapAddr 0x0C (word va) (word c)
  | (.at a _, s) =>
    if s.ownPending s.coreNo a false then s.await (.again 0)
    else match s.hostHolds a with
      | some p => (s.askHost p (lineStart a) true).await (.again 0)
      | none => k s a

/-- Four bytes go to the upper half of a packet's word 0: FLIGHT (R157). -/
def putFlight (s : State) (h a : Nat) : State :=
  let bs := offsets (toBytes 4 s.ctx.flight)
  ((s.shadowHost s.coreNo (a + 4) bs).dropSector s.coreNo s.owner h).arrive s.coreNo s.running (a + 4) bs none false

/-- The running context has a write at a key whose V is still to come. -/
def unseen (s : State) (a n : Nat) : Bool :=
  let b : By := { core := s.coreNo, slot := s.running }
  s.arrived.any (fun w => isBy b w.core w.home w.slot w.inst && decide (w.key < a + n) && decide (a < w.key + reach w.bytes))

/-- The flight number goes into FLIGHT of the packet (R354): an ordinary far write of the context, after its own stores to that sector. Goes on once the V of that write has passed; a wait meanwhile keeps that it has been made. -/
def writeFlight (s : State) (h : Nat) (k : State → State) : State :=
  let made (t : State) : State := if t.ctx.wait = .again 0 ∨ t.ctx.wait = .again 11 then t.await (.again 8) else t
  let go (s : State) (a : Nat) : State := if s.unseen (a + 4) 4 then s.await (.again 8) else made (k s)
  match s.ctx.wait with
  | .again 8 => made (s.atHome h go)
  | _ => s.drainSector s.owner h fun s => s.atHome h fun s a =>
    if ¬ s.plainWord a then (s.logCode s.coreNo s.owner h a 10).trapAddr 0x0C (word h) 10 else go (s.putFlight h a) a

/-- A cell operation (R352 to R354): alignment, then the operand word of CMK and CREVERT, then CMK's FLIGHT write, then the home. -/
def cellOp (s : State) (f3 rd rs1 rs2 : Nat) : State :=
  let va := va57 (s.rx rs1)
  let w := s.rx rs2
  s.aligned va 8 fun s =>
    if (f3 = 0 ∨ f3 = 4) ∧ (wbits w 61 57 ≠ 0 ∨ wbits w 4 0 ≠ 0) then (s.wx rd (cellResult true 0 0)).next
    else
      let go (s : State) : State := s.issue (s.access (.cell f3) va 8 rd w 0)
      if f3 = 0 then s.writeFlight (wbits w 56 5 * 32) go else go s

end State

/-! ## The instructions -/

/-- AMOADD. -/
def execAmoadd (rd rs1 rs2 ord pf scope : Nat) (s : State) : Host.Outcome State Fault Refusal := .next (s.atomic 0 rd rs1 rs2 ord pf scope)

/-- AMOSWAP. -/
def execAmoswap (rd rs1 rs2 ord pf scope : Nat) (s : State) : Host.Outcome State Fault Refusal := .next (s.atomic 1 rd rs1 rs2 ord pf scope)

/-- AMOCAS. -/
def execAmocas (rd rs1 rs2 ord pf scope : Nat) (s : State) : Host.Outcome State Fault Refusal := .next (s.atomic 2 rd rs1 rs2 ord pf scope)

/-- AMOMIN. -/
def execAmomin (rd rs1 rs2 ord pf scope : Nat) (s : State) : Host.Outcome State Fault Refusal := .next (s.atomic 3 rd rs1 rs2 ord pf scope)

/-- AMOMAX. -/
def execAmomax (rd rs1 rs2 ord pf scope : Nat) (s : State) : Host.Outcome State Fault Refusal := .next (s.atomic 4 rd rs1 rs2 ord pf scope)

/-- AMOMINU. -/
def execAmominu (rd rs1 rs2 ord pf scope : Nat) (s : State) : Host.Outcome State Fault Refusal := .next (s.atomic 5 rd rs1 rs2 ord pf scope)

/-- AMOMAXU. -/
def execAmomaxu (rd rs1 rs2 ord pf scope : Nat) (s : State) : Host.Outcome State Fault Refusal := .next (s.atomic 6 rd rs1 rs2 ord pf scope)

/-- AMOAND. -/
def execAmoand (rd rs1 rs2 ord pf scope : Nat) (s : State) : Host.Outcome State Fault Refusal := .next (s.atomic 7 rd rs1 rs2 ord pf scope)

/-- AMOOR. -/
def execAmoor (rd rs1 rs2 ord pf scope : Nat) (s : State) : Host.Outcome State Fault Refusal := .next (s.atomic 8 rd rs1 rs2 ord pf scope)

/-- AMOXOR. -/
def execAmoxor (rd rs1 rs2 ord pf scope : Nat) (s : State) : Host.Outcome State Fault Refusal := .next (s.atomic 9 rd rs1 rs2 ord pf scope)

/-- AMOFADD. -/
def execAmofadd (rd rs1 rs2 ord pf scope : Nat) (s : State) : Host.Outcome State Fault Refusal := .next (s.atomic 10 rd rs1 rs2 ord pf scope)

/-- FENCE.acq. -/
def execFenceAcq (scope : Nat) (s : State) : Host.Outcome State Fault Refusal := .next (s.fence 1 scope)

/-- FENCE.rel. -/
def execFenceRel (scope : Nat) (s : State) : Host.Outcome State Fault Refusal := .next (s.fence 2 scope)

/-- FENCE.ar. -/
def execFenceAr (scope : Nat) (s : State) : Host.Outcome State Fault Refusal := .next (s.fence 3 scope)

/-- BAR. -/
def execBarInstruction (scope rs1 : Nat) (s : State) : Host.Outcome State Fault Refusal := .next (s.barrier scope rs1)

/-- CMK. -/
def execCmk (rd rs1 rs2 : Nat) (s : State) : Host.Outcome State Fault Refusal := .next (s.cellOp 0 rd rs1 rs2)

/-- CEMPTY. -/
def execCempty (rd rs1 rs2 : Nat) (s : State) : Host.Outcome State Fault Refusal := .next (s.cellOp 1 rd rs1 rs2)

/-- CFILL. -/
def execCfill (rd rs1 rs2 : Nat) (s : State) : Host.Outcome State Fault Refusal := .next (s.cellOp 2 rd rs1 rs2)

/-- CTAG. -/
def execCtag (rd rs1 rs2 : Nat) (s : State) : Host.Outcome State Fault Refusal := .next (s.cellOp 3 rd rs1 rs2)

/-- CREVERT. -/
def execCrevert (rd rs1 rs2 : Nat) (s : State) : Host.Outcome State Fault Refusal := .next (s.cellOp 4 rd rs1 rs2)

end Sys2Proof.Machine
end

