-- ==== Sys2Proof/Machine/Tasks.lean ====
section
/-! DEFINITION. Tasks: SPAWN, SUSP, YIELD, DONE and HALT (R157 to R167, R180, R336, R397 to R401, R409), and the ring slots that draw, start and resume work. -/

namespace Sys2Proof.Machine

namespace State

/-! ## The yield deadline and the switch decision (R155, R188, R191) -/

def setFlight (s : State) (f : Flight) : State :=
  { s with flights := { s.flights with list := s.flights.list.map (fun g => if g.num = f.num ∧ g.owner = f.owner then f else g) } }

/-- The virtual address of a cocoon slot (R191). -/
def cocoonVa (n : Nat) : Nat := 0x1FE000100000000 + n * 0x200000

/-- The cocoon slots of an owner that saved or switching gangs hold. -/
def heldCocoons (s : State) (owner : Nat) : List Nat :=
  ((s.flights.list.filter (fun f => f.owner == owner)).map (fun f => f.cocoons.map (fun c => c.2.2.2))).flatten

/-- The cores of a flight with group and member, in core-number order. -/
def members (f : Flight) : List (Nat × Nat × Nat) :=
  let l := ((List.range f.groups.length).zip f.groups).map (fun g => ((List.range g.2.length).zip g.2).map (fun m => (m.2, g.1, m.1)))
  sortBy (fun (a b : Nat × Nat × Nat) => decide (a.1 ≤ b.1)) l.flatten

/-- Take a free cocoon slot for each core (R191): the lowest whose first page translates for write without service. -/
def takeCocoons (s : State) (owner : Nat) : List (Nat × Nat × Nat) → List Nat → Option (List (Nat × Nat × Nat × Nat))
  | [], _ => some []
  | m :: ms, held =>
    let good (n : Nat) : Bool := !held.contains n && (match (s.lookUp (dieOf m.1) owner (cocoonVa n) .write).1 with | .ok _ => true | .error _ => false)
    match firstFrom good 16384 0 with
    | none => none
    | some n => (s.takeCocoons owner ms (n :: held)).map (fun l => (m.2.1, m.2.2, m.1, n) :: l)

/-- Whether at time t a flight of the same owner waited at an equal or higher priority (R155): one that had joined its list by then and was not placed before. -/
def someWaits (s : State) (f : Flight) (t : Nat) : Bool :=
  s.flights.list.any (fun g => g.owner == f.owner && g.num != f.num && decide (g.joined ≤ t) && (g.state == .waiting || g.state == .saved || (g.state == .placed && decide (t < g.placedAt))) && decide (f.prio ≤ g.prio))

/-- Decide a switch at an event of time t (R155): at t + 2,000 if a flight waits and cocoon slots are found; otherwise the deadline moves. -/
def decideSwitch (s : State) (f : Flight) (t : Nat) : Bool × State :=
  let rearm (s : State) : Bool × State := (false, if f.ydl = 0 then s else s.setFlight { f with deadline := t + f.ydl })
  if ¬ s.someWaits f t then rearm s
  else match s.takeCocoons f.owner (members f) (s.heldCocoons f.owner) with
    | none => rearm s
    | some l => (true, s.setFlight { f with state := .switching, switchAt := some (t + 2000), cocoons := l })

/-- A YIELD of a flight's context (R155): cooperative while the deadline has not passed. -/
def yieldEvent (s : State) (num : Nat) : State :=
  match s.flight? s.owner num with
  | none => s
  | some f => if f.state = .placed ∧ (f.ydl = 0 ∨ s.time ≤ f.deadline) then (s.decideSwitch f s.time).2 else s

/-! ## Ending (R159, R275, R336) -/

/-- Whether a context's copy commands and MSTOREs have all completed. -/
def enginesDone (s : State) : Bool :=
  s.allCopies.all (fun q => !(q.ring == s.running && q.home == s.coreNo && q.key.isNone)) && s.allMatrix.all (fun m => !(m.op == 6 && m.ring == s.running && m.home == s.coreNo && m.key.isNone))

/-- An evaluator of a cell ends with it still ECLO: the owner gets a STALL report (R275). A freed number may stand for another cell's evaluation by then (R272). -/
def evaluatorGone (s : State) (evc : Word) (cell : Nat) : State :=
  if wbits evc 63 63 = 0 then s
  else match s.evals.find? (fun e => e.evid == wbits evc 15 0 && e.va == cell) with
    | some e => if s.tagAt e.cell = 3 ∧ wbits (s.wordAt e.cell) 15 0 = e.evid then s.report e.owner 0x0B (word e.va) 0 else s
    | none => s

/-- The running context ends and its slot is empty. -/
def endSlot (s : State) : State :=
  let s := s.evaluatorGone s.ctx.evc s.ctx.evcell
  { s with live := false, core := { s.core with slots := s.core.slots.setIfInBounds s.running (.empty 0) } }

/-- DONE's and HALT's first step (R159, R336): engines complete and every earlier store visible. -/
def finishing (s : State) (k : State → State) : State :=
  if s.enginesDone then s.release 7 k else s.await (.again 0)

/-! ## Ready work and dependence counts (R159, R166) -/

/-- A DEPZERO or BADTASK report's DETAIL. -/
def depDetail (named : Bool) (code : Nat) : Word := word (bit named * 2 ^ 63 + code)

/-- The code of a failed device access (R159). -/
def readFailCode : ReadFail → Nat
  | .code c => c
  | .service _ _ => 4
  | .later => 4

/-- A word at its home for a device atomic that waits for no service: its key, or why not. -/
def atomicSpot (s : State) (va : Nat) : Except ReadFail Nat × State :=
  match (s.dirtyRoom (ifaceOf s.coreNo)).locate s.coreNo s.owner va 8 .write with
  | (.at k _, s) =>
    if storage k = .pooled then (.error (.code 9), s)
    else if (s.hostHolds k).isSome then (.error .later, match s.hostHolds k with | some p => s.askHost p (lineStart k) true | none => s)
    else if s.poisoned k 8 then (.error (.code 9), s)
    else if ¬ s.plainWord k then (.error (.code 10), s)
    else (.ok k, s)
  | (.code c k, s) => (.error (.code c), s.logCode s.coreNo s.owner va k c)
  | (.service v, s) => (.error (.service v va), s)
  | (.later, s) => (.error .later, s)

/-- Go on once an entry of a ready ring can be written: the running context stays resident while its page needs service (R161). -/
def withEntry (s : State) (die prio n : Nat) (k : State → State) : State :=
  if s.workWaits s.coreNo s.running then s.await (.again 0)
  else if s.denied.contains (s.coreNo * 4 + s.running) then State.freezeRefused { s with denied := s.denied.filter (· != s.coreNo * 4 + s.running) } (ringVa die prio n) true
  else match s.lookUp die s.owner (ringVa die prio n) .write with
  | (.ok _, s) => k s
  | (.error v, s) =>
    match (s.logOnce s.owner (ringVa die prio n) v).workFault s.owner s.coreNo s.running (ringVa die prio n) v true with
    | (.refused va f, s) => s.freezeRefused va f
    | (_, s) => s.await (.again 0)

/-- The same for the next entry of a ring, where one is free. -/
def withRing (s : State) (die prio : Nat) (k : State → State) : State :=
  match ringNext (s.queued s.owner die prio) with
  | none => k s
  | some n => s.withEntry die prio n k

/-- One successor's decrement (R159): at zero it becomes ready on this die, with FLIGHT set if it was 0 and can be written (R398). -/
def decrement (s : State) (h : Nat) : State :=
  match s.atomicSpot (h + 8) with
  | (.error e, s) => s.report s.owner 0x45 (word h) (depDetail false (readFailCode e))
  | (.ok k, s) =>
    let w1 := word (s.serialNat k 8)
    let d := wbits w1 63 48
    if d = 0 then s.report s.owner 0x45 (word h) (depDetail false 0)
    else
      let bs := offsets (toBytes 2 (d - 1))
      let s := (s.shadowHost s.coreNo (k + 6) bs).arrive s.coreNo s.running (k + 6) bs none false
      if d ≠ 1 then s
      else match s.atomicSpot h with
        | (.error _, s) => s.pushRing s.owner s.workDie (wbits w1 39 38) (.task h s.ctx.flight (wbits w1 39 38) none)
        | (.ok a, s) =>
          let fl := s.serialNat (a + 4) 4
          let s := if fl = 0 then s.putFlight h a else s
          let fl := if fl = 0 then s.ctx.flight else fl
          s.pushRing s.owner s.workDie (wbits w1 39 38) (.task h fl (wbits w1 39 38) none)

/-- Whether a successor's words only have to be waited for. -/
def succWaits (s : State) (h : Nat) : Bool × State :=
  match s.atomicSpot (h + 8) with
  | (.error .later, s) => (true, s)
  | (_, s) => match s.atomicSpot h with
    | (.error .later, s) => (true, s)
    | (_, s) => (false, s)

/-- An entry that a ring still wants for an item that it has come to hold since t, though one is free (R161): its priority and number. -/
def ringShort (s t : State) : Option (Nat × Nat) :=
  let held (s : State) (p : Nat) : Nat := ((s.queued t.owner t.workDie p).filter (·.spot.isNone)).length
  [3, 2, 1, 0].findSome? (fun p => if held t p < held s p then (ringNext (s.queued t.owner t.workDie p)).map (fun n => (p, n)) else none)

/-- DONE's decrements (R159), all once the words that they read can be read and the ring of every successor that becomes ready can be written (R161), and then the end of the context. -/
def complete (s : State) (h : Word) (k : State → State) : State :=
  if badHandle h then k (s.report s.owner 0x45 h (depDetail true 0))
  else match s.readPacket s.coreNo s.owner h.toNat with
    | (.error .later, s) => s.await (.again 0)
    | (.error e, s) => k (s.report s.owner 0x45 h (depDetail true (readFailCode e)))
    | (.ok ws, s) =>
      if malformed ws s.core.clim then k (s.report s.owner 0x45 h (depDetail true 0))
      else
        let l := (successors ws).map (·.toNat)
        let r := l.foldl (fun (a : Bool × State) x => if a.1 then a else a.2.succWaits x) (false, s)
        if r.1 then r.2.await (.again 0)
        else
          let t := l.foldl (fun s x => s.decrement x) r.2
          match t.ringShort r.2 with
          | some (p, n) => r.2.withEntry r.2.workDie p n (fun _ => k t)
          | none => k t

/-! ## SPAWN (R398, R399) -/

/-- Launch a task packet. -/
def spawnTask (s : State) (rd : Nat) (h : Word) : State :=
  let ret (s : State) (c : Nat) : State := (s.wx rd (word c)).next
  if badHandle h then ret s 2
  else match s.readPacket s.coreNo s.owner h.toNat with
    | (.error (.service v va), s) => s.blockAgain s.owner va v false
    | (.error .later, s) => s.await (.again 0)
    | (.error (.code c), s) => s.trapAddr 0x0C h (word c)
    | (.ok ws, s) =>
      if malformed ws s.core.clim then ret s 2
      else s.atHome h.toNat fun s a =>
        if storage a = .pooled then (s.logCode s.coreNo s.owner h.toNat a 9).trapAddr 0x0C h 9
        else if ¬ s.plainWord a then s.trapAddr 0x0C h 10
        else if s.serialNat (a + 4) 4 ≠ 0 then ret s 2
        else
          let w1 := ws.getD 1 0
          if wbits w1 63 48 ≠ 0 then ret (s.putFlight h.toNat a) 1
          else s.withRing s.workDie (wbits w1 39 38) fun s =>
            ret (State.pushRing (s.putFlight h.toNat a) s.owner s.workDie (wbits w1 39 38) (.task h.toNat s.ctx.flight (wbits w1 39 38) none)) 0

/-- Resume, or discard, an instar (R399): mode 2 at the instruction after its PC, which its record then holds. -/
def spawnInstar (s : State) (rd : Nat) (h : Word) (mode : Nat) : State :=
  let ret (s : State) (c : Nat) : State := (s.wx rd (word c)).next
  let k := keyOf h
  match s.getInstar k with
  | none => ret s 4
  | some i =>
    if k.owner ≠ s.owner ∨ wbits h 27 0 ≠ 0 then ret s 4
    else if ¬ (i.state = .posted ∨ (mode ≠ 2 ∧ i.state = .suspended)) then ret s 3
    else if mode = 3 then
      if i.tethered.isSome then ret s 6 else ret ((s.evaluatorGone i.evc i.evcell).freeInstar k) 0
    else
      let i := if mode = 2 then { i with pc := i.pc + 4, stat := word (wbits i.stat 12 0) } else i
      let go (s : State) : State := ret (if mode = 2 then s.readyImage k i else s.readyInstar k i) 0
      if i.tethered.isSome then go s else s.withRing k.die i.prio go

/-! ## SUSP (R400) -/

/-- The context leaves with WHY 0: ready in its ring, or waiting for the handle that it has published. -/
def suspendAs (s : State) (k : Key) (i : Instar) (published : Bool) : State :=
  let s := s.leave k { i with state := .suspended }
  if published then s else s.readyInstar k i

/-- The handle goes to the word at w as CFILL writes it. -/
def publish (s : State) (rd w : Nat) (k : Key) (go : State → State) : State :=
  s.atHome w fun s a =>
    if storage a = .pooled then (s.logCode s.coreNo s.owner w a 9).trapAddr 0x0C (word w) 9
    else if s.serialTag a = 2 then (s.wx rd 2).next
    else
      let bs := offsets (toBytes 8 (handleOf k).toNat)
      let fill := decide (s.serialTag a ≠ 0)
      go (((s.shadowHost s.coreNo a bs).dropSector s.coreNo s.owner w).arrive s.coreNo s.running a bs (if fill then some 0 else none) fill)

def susp (s : State) (rd rs1 rs2 : Nat) : State :=
  let mask := s.rx rs1
  let w := s.rx rs2
  let n := ((List.range 27).filter (fun i => mask.getLsbD i)).length
  if isMc s.coreNo then (s.wx rd 3).next
  else if wbits mask 63 27 ≠ 0 ∨ 16 < n then (s.wx rd 1).next
  else if rs2 ≠ 0 ∧ w.toNat % 8 ≠ 0 then s.trapAddr 0x05 w 8
  else s.drained fun s =>
    match s.findRoom with
    | (.later, s) => s.await (.again 0)
    | (.refused va f, s) => s.freezeRefused va f
    | (.at slot, s) =>
      let k : Key := { owner := s.owner, die := s.workDie, slot := slot }
      let go (s : State) (published : Bool) : State := s.suspendAs k (s.mkInstar 0 rd mask.toNat (decide (5 < n)) (s.ctx.pc + 4)) published
      if rs2 = 0 then s.withRing s.workDie s.ctx.prio (fun s => go s false) else s.publish rd (va57 w) k (fun s => go s true)

/-- The T of the running context's flight, where its gang is to be switched: the instar of a YIELD that a switch follows stays in its ring, and the yielding context does not run on until T (R155, R180). -/
def switchTime (s : State) : Nat :=
  match s.flight? s.owner s.ctx.flight with
  | some f => if f.state = .switching then f.switchAt.getD 0 else 0
  | none => 0

/-- YIELD (R180, R155): an instar with WHY 1 at the tail of its ring; on a memory core it does nothing (R409). -/
def yieldNow (s : State) : State :=
  if isMc s.coreNo then s.next
  else s.drained fun s =>
    match s.findRoom with
    | (.later, s) => s.await (.again 0)
    | (.refused va f, s) => s.freezeRefused va f
    | (.at slot, s) =>
      let k : Key := { owner := s.owner, die := s.workDie, slot := slot }
      s.withRing s.workDie s.ctx.prio fun s =>
        let i := s.mkInstar 1 0 0xFFFF true (s.ctx.pc + 4)
        let s := s.yieldEvent s.ctx.flight
        let i := { i with readyAt := max i.readyAt s.switchTime }
        (s.leave k i).readyInstar k i

/-! ## Drawing (R161, R167, R174) -/

/-- Whether a flight has a core among its placed cores and runs there now. -/
def runsOn (s : State) (owner num core : Nat) : Bool :=
  match s.flight? owner num with
  | some f => (flightCores f).contains core && (match f.switchAt with | some t => decide (s.time < t) | none => true)
  | none => false

/-- Whether an item may be drawn by a core: its flight runs there; an instar is due, its stores visible (R262); a task needs a free instar slot on the die (R161). -/
def drawable (s : State) (owner core : Nat) : Item → Bool
  | .task _ f _ _ => s.runsOn owner f core && (s.freeSlot owner (dieOf core)).isSome
  | .instar n d f =>
    match s.getInstar { owner := owner, die := d, slot := n } with
    | some i => s.runsOn owner f core && decide (i.readyAt ≤ s.time) && s.instarSeen { owner := owner, die := d, slot := n }
    | none => true

/-- A ready instar that cannot be read in is posted as a trap: its record then holds the registers with which it would have gone on (R163, R165). -/
def postReady (s : State) (k : Key) (i : Instar) (va : Nat) (c : Nat × Word) : State :=
  let got := (i.why = 2 ∨ i.why = 3) ∧ 1 ≤ i.dreg ∧ i.dreg ≤ 16
  s.postInstar k { i with retryPc := i.pc, regs := resumedRegs i, mask := if got then Nat.lor i.mask (2 ^ (i.dreg - 1)) else i.mask } c.1 (word va) c.2

/-- A ring entry that a core could not read, with the code of its answer: a task is dropped with BADTASK, an instar is posted as a trap (R158, R187, R436). -/
def ringDenied (s : State) (owner va code : Nat) (c : Nat × Word) : Item → State
  | .task h _ _ _ => s.report owner 0x4A (word h) (depDetail true code)
  | .instar n d _ =>
    let k : Key := { owner := owner, die := d, slot := n }
    match s.getInstar k with
    | some i => s.postReady k i va c
    | none => s

/-- What a core's read of its owner's work area comes to (R142, R161). -/
inductive Peek where
  | good
  | wait                          -- it is waited for: a page, a line, a scrub or a reply
  | refused (code : Nat) (c : Nat × Word)  -- with the code of the answer, and the cause and DETAIL of a trap
  deriving DecidableEq, Repr

/-- A core's read of its owner's work area for a ring slot: an access of the owner's, which its target may refuse (R142); one that needs service is posted for the slot (R161). -/
def peekWork (s : State) (owner core slot va : Nat) : Peek × State :=
  if s.denied.contains (core * 4 + slot) then (.refused 4 (s.workTrap owner core va true), { s with denied := s.denied.filter (· != core * 4 + slot) }) else
  match s.locate core owner va 8 .read with
  | (.at k _, s) => if (s.hostOwns k).isSome then (.wait, s.askOwner k) else (.good, s)
  | (.code c k, s) => (.refused c (0x0C, word c), s.logCode core owner va k c)
  | (.later, s) => (.wait, s)
  | (.service v, s) =>
    match s.workFault owner core slot va v false with
    | (.refused _ f, s) => (.refused 4 (s.workTrap owner core va f), s)
    | (_, s) => (.wait, s)

/-- The oldest drawable item of a die's rings, highest priority first: the item, and the rings without it. An entry whose read needs service is posted for the slot, which draws nothing meanwhile (R161); an entry freed takes the next item that was held (R166). -/
def drawFrom (s : State) (owner core slot die : Nat) : List Nat → Option Item × State
  | [] => (none, s)
  | p :: ps =>
    match (s.queued owner die p).find? (fun q => q.spot.isSome && s.drawable owner core q.item) with
    | some q =>
      let va := ringVa die p (q.spot.getD 0)
      let out (s : State) : State := (State.placeOne (s.setRing owner die p ((s.queued owner die p).erase q)) owner die p).2.2
      match s.peekWork owner core slot va with
      | (.good, s) => (some q.item, out s)
      | (.refused c t, s) => (none, (out s).ringDenied owner va c t q.item)
      | (.wait, s) => (none, s)
    | none => s.drawFrom owner core slot die ps

/-- A ready tethered instar of a core (R174). -/
def tetheredReady (s : State) (core : Nat) : Option (Key × Instar) :=
  s.instars.find? (fun p => p.2.tethered == some core && p.2.state == .ready && decide (p.2.readyAt ≤ s.time) && s.instarSeen p.1 && s.runsOn p.1.owner p.2.flight core && !(s.drawnAlready core p.1))

/-- A slot has drawn an item: the core is awake (R24), and no earlier refusal counts for the slot any more. -/
def drew (s : State) (core slot : Nat) (i : Item) (die : Nat) : State :=
  State.setSlot { s.wakeCore core with denied := s.denied.filter (· != core * 4 + slot) } core slot (.drawn i die)

/-- An empty slot draws: a tethered instar of its core, then a pinned evaluation, then its die's rings (R167, R174, R270); nothing on a core under scrub, no new work where an accepted transfer waits (R133), and nothing while it waits for a reply (R161). -/
def draw (s : State) (core slot : Nat) : State :=
  match s.slotOf core slot with
  | .empty idle =>
    let o := s.coreOwner core
    let e := s.getEntry (entryOfCore core)
    if e.scrub ∨ s.coreLeaves core ∨ s.workWaits core slot then s
    else match s.tetheredReady core with
    | some (k, i) => s.drew core slot (.instar k.slot k.die i.flight) k.die
    | none =>
      if e.acc then s
      else match (SMap.get [] s.rings (pinnedKey core)).find? (fun q => s.drawable o core q.item) with
      | some q => State.drew { s with rings := SMap.set [] s.rings (pinnedKey core) ((SMap.get [] s.rings (pinnedKey core)).erase q) } core slot q.item (dieOf core)
      | none =>
        match s.drawFrom o core slot (dieOf core) [3, 2, 1, 0] with
        | (some i, s) => s.drew core slot i (dieOf core)
        | (none, s) => s.setSlot core slot (.empty (idle + 1))
  | _ => s

/-- The neighbours of a die in the 4 × 4 mesh: east, south, west, north (R167). -/
def neighbours (die : Nat) : List Nat :=
  (if die % 4 < 3 then [die + 1] else []) ++ (if die / 4 < 3 then [die + 4] else []) ++ (if 0 < die % 4 then [die - 1] else []) ++ (if 0 < die / 4 then [die - 4] else [])

/-- The first neighbour with a drawable item. -/
def stealFrom (s : State) (owner core slot : Nat) : List Nat → Option (Item × Nat) × State
  | [] => (none, s)
  | d :: ds =>
    match s.drawFrom owner core slot d [3, 2, 1, 0] with
    | (some i, s) => (some (i, d), s)
    | (none, s) => s.stealFrom owner core slot ds

/-- A slot that has been empty for 512 cycles draws from the neighbouring dies, and its count restarts. -/
def steal (s : State) (core slot : Nat) : State :=
  match s.slotOf core slot with
  | .empty idle =>
    if idle < 512 ∨ s.workWaits core slot ∨ (s.getEntry (entryOfCore core)).acc ∨ (s.getEntry (entryOfCore core)).scrub ∨ s.coreLeaves core then s
    else match s.stealFrom (s.coreOwner core) core slot (neighbours (dieOf core)) with
      | (some (i, d), s) => s.drew core slot i d
      | (none, s) => s
  | _ => s

/-- The context that a task packet starts (R158, R270). -/
def startCtx (s : State) (h flight prio : Nat) (eval : Option (Nat × Nat)) (ws : List Word) : Ctx :=
  let p := payload ws
  let x := (Vector.replicate 28 0).mapFinIdx (fun n _ _ => if 10 ≤ n ∧ n ≤ 17 then p.getD (n - 10) 0 else if n = 9 then word h else if n = 8 then word ((eval.map (·.1)).getD 0) else (0 : Word))
  { Ctx.fresh with
      x := x, pc := BitVec.ofNat 57 (s.core.cbase.toNat + wbits (ws.getD 0 0) 31 0), flight := flight, prio := prio,
      evc := match eval with | some e => word (2 ^ 63 + e.2) | none => 0
      evcell := (eval.map (·.1)).getD 0 }

/-- A context comes into the running slot: if that slot ran last, the one that ran there has left, and the new one takes its turn in ring order (R168). -/
def joins (s : State) : State := if s.core.last = s.running then { s with core := { s.core with stays := false } } else s

/-- The drawn task of the running slot starts (R158), its core awake (R24), or is dropped with BADTASK; the slot waits while the read waits for service, and while the die has no free instar slot (R161). -/
def taskStart (s : State) : State :=
  match s.live, s.core.slots.toList.getD s.running (.empty 0) with
  | false, .drawn (.task h fl pr ev) _ =>
    let unit := s.coreNo * 4 + s.running
    let drop (s : State) (c : Nat) : State :=
      ({ s with core := { s.core with slots := s.core.slots.setIfInBounds s.running (.empty 0) } }).report s.owner 0x4A (word h) (depDetail true c)
    if (s.freeSlot s.owner s.workDie).isNone ∨ s.workWaits s.coreNo s.running then s
    else if s.denied.contains unit then drop { s with denied := s.denied.filter (· != unit) } 4
    else match s.readPacket s.coreNo s.owner h with
      | (.error (.service v va), s) =>
        match s.postFault s.owner s.coreNo va v false (.agent unit) with
        | (.unposted, s) => drop s 4
        | (_, s) => s
      | (.error .later, s) => s
      | (.error (.code c), s) => drop s c
      | (.ok ws, s) => if malformed ws s.core.clim then drop s 0 else State.joins { s.wakeCore s.coreNo with live := true, ctx := s.startCtx h fl pr ev ws }
  | _, _ => s

/-- The drawn instar of the running slot is read in (R165), its core awake (R24): a record whose read needs service is posted for the slot (R161), and one that is refused is posted as a trap (R187). -/
def instarResume (s : State) : State :=
  match s.live, s.core.slots.toList.getD s.running (.empty 0) with
  | false, .drawn (.instar n d _) _ =>
    let k : Key := { owner := s.owner, die := d, slot := n }
    let gone (s : State) : State := { s with core := { s.core with slots := s.core.slots.setIfInBounds s.running (.empty 0) } }
    let va := workVa d n
    match s.getInstar k with
    | some i =>
      if i.state ≠ .ready then gone s
      else if s.workWaits s.coreNo s.running then s
      else match s.peekWork k.owner s.coreNo s.running va with
      | (.good, s) => (((s.wakeCore s.coreNo).freeInstar k).unkey k |>.restore i).joins
      | (.refused _ c, s) => (gone s).postReady k i va c
      | (.wait, s) => s
    | none => gone s
  | _, _ => s

/-- The unit under which a held ring item waits for its page. -/
def ringUnit (key : Nat) : Nat := 2 ^ 39 + key

/-- Held items of the ready rings are written as entries free or their page comes to be mapped; a page that needs service is posted to the owner's fault service core, and one that is refused drops the item (R161, R166). -/
def ringTurn (s : State) (key : Nat) : State :=
  let o := key / 64
  let die := key / 4 % 16
  let p := key % 4
  match (s.queued o die p).find? (fun q => q.spot.isNone) with
  | none => s
  | some q =>
    let va := ringVa die p ((ringNext (s.queued o die p)).getD 0)
    let drop (s : State) (f : Bool) : State := State.ringDenied (s.setRing o die p ((s.queued o die p).erase q)) o va 4 (s.workTrap o 20000 va f) q.item
    if s.denied.contains (ringUnit key) then drop { s with denied := s.denied.filter (· != ringUnit key) } true
    else match s.placeOne o die p with
    | (none, _, s) => s
    | (some v, _, s) =>
      if s.waiting (.agent (ringUnit key)) then s
      else match s.postFault o 20000 va v true (.agent (ringUnit key)) with
        | (.unposted, s) => drop s false
        | (_, s) => s

/-- The unit under which an instar's record waits for its page. -/
def imageUnit (k : Key) : Nat := 2 ^ 60 + (k.owner * 16 + k.die) * 8192 + k.slot

/-- A record that is still to be written is written once its page can be; a page that needs service is posted (R161), and one that stays refused leaves the record as it was (log 43). -/
def imageTurn (s : State) (e : Nat × Key) : State :=
  let u := imageUnit e.2
  let drop (s : State) : State := { s with unwritten := s.unwritten.erase e, denied := s.denied.filter (· != u) }
  if (s.getInstar e.2).isNone ∨ s.denied.contains u then drop s
  else if s.waiting (.agent u) then s
  else match s.workPa e.1 e.2 with
    | (.ok _, s) => (drop s).writeImage e.1 e.2
    | (.error v, s) => match s.postFault e.2.owner 20000 (workVa e.2.die e.2.slot) v true (.agent u) with
      | (.unposted, s) => drop s
      | (_, s) => s

/-! ### Stores that a context left undrained (R203, R262, R344) -/

/-- The unit under which an instar's store waits for its page. -/
def storesUnit (k : Key) : Nat := 2 ^ 61 + (k.owner * 16 + k.die) * 8192 + k.slot

/-- A ready instar is in its ring no more. -/
def unring (s : State) (k : Key) (i : Instar) : State :=
  s.setRing k.owner k.die i.prio ((s.queued k.owner k.die i.prio).filter (fun q => match q.item with | .instar n d _ => !(n == k.slot && d == k.die) | _ => true))

/-- The first store that an instar's context left undrained cannot be served: one that is ready or suspended, and that no slot has drawn, is posted as a trap, with the cause and DETAIL; for any other the store is answered FAULT (R187, R344, R436; log 18). -/
def storeDenied (s : State) (k : Key) (i : Instar) (e : Combine) (c : Nat × Word) : State :=
  let va := storeVa e.va e.bytes
  let j := { i with stores := i.stores.drop 1 }
  if i.state = .ready ∨ i.state = .suspended then (s.unring k i).postReady k j va c
  else (s.setInstar k j).report k.owner 0x46 (word va) 4

/-- The first store that a context left undrained as it left the ring drains (R203): behind one that a reply is to perform; one that needs service waits for the reply. -/
def storesTurn (s : State) (k : Key) : State :=
  match s.getInstar k with
  | none => s
  | some i => match i.stores with
    | [] => s
    | e :: rest =>
      let u := storesUnit k
      if retryStore i ∨ s.waiting (.agent u) then s
      else if s.denied.contains u then State.storeDenied { s with denied := s.denied.filter (· != u) } k i e (0x0C, 4)
      else match s.drainFor i.origin (some k) e with
        | (.ok _, s) => s.setInstar k { i with stores := rest }
        | (.error v, s) =>
          match s.postFault e.owner i.origin e.va v true (.agent u) with
          | (.unposted, s) => s.storeDenied k i e (0x12, word (storeVa e.va e.bytes))
          | (_, s) => s

end State

/-! ## The instructions -/

/-- SPAWN (R398, R399). -/
def execSpawn (rd rs1 rs2 : Nat) (s : State) : Host.Outcome State Fault Refusal :=
  let m := s.rx rs2
  .next (if wbits m 63 2 ≠ 0 then (s.wx rd 5).next
    else s.release 7 fun s => if wbits m 1 0 = 0 then s.spawnTask rd (s.rx rs1) else s.spawnInstar rd (s.rx rs1) (wbits m 1 0))

/-- SUSP. -/
def execSusp (rd rs1 rs2 : Nat) (s : State) : Host.Outcome State Fault Refusal := .next (s.susp rd rs1 rs2)

/-- YIELD. -/
def execYield (s : State) : Host.Outcome State Fault Refusal := .next s.yieldNow

/-- DONE (R159, R401). -/
def execDone (rs1 : Nat) (s : State) : Host.Outcome State Fault Refusal :=
  .next (s.finishing fun s => s.complete (s.rx rs1) State.endSlot)

/-- HALT (R336). -/
def execHalt (s : State) : Host.Outcome State Fault Refusal := .next (s.finishing State.endSlot)

/-! ## The slots' events -/

/-- SLOT_DRAW. -/
def execSlotDraw (s : State) : Host.Outcome State Fault Refusal := .next (s.draw s.arg.a (s.arg.b % 4))

/-- STEAL. -/
def execSteal (s : State) : Host.Outcome State Fault Refusal := .next (s.steal s.arg.a (s.arg.b % 4))

/-- TASK_START. -/
def execTaskStart (s : State) : Host.Outcome State Fault Refusal := .next (s.asSlot s.arg.a (s.arg.b % 4) State.taskStart)

/-- INSTAR_RESUME. -/
def execInstarResume (s : State) : Host.Outcome State Fault Refusal := .next (s.asSlot s.arg.a (s.arg.b % 4) State.instarResume)

end Sys2Proof.Machine
end

