-- ==== Sys2Proof/Machine/Queues.lean ====
section
/-! DEFINITION. Hardware queues (R91 to R105, R117, R119): descriptors, residency, fetching and checking, halts, completion records, kicks; and the accesses that packet agents make (R108, R217). -/

namespace Sys2Proof.Machine

/-! ## Packets -/

/-- CRC-16 of R99: polynomial 0x1021, initial value 0xFFFF, no reflection. -/
def crcBit (c : Nat) : Nat := if 32768 ≤ c then Nat.xor (c * 2 % 65536) 0x1021 else c * 2

def crcByte (c : Nat) (b : Byte) : Nat := crcBit (crcBit (crcBit (crcBit (crcBit (crcBit (crcBit (crcBit (Nat.xor c (b.toNat * 256)))))))))

def crc16 (l : List Byte) : Nat := l.foldl crcByte 0xFFFF

namespace Packet

/-- The control word's fields (R99); words holds words 1 onwards, and w i is word i of the packet. -/
def w (p : Packet) (i : Nat) : Word := p.words.getD (i - 1) 0
def barrier (p : Packet) : Bool := wbits (p.w 1) 8 8 == 1
def stopErr (p : Packet) : Bool := wbits (p.w 1) 9 9 == 1
def acq (p : Packet) : Nat := wbits (p.w 1) 12 10
def rel (p : Packet) : Nat := wbits (p.w 1) 15 13

/-- The blocking types (R100). -/
def blocking (p : Packet) : Bool := p.type == 2 || p.type == 3 || (decide (6 ≤ p.type) && decide (p.type ≤ 9))

end Packet

/-- The scope code of R250 for a packet's scope (R101). -/
def packetScope (code : Nat) : Nat := if code = 1 then 4 else if code = 2 then 5 else if code = 3 then 7 else if code = 4 then 6 else 0

/-- Halt causes (R102). -/
def cTorn : Nat := 1
def cBadSeq : Nat := 2
def cBadType : Nat := 3
def cBadField : Nat := 4
def cOverKick : Nat := 5
def cWrap : Nat := 6
def cScope : Nat := 7
def cNotSeat : Nat := 8
def cExec : Nat := 9
def cRingAcc : Nat := 10

/-- LAUNCH's field limits (R109). -/
def launchGood (w : Nat → Word) : Bool :=
  let il := wbits (w 3) 63 32
  let en := wbits (w 3) 31 0
  let ng := wbits (w 4) 63 48
  let gs := wbits (w 4) 47 40
  let nt := wbits (w 6) 63 48
  let rx := wbits (w 6) 47 40
  let tx := wbits (w 6) 39 32
  let ry := wbits (w 6) 31 16
  wbits (w 2) 11 0 == 0 && decide (0 < il) && il % 4 == 0 && en % 4 == 0 && decide (en < il) && wbits (w 4) 34 0 == 0 && wbits (w 4) 37 36 != 3 &&
  decide (1 ≤ ng) && decide (ng ≤ 4096) && decide (1 ≤ gs) && decide (gs ≤ 64) && decide (ng * gs ≤ 16384) && wbits (w 5) 4 0 == 0 && wbits (w 6) 15 0 == 0 &&
  decide (1 ≤ nt) && decide (1 ≤ rx) && decide (rx ≤ 16) && decide (1 ≤ tx) && decide (tx ≤ 8) && decide (1 ≤ ry) && decide (ry ≤ 4096) && wbits (w 8) 2 0 == 0

/-- WAIT's field limits (R110). -/
def waitGood (w : Nat → Word) : Bool :=
  let n := wbits (w 2) 63 60
  decide (1 ≤ n) && decide (n ≤ 12) && wbits (w 2) 59 48 == 0 && (w 3).toNat / 16 ^ n == 0 &&
  (List.range n).all (fun i => decide (wbits (w 3) (4 * i + 3) (4 * i) ≤ 5) && wbits (w (4 + 2 * i)) 2 0 == 0)

/-- The field limits of a body (R109 to R116). -/
def bodyGood (type : Nat) (w : Nat → Word) : Bool :=
  match type with
  | 1 => launchGood w
  | 2 => waitGood w
  | 3 => waitGood w
  | 4 => wbits (w 2) 61 0 == 0 && wbits (w 2) 63 62 != 3 && w 3 != 0 && wbits (w 3) 2 0 == 0
  | 5 => decide (1 ≤ (w 4).toNat) && decide ((w 4).toNat ≤ 2 ^ 48) && wbits (w 5) 60 0 == 0 && wbits (w 5) 62 61 != 3 && wbits (w 6) 2 0 == 0 &&
      (wbits (w 5) 63 63 == 0 || (wbits (w 2) 2 0 == 0 && wbits (w 3) 2 0 == 0 && wbits (w 4) 2 0 == 0))
  | 6 => wbits (w 2) 63 25 == 0 && wbits (w 2) 15 9 == 0 && decide (wbits (w 2) 8 0 + wbits (w 2) 24 16 ≤ 511)
  | 7 => wbits (w 2) 63 25 == 0 && wbits (w 2) 15 9 == 0 && decide (wbits (w 2) 8 0 + wbits (w 2) 24 16 ≤ 511)
  | 8 => wbits (w 2) 63 3 == 0
  | _ => true

/-- The slots that a type requires, none where any number does (R100), and the first word of the body that must be zero. -/
def slotsOf (type : Nat) (w : Nat → Word) : Option Nat :=
  match type with
  | 0 => none
  | 1 => some 2
  | 2 => some ((2 + wbits (w 2) 63 60 + 3) / 4)
  | 3 => some ((2 + wbits (w 2) 63 60 + 3) / 4)
  | _ => some 1

def bodyEnd (type : Nat) (w : Nat → Word) : Nat :=
  match type with
  | 1 => 10
  | 2 => 4 + 2 * wbits (w 2) 63 60
  | 3 => 4 + 2 * wbits (w 2) 63 60
  | 4 => 5
  | 5 => 8
  | 6 => 3
  | 7 => 3
  | 8 => 6
  | _ => 2

namespace State

/-- The owner that holds a queue. -/
def queueOwner (s : State) (q : Nat) : Nat := s.holder 6 q

/-- The owner for whom a queue's packets under way act (R94, R136). -/
def packetOwner (s : State) (q : Nat) : Nat := (s.getQueue q).seat

/-- Check a whole packet in the order of R102, from TYPE on: the halt cause, or none. -/
def packetCause (s : State) (owner : Nat) (words : List Word) : Option Nat :=
  let w (i : Nat) : Word := words.getD i 0
  let t := wbits (w 1) 3 0
  let acq := wbits (w 1) 12 10
  let rel := wbits (w 1) 15 13
  if 10 ≤ t then some cBadType
  else if wbits (w 0) 12 8 ≠ 0 ∨ wbits (w 1) 63 16 ≠ 0 ∨ wbits (w 1) 7 4 ≠ 0 ∨ 5 ≤ acq ∨ 5 ≤ rel then some cBadField
  else if (match slotsOf t w with | some n => words.length != 8 * n | none => false) then some cBadField
  else if t ≠ 0 ∧ (words.drop (bodyEnd t w)).any (· != 0) then some cBadField
  else if ¬ bodyGood t w then some cBadField
  else if (t = 8 ∨ (t = 1 ∧ wbits (w 4) 35 35 = 1)) ∧ owner ≠ 1 then some cNotSeat
  else if ¬ s.hasGrant owner (packetScope acq) ∨ ¬ s.hasGrant owner (packetScope rel) then some cScope
  else none

/-! ## Accesses of packet agents (R95, R108, R217) -/

/-- The number under which hub h's interface makes an access. -/
def hubCore (h : Nat) : Nat := 16384 + 128 * h

/-- The unit under which a packet waits in a fault entry. -/
def packetUnit (q seq : Nat) : Nat := 2 ^ 23 + q * 65536 + seq % 65536

/-- What an agent's earlier wait for a reply has come to, before it makes its access (again): some true where the reply was FAIL = 1, which is taken up here, some false where the reply is still awaited, none where it waits for none (R108, R146, R436). -/
def agentReply (s : State) (unit : Nat) : Option Bool × State :=
  if s.denied.contains unit then (some true, { s with denied := s.denied.filter (· != unit) })
  else if s.waiting (.agent unit) then (some false, s)
  else (none, s)

/-- An agent's access needs service (R185, R436): true where it fails, for its fault cannot be posted, false where it waits. -/
def agentFault (s : State) (unit owner core va : Nat) (v : Service) (write : Bool) : Bool × State :=
  match s.postFault owner core va v write (.agent unit) with
  | (.unposted, s) => (true, s)
  | (_, s) => (false, s)

/-- The status that a refusal gives a packet (R108, R118). -/
def packetStatus (code : Nat) : Nat := if code = 1 then 10 else if code = 4 then 3 else if code = 9 then 8 else if code = 10 then 5 else 4

/-- What a packet agent's access came to. -/
inductive Came where
  | status (n : Nat)
  | word (w : Option Word)        -- none for a word that is not VAL
  | wait
  deriving DecidableEq, Repr

/-- signal_op (R108) at hub h, with the V of its write. -/
def signalOp (s : State) (h unit owner : Nat) (addr : Word) (op : Nat) (val : Word) : Came × Nat × State :=
  if addr = 0 then (.status 0, 0, s)
  else match s.agentReply unit with
  | (some failed, s) => (if failed then .status 3 else .wait, 0, s)
  | (none, s) =>
    let va := va57 addr
    match s.locate (hubCore h) owner va 8 .write with
    | (.code c k, s) => (.status (packetStatus c), 0, s.logCode (hubCore h) owner va k c)
    | (.later, s) => (.wait, 0, s)
    | (.service v, s) =>
      let r := s.agentFault unit owner (hubCore h) va v true
      (if r.1 then .status 3 else .wait, 0, r.2)
    | (.at k _, s) =>
      if storage k = .pooled then (.status 8, 0, s.logCode (hubCore h) owner va k 9)
      else match s.hostHolds k with
        | some p => (.wait, 0, s.askHost p (lineStart k) true)
        | none =>
          let t := s.serialTag k
          let write (s : State) (v : Word) (tag : Option (BitVec 2)) : Came × Nat × State :=
            let bs := offsets (toBytes 8 v.toNat)
            let s := s.markContended deviceCore k
            (.status 0, s.formV k 8, (s.shadowHost deviceCore k bs).arrive deviceCore 0 k bs tag tag.isSome)
          if op = 0 then
            if t = 2 then (.status 5, 0, s.logCode (hubCore h) owner va k 10) else write s val (if t = 0 then none else some 0)
          else if t ≠ 0 then (.status 5, 0, s.logCode (hubCore h) owner va k 10)
          else if s.poisoned k 8 then (.status 11, 0, s)
          else
            let old := Machine.word (s.serialNat k 8)
            write s (if op = 1 then old + val else old - val) none

/-- One read of a waiting packet (R110, R111), at hub 0's interface. -/
def waitRead (s : State) (unit owner : Nat) (addr : Word) : Came × State :=
  let va := va57 addr
  match s.locate (hubCore 0) owner va 8 .read with
  | (.code c k, s) => (.status (packetStatus c), s.logCode (hubCore 0) owner va k c)
  | (.later, s) => (.wait, s)
  | (.service v, s) =>
    let r := s.agentFault unit owner (hubCore 0) va v false
    (if r.1 then .status 3 else .wait, r.2)
  | (.at k _, s) =>
    match s.hostOwns k with
    | some p => (.wait, s.askHost p (lineStart k) false)
    | none =>
      if storage k = .pooled then (.status 8, s)
      else if s.poisoned k 8 then (.status 11, s)
      else (.word (if s.tagAt k = 0 then some (s.wordAt k) else none), s)

/-- A read of a ring slot, or a write of a record, at its home. -/
inductive Ring where
  | bytes (l : List Byte)
  | refused
  | later
  | at (v : Nat)
  deriving DecidableEq, Repr

/-- Whether the home takes a ring access of n bytes (R95): HBM4E that the owner holds, or host memory that can be reached. -/
def ringGood (s : State) (owner k n : Nat) : Bool :=
  (storage k == .hbm || storage k == .host) && s.storeCode 0 owner k == 0 && (List.range (n / 8)).all (fun i => s.plainWord (k + 8 * i))

/-- Why the home refuses it: a target's code, or TAG where a word is not VAL; none for poison, which is the data's (R73). -/
def ringCode (s : State) (owner k n : Nat) : Nat :=
  let c := s.storeCode 0 owner k
  if c ≠ 0 then c else if (List.range (n / 8)).all (fun i => s.plainWord (k + 8 * i)) then 0 else 10

/-- A refused ring access is logged at the unit that refuses it (R33, R87, R142). -/
def ringRefused (s : State) (owner k n : Nat) : Ring × State :=
  (.refused, if s.ringCode owner k n = 0 then s else s.logCode (hubCore 0) owner k k (s.ringCode owner k n))

/-- Read 64 bytes of a ring, uncached. -/
def ringRead (s : State) (owner k : Nat) : Ring × State :=
  if ¬ s.ringGood owner k 64 ∨ s.poisoned k 64 then s.ringRefused owner k 64
  else if s.scrubbing k then (.later, s)
  else match s.hostOwns k with
    | some p => (.later, s.askHost p (lineStart k) false)
    | none => (.bytes (s.bytesAt k 64), s)

/-- n slots upwards. -/
def ringSlots (s : State) (owner k : Nat) : Nat → Ring × State
  | 0 => (.bytes [], s)
  | n + 1 =>
    match s.ringRead owner k with
    | (.bytes b, s) =>
      match s.ringSlots owner (k + 64) n with
      | (.bytes c, s) => (.bytes (b ++ c), s)
      | r => r
    | r => r

/-- The eight-byte words of a list of bytes. -/
def wordsOf : Nat → List Byte → List Word
  | 0, _ => []
  | n + 1, l => Machine.word (ofBytes (l.take 8)) :: wordsOf n (l.drop 8)

/-! ## Records and halts (R103, R117) -/

/-- Write a record for a sequence number to an owner's completion ring (R117): words 1 to 3, then word 0, with its V. -/
def writeRecord (s : State) (o q seq low time : Nat) (detail addr : Word) : Ring × State :=
  let r := s.getQueue q
  let k := r.crbase + 32 * (seq % 2 ^ r.crlog)
  if ¬ s.ringGood o k 32 then s.ringRefused o k 32
  else if s.scrubbing k then (.later, s)
  else match s.hostHolds k with
    | some p => (.later, s.askHost p (lineStart k) true)
    | none =>
      let s := s.markContended deviceCore k
      let at' (n : Nat) : Dest := { key := k + n, va := k + n, iface := 16, stop := 2 ^ 64 }
      let r := s.arriveSeq deviceCore [(at' 8, Machine.word time), (at' 16, detail), (at' 24, addr), (at' 0, Machine.word (seq % 2 ^ 32 * 2 ^ 32 + low))] s.time
      (.at r.1, r.2)

/-- A halt record that is due is written, or tried again while its line has to be waited for (R103). -/
def haltRecord (s : State) (q : Nat) : State :=
  match (s.getQueue q).haltDue with
  | none => s
  | some (seq, type, cause, time) =>
    match s.writeRecord (s.queueOwner q) q seq (type * 2 ^ 20 + 2 ^ 19) time (Machine.word cause) 0 with
    | (.later, s) => s
    | (_, s) => s.setQueue q { s.getQueue q with haltDue := none }

/-- The queue halts (R102, R103); any cause but EXEC leaves a halt record where one can be written. Its TYPE, which the spec does not give, is that of the packet whose record or fields are refused, and 0 where no packet has been judged: the model's choice (log 29). -/
def haltQueue (s : State) (q cause type : Nat) : State :=
  let r := s.getQueue q
  if r.halted then s
  else
    let due := if cause = cExec then r.haltDue else some ((r.cseq + 1) % 2 ^ 32, type, cause, s.time)
    State.haltRecord (s.setQueue q { r with halted := true, cause := cause, rereads := 0, retryAt := 0, haltDue := due }) q

/-! ## Fetching (R104) -/

/-- A packet that passes is consumed: RDIDX and CSEQ advance, and a LAUNCH gets its flight number (R143). -/
def consume (s : State) (q seq n : Nat) (words : List Word) : State :=
  let r := s.getQueue q
  let t := wbits (words.getD 1 0) 3 0
  let num := s.flights.nextNum
  let p : Packet := { seq := seq, type := t, words := words.drop 1, started := false, worked := false, done := false, recorded := false, status := 0, detail := 0, addr := 0,
                      since := s.time, flight := if t = 1 then num else 0, relAt := 0, seen := 0, held := 0, reading := false }
  let s := s.setQueue q { r with rdidx := (r.rdidx + n) % 2 ^ 32, cseq := seq, packets := r.packets ++ [p], rereads := 0, retryAt := 0, seat := s.queueOwner q }
  if t = 1 then { s with flights := { s.flights with nextNum := if num = 2 ^ 32 - 1 then 1 else num + 1 } } else s

/-- The packet at RDIDX is not yet valid: a re-read is due 1 µs later, and after the third the queue halts. -/
def notValid (s : State) (q : Nat) (mark : Bool) : State :=
  let r := s.getQueue q
  if 3 ≤ r.rereads then s.haltQueue q (if mark then cTorn else cBadSeq) 0
  else s.setQueue q { r with retryAt := s.time + 1000 }

/-- Read and judge the packet at RDIDX. -/
def fetchPacket (s : State) (q : Nat) : State :=
  let r := s.getQueue q
  let o := s.queueOwner q
  let ring := 2 ^ r.ringlog
  let slot := r.rdidx % ring
  let k := r.ringbase + 64 * slot
  match s.ringRead o k with
  | (.bytes b, s) =>
    let w0 := ofBytes (b.take 8)
    let seq := (r.cseq + 1) % 2 ^ 32
    let n := bits w0 15 13 + 1
    if bits w0 7 0 = 0x5A ∧ bits w0 63 32 = seq then
      if ring < slot + n then s.haltQueue q cWrap 0
      else if (r.wridx + 2 ^ 32 - r.rdidx) % 2 ^ 32 < n then s
      else match s.ringSlots o k n with
        | (.bytes l, s) =>
          if crc16 (l.drop 8) = bits w0 31 16 then
            let ws := wordsOf (8 * n) l
            match s.packetCause o ws with
            | some c => s.haltQueue q c (wbits (ws.getD 1 0) 3 0)
            | none => s.consume q seq n ws
          else s.notValid q true
        | (.refused, s) => s.haltQueue q cRingAcc 0
        | (_, s) => s
    else s.notValid q false
  | (.refused, s) => s.haltQueue q cRingAcc 0
  | (_, s) => s

/-- Whether the fetcher may look at the packet at RDIDX: a resident queue with slots to fetch and no blocking packet under way. -/
def mayFetch (r : Queue) : Bool :=
  r.enable && !r.halted && r.engine != 255 && r.wridx != r.rdidx && !(r.packets.any (fun p => !p.done && (p.blocking || !p.started)))

def fetchNext (s : State) (q : Nat) : State :=
  if mayFetch (s.getQueue q) ∧ (s.getQueue q).retryAt = 0 then s.fetchPacket q else s

/-- A re-read whose time has come. -/
def reread (s : State) (q : Nat) : State :=
  let r := s.getQueue q
  if mayFetch r ∧ r.retryAt ≠ 0 ∧ r.retryAt ≤ s.time then (s.setQueue q { r with rereads := r.rereads + 1, retryAt := 0 }).fetchPacket q else s

/-! ## Residency (R96, R97) -/

/-- A blocking packet of a queue is under way (R96). -/
def underWay (r : Queue) : Bool := r.packets.any (fun p => !p.done && p.blocking)

/-- A candidate (R96). -/
def candidate (r : Queue) : Bool := r.enable && !r.halted && (r.wridx != r.rdidx || underWay r)

/-- The next place in the order of candidates. -/
def nextSince (s : State) : Nat := s.queues.foldl (fun m e => max m e.2.since) 0 + 1

/-- A queue joins or leaves the candidates. -/
def touchQueue (s : State) (q : Nat) : State :=
  let r := s.getQueue q
  if candidate r then (if r.since = 0 then s.setQueue q { r with since := s.nextSince } else s)
  else if r.since = 0 ∧ r.engine = 255 then s else s.setQueue q { r with since := 0, engine := 255 }

def waitingQueues (s : State) : List (Nat × Queue) := s.queues.filter (fun e => candidate e.2 && e.2.engine == 255)

def engineLoad (s : State) (e : Nat) : Nat := (s.queues.filter (fun x => x.2.engine == e)).length

/-- The first candidate by priority, then by order, goes to the engine with the fewest queues (R96); the next pass of its waiting packet is due within 1 µs (R111). -/
def makeResident (s : State) : State :=
  let l := sortBy (fun (a b : Nat × Queue) => decide (b.2.prio < a.2.prio) || (a.2.prio == b.2.prio && decide (a.2.since ≤ b.2.since))) s.waitingQueues
  let es := sortBy (fun (a b : Nat) => decide (s.engineLoad a < s.engineLoad b) || (s.engineLoad a == s.engineLoad b && decide (a ≤ b))) (List.range 6)
  match l, es with
  | (q, r) :: _, e :: _ =>
    if s.engineLoad e < 11 ∧ ((List.range 6).map s.engineLoad).sum < 64 then s.setQueue q { r with engine := e, blocked := s.time, packets := r.packets.map (fun p => if (p.type == 2 || p.type == 3) && p.started && !p.worked then { p with relAt := min p.relAt (s.time + 1000) } else p) } else s
  | _, _ => s

/-- Whether a resident queue has been blocked on a WAIT for 64 µs; from when they count the spec does not say: the model's choice is from the later of the packet's start and the queue's residency, and a waiting candidate is asked for only then (log 29). -/
def longBlocked (s : State) (r : Queue) : Bool :=
  r.packets.any (fun p => p.started && !p.done && (p.type == 2 || p.type == 3) && decide (max p.since r.blocked + 64000 ≤ s.time))

/-- The two cases of eviction (R97). -/
def evictQueue (s : State) (q : Nat) : State :=
  let r := s.getQueue q
  if r.engine = 255 then s
  else if ¬ candidate r then s.setQueue q { r with engine := 255, since := 0 }
  else if s.longBlocked r ∧ ¬ s.waitingQueues.isEmpty then s.setQueue q { r with engine := 255, since := s.nextSince }
  else s

/-! ## Enabling, disabling, kicking (R43, R44, R93, R94) -/

/-- Where a ring may lie (R93). -/
def ringPlace (s : State) (owner base size : Nat) : Bool :=
  storage base != .pooled && storage (base + size - 1) != .pooled &&
  (storage base != .hbm || (decide (base + size ≤ 2 ^ 40) &&
    (List.range ((base + size - 1) / 2097152 - base / 2097152 + 1)).all (fun i => s.holder 4 (base / 2097152 + i) == owner)))

/-- Whether a write of 1 to ENABLE takes effect. -/
def canEnable (s : State) (q : Nat) : Bool :=
  let r := s.getQueue q
  let o := s.queueOwner q
  !r.enable && !r.drain && decide (6 ≤ r.ringlog) && decide (r.ringlog ≤ 16) && decide (r.ringlog ≤ r.crlog) && decide (r.crlog ≤ 16) &&
  s.ringPlace o r.ringbase (64 * 2 ^ r.ringlog) && s.ringPlace o r.crbase (32 * 2 ^ r.crlog)

def enableQueue (s : State) (q : Nat) : State :=
  let r := s.getQueue q
  s.setQueue q { r with enable := true, rdidx := 0, wridx := 0, cseq := 0, dseq := 0, halted := false, cause := 0, packets := [], rereads := 0, retryAt := 0, haltDue := none, since := 0, engine := 255 }

/-- A packet ends without its work, release or signal (R94). -/
def abortPacket (s : State) (p : Packet) : Packet := { p with worked := true, done := true, status := 9, since := s.time }

/-- Whether a disable ends a packet (R94): a wait under way, or one that has not started. -/
def abortable (p : Packet) : Bool := !p.done && (!p.started || p.type == 2 || p.type == 3)

/-- Disabling (R94): waits under way, and packets not yet started, end with ABORTED; the others run on. A fault that a wait's read has posted concerns it no more. -/
def disableQueue (s : State) (q : Nat) : State :=
  let r := s.getQueue q
  if ¬ r.enable then s
  else
    let l := r.packets.map (fun p => if abortable p then s.abortPacket p else p)
    State.setQueue (r.packets.foldl (fun s p => if abortable p then s.forget (packetUnit q p.seq) else s) s) q { r with enable := false, packets := l, drain := !l.isEmpty, engine := 255, since := 0, rereads := 0, retryAt := 0 }

/-- KICK (R43). -/
def kick (s : State) (q : Nat) (v : Nat) : State :=
  let r := s.getQueue q
  if ¬ r.enable then s.logEntry 9 7 0 (Machine.word (q * 4096)) 1
  else
    let s := s.setQueue q { r with wridx := v % 2 ^ 32 }
    if ¬ r.halted ∧ 2 ^ r.ringlog < (v % 2 ^ 32 + 2 ^ 32 - r.rdidx) % 2 ^ 32 then (s.haltQueue q cOverKick 0).touchQueue q else s.touchQueue q

/-- RESUME (R44). -/
def resume (s : State) (q : Nat) (v : Nat) : State :=
  let r := s.getQueue q
  if ¬ r.halted then s.logEntry 9 7 0 (Machine.word (q * 4096 + 0x28)) 1
  else
    let s := s.setQueue q { r with rdidx := v % 2 ^ 32, halted := false, cause := 0, rereads := 0, retryAt := 0 }
    if 2 ^ r.ringlog < (r.wridx + 2 ^ 32 - v % 2 ^ 32) % 2 ^ 32 then (s.haltQueue q cOverKick 0).touchQueue q else s.touchQueue q

/-! ## Changes to packets under way -/

/-- Change the packet of a sequence number. -/
def setPacket (s : State) (q : Nat) (p : Packet) : State :=
  let r := s.getQueue q
  s.setQueue q { r with packets := r.packets.map (fun x => if x.seq = p.seq then p else x) }

/-- A packet's work is done with a status; one other than OK leaves nothing more but its record (R107). No reply concerns its work any more. -/
def workDone (s : State) (q : Nat) (p : Packet) (status : Nat) (detail addr : Word) (v : Nat) : State :=
  (s.forget (packetUnit q p.seq)).setPacket q { p with started := true, worked := true, status := status, detail := detail, addr := addr, relAt := max v s.time }

/-- A packet is complete: its status is fixed. -/
def packetDone (s : State) (q : Nat) (p : Packet) (status : Nat) (addr : Word) : State :=
  s.setPacket q { p with worked := true, done := true, status := status, addr := addr, since := s.time }

/-- The LAUNCH packet of a flight has its result (R146, R153, R154). -/
def launchDone (s : State) (f : Flight) (status : Nat) (detail : Word) : State :=
  match (s.getQueue f.queue).packets.find? (fun p => p.type == 1 && p.flight == f.num && !p.worked) with
  | some p => s.workDone f.queue p status detail 0 s.time
  | none => s

end State

end Sys2Proof.Machine
end

