-- ==== Sys2Proof/Machine/Cocoons.lean ====
section
/-! DEFINITION. Cocoons: the images that a gang switch and a reclaim leave in the owner's memory, how they are written, and how a gang's come back (R139, R189 to R193, R385, R386, R391, R418). -/

namespace Sys2Proof.Machine

/-! ## Context and copy images (R192, R391) -/

/-- The instruction that a waiting context has issued is a FENCE (R192); any other that waits for its release stands ready at itself. -/
def Ctx.atFence (c : Ctx) : Bool :=
  match c.word.map decode with
  | some (.ok (.fenceAcq _)) => true
  | some (.ok (.fenceRel _)) => true
  | some (.ok (.fenceAr _)) => true
  | _ => false

/-- The WAIT code of a context at its stop, word 3 beside it, and the PC recorded (R190, R192, R418). -/
def waitWords (s : State) (c : Ctx) : Nat × Word × BitVec 57 :=
  match c.wait with
  | .again w => (if w = 2 ∨ (w = 4 ∧ c.atFence = true) then w else 0, 0, c.pc)
  | .port _ _ _ => (1, 0, c.pc)
  | .took _ => (1, 0, c.pc)
  | .mwait _ d => (3, match d with | some t => word t | none => BitVec.allOnes 64, c.pc)
  | .bar i sc =>
    match s.barriers.find? (fun b => b.id == i) with
    | some b => (5, word (2 ^ 63 + sc * 2 ^ 56 + b.n), c.pc)
    | none => (0, 0, c.pc)
  | .barDone => (0, 0, c.pc + 4)
  | _ => (0, 0, c.pc)

/-- A context cocoon's words: the 32 of its header, then its register page; an LPAD that has been fetched as a target only remains to be passed (R293). -/
def ctxWords (s : State) (owner : Nat) (c : Ctx) : List Word :=
  let c := State.padDone c
  let w := waitWords s c
  [word (wbits c.stat 63 63 * 2 ^ 62 + c.prio * 2 ^ 57 + w.2.2.toNat / 4), word (owner * 2 ^ 48 + c.flight * 2 ^ 16 + wbits c.stat 55 48 * 8), word (w.1 * 2 ^ 60), w.2.1]
    ++ List.replicate 28 0 ++ (List.range 512).map (pageWord c)

/-- A tethered instar as a context, for its cocoon: as it would go on, or where it still waits at the instruction that executes again. -/
def ctxOfInstar (i : Instar) : Ctx :=
  let c := State.resumedCtx i
  match i.state with
  | .ready => c
  | .suspended => c
  | .posted => { c with x := i.regs }
  | .held => { c with x := i.regs }
  | _ => { c with x := i.regs, pc := i.retryPc }

/-- The cell that a saved context evaluates: its number's entry in the evaluation table names it (R272, R276). -/
def cellOf (l : List Eval) (evc : Word) : Nat :=
  if wbits evc 63 63 = 1 then ((l.find? (fun e => e.evid == wbits evc 15 0)).map (·.va)).getD 0 else 0

/-- A context from its cocoon's words; a BAR and an MWAIT are taken up by the caller. -/
def wordsCtx (l : List Word) : Ctx :=
  let w0 := l.getD 0 0
  let c := (List.range 512).foldl (fun c i => setPageWord c i (l.getD (32 + i) 0)) { Ctx.fresh with rstack := [] }
  { c with pc := BitVec.ofNat 57 (4 * wbits w0 56 0), prio := wbits w0 58 57, flight := wbits (l.getD 1 0) 47 16 }

/-- A saved copy-queue entry (R391), its ring slot 0 once its context has left the ring. -/
def copyWords (c : CopyCmd) : List Word :=
  let s32 (i : Int) : Nat := (i % (2 ^ 32 : Int)).toNat
  [word c.dst, word c.src, word (if c.strided then c.rows * 2 ^ 32 + c.rowb else c.rowb), word (if c.strided then s32 c.dstride * 2 ^ 32 + s32 c.sstride else 0), word c.cell,
   word (bit c.tags * 2 ^ 63 + bit c.strided * 2 ^ 62 + c.ring * 2 ^ 60), 0, 0]

/-- CPROG (R391). -/
def copyProgress (c : CopyCmd) : Word := word (2 ^ 63 + c.progress % 2 ^ 48)

/-- A copy command from its saved entry and its progress. -/
def wordsCopy (l : List Word) (prog : Word) : CopyCmd :=
  let f := l.getD 5 0
  let n := wbits prog 47 0
  let strided := wbits f 62 62 = 1
  let rowb := if strided then wbits (l.getD 2 0) 31 0 else (l.getD 2 0).toNat
  { CopyCmd.blank with
      dst := (l.getD 0 0).toNat, src := (l.getD 1 0).toNat, rows := if strided then wbits (l.getD 2 0) 63 32 else 1, rowb := rowb,
      dstride := if strided then toInt 32 (wbits (l.getD 3 0) 63 32) else 0, sstride := if strided then toInt 32 (wbits (l.getD 3 0) 31 0) else 0,
      cell := (l.getD 4 0).toNat, tags := wbits f 63 63 == 1, strided := strided, ring := wbits f 61 60, started := decide (0 < n), row := n / max 1 rowb, off := n % max 1 rowb }

namespace State

/-! ## Writing and reading an owner's memory by pages -/

/-- The lines of a page that the host must give up before a device access (R50): all that it holds for a write, those of which it has the only copy for a read. -/
def heldLines (s : State) (pa : Nat) (need : Need) : List (Nat × Nat × Bool) :=
  if storage pa = .hbm then s.host.held.filter (fun h => h.2.1 / 4096 == pa / 4096 && (h.2.2 || decide (need = .write))) else []

/-- Where pages of an owner's space lie, for a device access at an interface: the first that needs service or must be waited for, or is refused, is named; a frame under scrub is waited for (R133), for a read so are the V of writes to the page that have arrived, a cocoon's among them (R156), and lines that the host holds are asked for (R50). -/
def pageSpots (s : State) (iface owner : Nat) (need : Need) : List Nat → Except (Nat × Option Service) (List (Nat × Nat)) × State
  | [] => (.ok [], s)
  | va :: rest =>
    match s.lookUp iface owner va need with
    | (.error v, s) => (.error (va, some v), s)
    | (.ok (pa, _, _), s) =>
      if s.storeCode iface owner pa ≠ 0 then (.error (va, none), s.logCode (iface * 1024) owner va pa (s.storeCode iface owner pa))
      else if s.scrubbing pa ∨ (need = .read ∧ s.arrived.any (fun a => a.key / 4096 == pa / 4096) = true) then (.error (va, some { kind := 8, level := 0, pte := word pa }), s)
      else if (s.heldLines pa need).isEmpty = false then (.error (va, some { kind := 8, level := 0, pte := word pa }), (s.heldLines pa need).foldl (fun s h => s.askHost h.1 h.2.1 (decide (need = .write))) s)
      else match s.pageSpots iface owner need rest with
        | (.ok l, s) => (.ok ((va, pa) :: l), s)
        | r => r

def spotOf (l : List (Nat × Nat)) (va : Nat) : Nat := ((l.find? (fun e => e.1 == va / 4096 * 4096)).map (·.2)).getD 0 + va % 4096

/-- A device write of a word with its tag; a word that was no VAL word is written as a fill. -/
def putWord (s : State) (k : Nat) (w : Word) (t : BitVec 2) : State :=
  let bs := offsets (toBytes 8 w.toNat)
  (s.shadowHost deviceCore k bs).arrive deviceCore 0 k bs (if t = 0 ∧ s.serialTag k = 0 then none else some t) (decide (t = 0))

def putWords (s : State) (l : List (Nat × Nat)) (va : Nat) (ws : List Word) : State :=
  ((List.range ws.length).zip ws).foldl (fun s e => s.putWord (spotOf l (va + 8 * e.1)) e.2 0) s

def getWords (s : State) (l : List (Nat × Nat)) (va n : Nat) : List Word := (List.range n).map (fun i => s.wordAt (spotOf l (va + 8 * i)))

/-- Copy n bytes of store into an owner's pages, tags with them. -/
def copyOut (s : State) (l : List (Nat × Nat)) (va k n : Nat) : State :=
  (List.range (n / 8)).foldl (fun s i => s.putWord (spotOf l (va + 8 * i)) (s.wordAt (k + 8 * i)) (s.tagAt (k + 8 * i))) s

/-- And back. -/
def copyIn (s : State) (l : List (Nat × Nat)) (va k n : Nat) : State :=
  (List.range (n / 8)).foldl (fun s i => (s.setWord (k + 8 * i) (s.wordAt (spotOf l (va + 8 * i)))).setTag (k + 8 * i) (s.tagAt (spotOf l (va + 8 * i)))) s

/-! ## A core at its stop (R189, R418) -/

/-- The contexts that a core holds, with their slots. -/
def residents (s : State) (core : Nat) : List (Nat × Ctx) :=
  (List.range 4).filterMap (fun k => match s.slotOf core k with | .busy c => some (k, c) | _ => none)

/-- A context that must first receive a response or a status, complete a BX4 acceptance, or finish a port read whose words it has (R188, R189, R385). -/
def outstanding (c : Ctx) : Bool :=
  !c.loads.isEmpty || finishes c.wait || match c.wait with
  | .far _ => true
  | .response _ _ _ => true
  | .remote _ => true
  | .own _ _ _ _ _ _ => true
  | _ => false

/-- Started matrix commands complete (R189, R136). -/
def finishMatrix (s : State) (core : Nat) : State :=
  ((s.getCore core).matq.filter (·.started)).foldl (fun s _ => s.matComplete core) s

/-- The copy engine finishes its current 4 KiB page (R189, R136). -/
def finishPage (s : State) (core : Nat) : Nat → State
  | 0 => s
  | n + 1 =>
    match (s.getCore core).copyq with
    | [] => s
    | c :: _ => if c.pageEnd then (s.setHead core { c with pages := c.pages.filter (fun e => !e.2.1) }).releaseLines else (s.engineStep core).finishPage core n

def pageFinished (s : State) (core : Nat) : Bool :=
  match (s.getCore core).copyq with
  | [] => true
  | c :: _ => c.pageEnd

/-- A drawn item not yet read in goes back to the head of its ring, or of its core's pinned list; a tethered instar to its core's list, where it still stands (R174). What the slot's read waited for no longer concerns it. -/
def undraw (s : State) (core slot : Nat) : State :=
  match s.slotOf core slot with
  | .drawn i d =>
    let o := s.coreOwner core
    let p := match i with
      | .task _ _ p _ => p
      | .instar n dd _ => ((s.getInstar { owner := o, die := dd, slot := n }).map (·.prio)).getD 0
    let tethered := match i with
      | .instar n dd _ => ((s.getInstar { owner := o, die := dd, slot := n }).bind (·.tethered)).isSome
      | _ => false
    let s := (s.forget (core * 4 + slot)).setSlot core slot (.empty 0)
    if tethered then s else (State.placeOne (s.setRing o d p ({ item := i, spot := none } :: s.queued o d p)) o d p).2.2
  | .empty _ => s.forget (core * 4 + slot)
  | .busy _ => s

def undrawAll (s : State) (core : Nat) : State := [3, 2, 1, 0].foldl (fun s k => s.undraw core k) s

/-- Every combining entry of a core drains; one that needs service stops its context, which leaves the ring (R344). -/
def drainCore (s : State) (core : Nat) : State :=
  match s.drainList core (s.getCore core).combining with
  | (.ok _, s) => s
  | (.error (e, v), s) => s.asSlot core e.slot fun s => s.blockOther e v

/-- Whether every store that contexts of a core issued has become visible. -/
def coreStored (s : State) (core : Nat) : Bool := (List.range 4).all (fun k => s.storesDone core k 7)

/-- A context that leaves a core for good or for a cocoon: its arrivals at .co, .qd and .die instances are withdrawn, and it is a member of none (R190). -/
def leaveBars (s : State) (core slot : Nat) : State :=
  { s with barriers := (s.barriers.map (fun b =>
      if b.members.contains (core, slot) then { b with members := b.members.erase (core, slot), count := if b.scope ≤ 3 then b.count - 1 else b.count } else b)).filter (fun b => decide (0 < b.count)) }

/-- The core's slots are empty. -/
def emptyCore (s : State) (core : Nat) : State :=
  let c := s.getCore core
  s.setCore core { c with slots := Vector.replicate 4 (.empty 0), stays := false }

/-! ## A gang's cocoon (R192, R385) -/

/-- The slots a core claims. -/
def claimed (s : State) (core : Nat) : List Nat := (List.range 64).filter (fun n => s.claims core n)

/-- The first addresses of the pages of a core's cocoon. -/
def cocoonPages (base slots scratch : Nat) : List Nat :=
  (List.range 5).map (fun i => base + 4096 * i) ++ (List.range 8).map (fun i => base + 0x8000 + 4096 * i) ++ (List.range slots).map (fun i => base + 0x10000 + 4096 * i)
    ++ (List.range (scratch / 4096)).map (fun i => base + 0x50000 + 4096 * i) ++ [base + 0x128000, base + 0x129000]

/-- A saved matrix command's two words (R385). -/
def matWords (m : MatCmd) : List Word :=
  [word (m.word % 2 ^ 32 * 2 ^ 32 + (m.fmt % 16 + m.rnd % 8 * 16 + bit m.sat * 128) * 2 ^ 24), word m.va]

/-- The 1 KiB of a core's header (R192). -/
def coreHeader (s : State) (f : Flight) (g m core : Nat) : List Word :=
  let c := s.getCore core
  let l := s.residents core
  let port (p : Nat) : List Word := (((c.rx.toList.getD p []).map PortWord.value) ++ List.replicate 16 0).take 16
  let shut (p : Nat) : Nat := bit (c.closed.toList.getD p false)
  let matq := (c.matq.map matWords).flatten
  let prog := c.copyq.map copyProgress
  [word (f.num * 2 ^ 32 + core * 2 ^ 18 + g % 64 * 2 ^ 12 + m * 2 ^ 6 + (l.map (fun e => 2 ^ e.1)).sum), word (c.mwt * 2 ^ 28 + c.cbanks), word ((s.claimed core).map (2 ^ ·)).sum]
    ++ (prog ++ List.replicate 4 0).take 4 ++ [word g] ++ (matq ++ List.replicate 8 0).take 8 ++ (List.range 4).flatMap port
    ++ [word ((List.range 4).map (fun p => (c.rx.toList.getD p []).length * 2 ^ (8 * p) + shut p * 2 ^ (32 + p))).sum] ++ List.replicate 47 0

/-- The ties of a core (what its cocoon does not hold). -/
def coreTies (s : State) (core n : Nat) : List Tie :=
  let c := s.getCore core
  let tie (what index : Nat) (key : Option Key) (co slot : Nat) : Tie := { cocoon := n, what := what, index := index, key := key, core := co, slot := slot }
  ((List.range c.copyq.length).zip c.copyq).map (fun e => tie 0 e.1 e.2.key e.2.home e.2.ring) ++
  ((List.range c.matq.length).zip c.matq).map (fun e => tie 1 e.1 e.2.key e.2.home e.2.ring) ++
  (s.residents core).filterMap (fun e => match e.2.wait with
    | .mwait m _ => some (tie 6 e.1 none core m)
    | .bar i _ => (s.barriers.find? (fun b => b.id == i && decide (4 ≤ b.scope))).map (fun b => tie 2 e.1 none core b.id)
    | _ => none) ++
  (List.range 4).flatMap (fun p => let ws := c.rx.toList.getD p []
    ((List.range ws.length).zip ws).filterMap (fun e => if e.2.closing then some (tie 5 (16 * p + e.1) none core 0) else none)) ++
  [tie 3 ((s.claimed core).map (2 ^ ·)).sum none core 0]

/-- Write a core's cocoon. -/
def writeCocoon (s : State) (f : Flight) (g m core : Nat) (l : List (Nat × Nat)) (base : Nat) : State :=
  let c := s.getCore core
  let os := s.claimed core
  let s := s.putWords l base (s.coreHeader f g m core)
  let s := (s.residents core).foldl (fun s e => s.putWords l (base + 0x400 + e.1 * 0x1100) (ctxWords s f.owner e.2)) s
  let s := s.copyOut l (base + 0x8000) (accKey core 0 0) 32768
  let s := ((List.range os.length).zip os).foldl (fun s e => s.copyOut l (base + 0x10000 + 4096 * e.1) (slotKey (quadOf core) e.2 0) 4096) s
  let s := s.copyOut l (base + 0x50000) (sramKey core 0) (scratchSize core c)
  let q := s.getQuad (quadOf core)
  let s := s.putWords l (base + 0x128000) ((List.range 64).map (fun n => if s.claims core n then SMap.get 0 q.elems n else 0))
  let s := ((List.range c.matq.length).zip c.matq).foldl (fun s e =>
    let hs := e.2.headers
    s.putWords l (base + 0x128200 + 0x400 * e.1) ((List.range (hs.length / 4)).map (fun i =>
      word ((hs.getD (4 * i) 0).toNat + (hs.getD (4 * i + 1) 0).toNat * 2 ^ 16 + (hs.getD (4 * i + 2) 0).toNat * 2 ^ 32 + (hs.getD (4 * i + 3) 0).toNat * 2 ^ 48)))) s
  ((List.range c.copyq.length).zip c.copyq).foldl (fun s e => s.putWords l (base + 0x129200 + 0x40 * e.1) (copyWords e.2)) s

/-- The pages of a core's contexts are written (R170), and none of its slots waits for a reply any more. -/
def leavePages (s : State) (core : Nat) : State :=
  let s := (s.residents core).foldl (fun s e => s.writePage core ((s.getCore core).pages.toList.getD e.1 0) e.2) s
  (List.range 4).foldl (fun s k => s.forget (core * 4 + k)) s

/-- A saved or lost core is left with no context, no queued command, no claim and no received word; its copy engine waits for no reply any more (R187). -/
def clearCore (s : State) (core : Nat) : State :=
  let s := (List.range 4).foldl (fun s k => s.leaveBars core k) ((s.leavePages core).forget (engineUnit core))
  let s := (s.setClaims core 4 (s.claimed core)).emptyCore core
  let c := s.getCore core
  s.setCore core { c with rx := Vector.replicate 4 [], closed := Vector.replicate 4 false, matq := [], copyq := [] }

/-! ## A gang's return (R193, R386) -/

/-- A matrix command from its saved words and headers. -/
def wordsMat (w0 w1 : Word) (headers : List Word) (ring flight : Nat) : Option MatCmd :=
  let p := wbits w0 31 24
  let b : MatCmd := { op := 0, slotA := 64, slotB := 64, acc := 8, addr := w1.toNat, va := w1.toNat, fmt := p % 16, rnd := p / 16 % 8, sat := p / 128 % 2 == 1, ring := ring, flight := flight,
                      word := wbits w0 63 32, headers := [], started := false, recheck := false }
  match decode (wbits w0 63 32) with
  | .ok (.mload sa _) => some { b with op := 2, slotA := sa }
  | .ok (.mldw sa _) => some { b with op := 3, slotA := sa, recheck := true }
  | .ok (.mmul ac sa slb) => some { b with op := 4, acc := ac, slotA := sa, slotB := slb, headers := if p % 16 = 5 then headers else [] }
  | .ok (.mzero ac) => some { b with op := 5, acc := ac }
  | .ok (.mstore ac _) => some { b with op := 6, acc := ac }
  | _ => none

/-- The core that takes the place of an old one (R193). -/
def newCore (f : Flight) (old : Nat) : Option Nat :=
  (f.cocoons.find? (fun c => c.2.2.1 == old)).bind (fun c => (f.groups.getD c.1 [])[c.2.1]?)

/-- A destination word under the new placement: core numbers of the old one in this package are replaced. -/
def moveDest (s : State) (f : Flight) (e : Word) : Word :=
  if wbits e 63 63 = 1 ∧ wbits e 62 61 = 0 ∧ wbits e 60 48 = s.pkgNum then
    match newCore f (wbits e 17 4) with
    | some n => word (e.toNat - wbits e 17 4 * 16 + n * 16)
    | none => e
  else e

/-- A restored context, its PDEST moved, and what its wait was. -/
def restoredCtx (s : State) (f : Flight) (slot cocoon : Nat) (ws : List Word) : Ctx :=
  let c := wordsCtx ws
  let c := { c with evcell := cellOf s.evals c.evc }
  let d := ws.getD 3 0
  let mask := ((f.ties.find? (fun t => t.cocoon == cocoon && t.what == 6 && t.index == slot)).map (·.slot)).getD 0
  { c with pdest := c.pdest.map (s.moveDest f),
           wait := if wbits (ws.getD 2 0) 63 60 = 3 then .mwait mask (if d = BitVec.allOnes 64 then none else some d.toNat) else Wait.ready }

/-- A saved arrival is added again, or stands where it was counted (R190). -/
def restoreBar (s : State) (f : Flight) (core slot cocoon : Nat) (ws : List Word) : State :=
  if wbits (ws.getD 2 0) 63 60 ≠ 5 then s
  else
    let d := ws.getD 3 0
    let sc := wbits d 58 56
    let n := wbits d 26 0
    if sc ≤ 3 then
      let name := f.num
      let place := barPlace core sc
      let id := match s.findBar sc name place with | some b => b.id | none => s.nextBar
      ((s.setWait core slot (.bar id sc)).barArrive sc name place n [(core, slot)]).2
    else
      match f.ties.find? (fun t => t.cocoon == cocoon && t.what == 2 && t.index == slot) with
      | some t =>
        if s.barriers.any (fun b => b.id == t.slot) then
          let s := s.setWait core slot (.bar t.slot sc)
          { s with barriers := s.barriers.map (fun b => if b.id = t.slot then { b with members := b.members ++ [(core, slot)] } else b) }
        else s.setWait core slot .barDone
      | none => s.setWait core slot .barDone

/-- Where saved cells and parked instars of a scratchpad go. -/
def moveKey (old new k : Nat) : Nat := if sramKey old 0 ≤ k ∧ k < sramKey old 2097152 then k - sramKey old 0 + sramKey new 0 else k

/-- Bring one core's cocoon back (R193). -/
def readCocoon (s : State) (f : Flight) (core cocoon : Nat) (l : List (Nat × Nat)) (base : Nat) : State :=
  let h := s.getWords l base 128
  let split := h.getD 1 0
  let mask := (h.getD 2 0).toNat
  let os := (List.range 64).filter (fun n => bits mask n n == 1)
  let occ := (h.getD 80 0).toNat
  let ring (what q : Nat) : Option Tie := f.ties.find? (fun t => t.cocoon == cocoon && t.what == what && t.index == q)
  let port (p : Nat) : List PortWord := (List.range (bits occ (8 * p + 4) (8 * p))).map (fun i => ({ value := h.getD (16 + 16 * p + i) 0, closing := (ring 5 (16 * p + i)).isSome } : PortWord))
  let copyq := (List.range 4).filterMap (fun q =>
    let prog := h.getD (3 + q) 0
    if wbits prog 63 63 = 0 then none
    else
      let c := wordsCopy (s.getWords l (base + 0x129200 + 0x40 * q) 8) prog
      let t := ring 0 q
      let home := ((t.bind (fun t => newCore f t.core)).getD core)
      some { c with owner := f.owner, flight := f.num, key := t.bind (·.key), home := home, ring := (t.map (·.slot)).getD c.ring, visible := 0 })
  let hdr (q : Nat) : List Word := (s.getWords l (base + 0x128200 + 0x400 * q) 128).flatMap (fun w => (List.range 4).map (fun i => word (wbits w (16 * i + 15) (16 * i))))
  let matq := (List.range 4).filterMap (fun q => wordsMat (h.getD (8 + 2 * q) 0) (h.getD (9 + 2 * q) 0) (hdr q) ((ring 1 q).map (·.slot) |>.getD 4) f.num
    |>.map (fun m => { m with key := (ring 1 q).bind (·.key), home := ((ring 1 q).bind (fun t => newCore f t.core)).getD core }))
  let c := s.getCore core
  let s := s.setCore core { c with mwt := wbits split 31 28, cbanks := cbanksOf split, l1 := [], rx := Vector.ofFn (fun p : Fin 4 => port p.val),
                                   closed := Vector.ofFn (fun p : Fin 4 => bits occ (32 + p.val) (32 + p.val) == 1), matq := matq, copyq := copyq }
  let s := s.copyIn l (base + 0x50000) (sramKey core 0) (scratchSize core (s.getCore core))
  let s := s.setClaims core (core % 4) os
  let s := ((List.range os.length).zip os).foldl (fun s e => (s.setElem core e.2 (s.wordAt (spotOf l (base + 0x128000 + 8 * e.2)))).copyIn l (base + 0x10000 + 4096 * e.1) (slotKey (quadOf core) e.2 0) 4096) s
  let s := s.copyIn l (base + 0x8000) (accKey core 0 0) 32768
  (List.range 4).foldl (fun s k =>
    if bits (h.getD 0 0).toNat k k = 0 then s
    else
      let ws := s.getWords l (base + 0x400 + k * 0x1100) 544
      let x := s.restoredCtx f k cocoon ws
      let s := s.setSlot core k (.busy x)
      s.restoreBar f core k cocoon ws) s

/-- What else moves with a gang, every core of it at once (R193): tethered instars, parked loads and evaluations on cells of its scratchpads, the destinations in its instars, and each word of the contexts' route tables. -/
def moveGang (s : State) (f : Flight) : State :=
  let key (k : Nat) : Nat := match f.cocoons.find? (fun c => decide (sramKey c.2.2.1 0 ≤ k) && decide (k < sramKey c.2.2.1 2097152)) with
    | some c => moveKey c.2.2.1 ((newCore f c.2.2.1).getD c.2.2.1) k
    | none => k
  let mine (p : Key × Instar) : Bool := p.1.owner == f.owner && p.2.flight == f.num
  let s := { s with
    instars := s.instars.map (fun p => (p.1, { p.2 with
      tethered := if mine p then p.2.tethered.map (fun c => (newCore f c).getD c) else p.2.tethered,
      pdest := if mine p then p.2.pdest.map (s.moveDest f) else p.2.pdest,
      state := match p.2.state with | .parked k t => .parked (key k) t | st => st })),
    evals := s.evals.map (fun e => { e with cell := key e.cell }) }
  (f.groups.flatten).foldl (fun s core =>
    -- an instar's RTB names a table of whatever core of the gang it goes on at (R176)
    let tables := (s.residents core).map (·.2.rtb.toNat) ++ (s.instars.filter mine).map (·.2.rtb.toNat)
    let words := firsts (tables.flatMap (fun a => if a + 512 ≤ scratchSize core (s.getCore core) then (List.range 64).map (fun i => sramKey core (a + 8 * i)) else []))
    words.foldl (fun s a => if s.tagAt a = 0 then s.setWord a (s.moveDest f (s.wordAt a)) else s) s) s

/-! ## Salvage cocoons (R139) -/

/-- The pages of the nth salvage slot that an owner takes from now. -/
def salvagePages (r : OwnerRec) (n : Nat) : List Nat := (List.range 5).map (fun i => r.slva + (r.slvnext + n) % 2 ^ r.slvlog * 32768 + 4096 * i)

/-- Whether one of an owner's next n salvage slots only has to be waited for, at an interface: a page table or a frame of it is under scrub, or the host holds it, which is asked. -/
def areaWaits (s : State) (iface o n : Nat) : Bool × State :=
  let r := s.ownerRec o
  if r.slva = 0 ∨ 10 < r.slvlog then (false, s)
  else (List.range n).foldl (fun (a : Bool × State) i => match a.2.pageSpots iface o .write (salvagePages r i) with
    | (.error (_, some v), s) => (a.1 || v.kind == 8, s)
    | (_, s) => (a.1, s)) (false, s)

/-- Up to four contexts go into one slot of an owner's salvage area, with their copy-queue entries, through the interface of the die where they stopped (R217): false where they are lost. -/
def writeSalvage (s : State) (iface o by_ cause time : Nat) (handle : Word) (cs : List Ctx) (copies : List CopyCmd) : Bool × State :=
  let r := s.ownerRec o
  if r.slva = 0 ∨ 10 < r.slvlog then (false, s)
  else
    let base := r.slva + r.slvnext % 2 ^ r.slvlog * 32768
    match s.pageSpots iface o .write (salvagePages r 0) with
    | (.error _, s) => (false, s)
    | (.ok l, s) =>
      let cp := copies.take 4
      let s := s.putWords l base ([handle, word (by_ * 2 ^ 48 + o * 2 ^ 32 + cause * 256 + cs.length), word time] ++ ((cp.map copyProgress) ++ List.replicate 4 0).take 4 ++ [0])
      let s := ((List.range cs.length).zip cs).foldl (fun s e => s.putWords l (base + 0x40 + 0x1100 * e.1) (ctxWords s o e.2)) s
      let s := ((List.range cp.length).zip cp).foldl (fun s e => s.putWords l (base + 0x4440 + 0x40 * e.1) (copyWords e.2)) s
      (true, s.setOwner o { s.ownerRec o with slvnext := (r.slvnext + 1) % 2 ^ 32 })

end State

end Sys2Proof.Machine
end

