-- ==== Sys2Proof/Machine/Flights.lean ====
section
/-! DEFINITION. Flights: the loader, waiting lists and placement passes (R143 to R152), the end of a flight (R153, R154), yield deadlines and the gang switch (R155, R156, R188 to R193). -/

namespace Sys2Proof.Machine

/-- B: the smallest power of two not less than GSIZE (R144). -/
def blockSize (n : Nat) : Nat := if n ≤ 1 then 1 else if n ≤ 2 then 2 else if n ≤ 4 then 4 else if n ≤ 8 then 8 else if n ≤ 16 then 16 else if n ≤ 32 then 32 else 64

namespace State

/-! ## Passes due (R148) -/

def kickPass (s : State) (o : Nat) : State :=
  if s.flights.passes.contains o then s else { s with flights := { s.flights with passes := s.flights.passes ++ [o] } }

/-- An owner whose silence is due and not yet told: transfers and placements find it silent (R127, R419), but that its own PULSE of this cycle may still prevent it, so that they wait for the next. -/
def silentDue (s : State) (o : Nat) : Bool :=
  let r := s.ownerRec o
  s.isLive o && !r.silent && r.pint != 0 && decide (r.lastPulse + 4 * r.pint ≤ s.time)

/-- An eligible core (R145). -/
def eligible (s : State) (o : Nat) (svc : Bool) (core : Nat) : Bool :=
  let e := s.getEntry (entryKey 1 core)
  decide (core < 16384) && e.holder == o && !(s.ownerRec o).silent && !e.acc && e.offop == 0 && s.isService core == svc

/-- A flight that has cores. -/
def placedNow (f : Flight) : Bool := f.state == .placed || f.state == .switching

/-- The placed flight that has a core. -/
def flightOn (s : State) (core : Nat) : Option Flight := s.flights.list.find? (fun f => placedNow f && f.groups.any (·.contains core))

/-- A core is under scrub, or the contexts of the borrower from whom it comes have still to stop: its holder's use of it waits (R133, R136). -/
def coreTurning (s : State) (core : Nat) : Bool := (s.getEntry (entryOfCore core)).scrub || s.coreLeaves core

/-- A free core: no placed flight has it, and no context is resident on it; one that its holder may not use yet is free once he may (R133, log 32). -/
def freeCore (s : State) (core : Nat) : Bool := (s.flightOn core).isNone && (s.residents core).isEmpty && !(s.coreTurning core)

/-- The marks of an owner's flights on a core that has stopped being eligible are dropped at once (R150). -/
def dropMarks (s : State) (o : Nat) (hit : Nat → Bool) : State :=
  { s with flights := { s.flights with list := s.flights.list.map (fun (f : Flight) => if f.owner = o ∧ f.marks.any (·.any hit) then { f with marks := [] } else f) } }

/-- After a change of a core's entry: a pass for an owner for whom it has become eligible, or who had it marked and loses the marks (R148, R150). -/
def coreChanged (old s : State) (core : Nat) : State :=
  let was (o : Nat) : Bool := old.eligible o (old.isService core) core
  let is_ (o : Nat) : Bool := s.eligible o (s.isService core) core
  [old.holder 1 core, s.holder 1 core].foldl (fun t o =>
    if is_ o && !(was o) then t.kickPass o
    else if was o && !(is_ o) && s.flights.list.any (fun f => f.owner == o && f.marks.any (·.contains core)) then (t.dropMarks o (· == core)).kickPass o
    else t) s

/-- A pass for the holder of each of some cores that is eligible and has become free (R148). -/
def coresFreed (s : State) (l : List Nat) : State :=
  l.foldl (fun s n => if s.eligible (s.holder 1 n) (s.isService n) n = true ∧ s.freeCore n = true then s.kickPass (s.holder 1 n) else s) s

/-! ## The lists (R147) -/

def inList (f : Flight) : Bool := f.state == .waiting || f.state == .saved

/-- The flights of a list, in order of arrival. -/
def listOf (s : State) (o p : Nat) : List Flight := s.flights.list.filter (fun f => f.owner == o && f.prio == p && inList f)

def headOf (s : State) (o p : Nat) : Option Flight := (s.listOf o p).head?

/-- A flight joins the tail of its list. -/
def joinList (s : State) (f : Flight) : State :=
  State.kickPass { s with flights := { s.flights with list := s.flights.list.filter (fun g => !(g.num == f.num && g.owner == f.owner)) ++ [{ f with joined := s.time }] } } f.owner

/-! ## choose and mark (R144, R149, R150, R386) -/

/-- The mask of operand slots that the cocoon for a group and member claims. -/
def cocoonMask (f : Flight) (g m : Nat) : Nat :=
  match f.cocoons.find? (fun c => c.1 == g && c.2.1 == m) with
  | some c => ((f.ties.find? (fun t => t.cocoon == c.2.2.2 && t.what == 3)).map (·.index)).getD 0
  | none => 0

/-- A core qualifies for a place of a saved gang (R386); its slots must not be those of a core chosen beside it. -/
def qualifies (s : State) (f : Flight) (g m core : Nat) (chosen : List (Nat × Nat)) : Bool :=
  f.state != .saved ||
  (s.unitHeld core && (List.range 64).all (fun n => bits (cocoonMask f g m) n n == 0 ||
    (s.claimOf core n == 4 && chosen.all (fun c => c.1 / 4 != core / 4 || bits c.2 n n == 0))))

/-- First fit, group by group, over the cores that a test admits. -/
def chooseFrom (s : State) (f : Flight) (ok : Nat → Bool) : List Nat → Nat → List (Nat × Nat) → Option (List (List Nat))
  | [], _, _ => some []
  | n :: ns, g, chosen =>
    let b := blockSize n
    match firstFrom (fun i => (List.range n).all (fun k => ok (i * b + k) && !(chosen.any (fun c => c.1 == i * b + k)) && s.qualifies f g k (i * b + k) chosen)) (16384 / b) 0 with
    | none => none
    | some i =>
      let block := (List.range n).map (i * b + ·)
      (s.chooseFrom f ok ns (g + 1) (chosen ++ (List.range n).map (fun k => (i * b + k, cocoonMask f g k)))).map (fun l => block :: l)

def choose (s : State) (f : Flight) (ok : Nat → Bool) : Option (List (List Nat)) := s.chooseFrom f ok f.shape 0 []

/-! ### The SHAPE test (R146, R151) -/

/-- Blocks alike, as masks of the cores that may be used, with how many there are. -/
def addBlocks (l : List (Nat × Nat)) (m n : Nat) : List (Nat × Nat) :=
  if n = 0 then l else if l.any (·.1 == m) then l.map (fun e => if e.1 = m then (m, e.2 + n) else e) else l ++ [(m, n)]

/-- Some choice among blocks alike gives each of a number of groups of n cores the first n of a block, and leaves what a test accepts. -/
def distribute (n : Nat) (rest : List (Nat × Nat) → Bool) : List (Nat × Nat) → Nat → List (Nat × Nat) → Bool
  | [], need, left => need == 0 && rest left
  | (m, c) :: l, need, left =>
    if m % 2 ^ n = 2 ^ n - 1 then
      (List.range (min c need + 1)).reverse.any (fun k => distribute n rest l (need - k) (addBlocks (addBlocks left m (c - k)) (m - (2 ^ n - 1)) k))
    else distribute n rest l need (addBlocks left m c)

/-- Groups of these sizes, each with how many there are, fit the blocks; block sizes from 64 down, a block's halves serving the smaller groups. -/
def fitBlocks : List Nat → List (Nat × Nat) → List (Nat × Nat) → Bool
  | [], sizes, _ => sizes.isEmpty
  | b :: bs, sizes, blocks =>
    let halves (l : List (Nat × Nat)) : List (Nat × Nat) := l.foldl (fun h e => addBlocks (addBlocks h (e.1 % 2 ^ (b / 2)) e.2) (e.1 / 2 ^ (b / 2)) e.2) []
    ((sizes.filter (fun e => blockSize e.1 == b)).foldr (fun e rest l => distribute e.1 rest l e.2 []) (fun l => fitBlocks bs (sizes.filter (fun e => blockSize e.1 != b)) (halves l))) blocks

/-- Some placement of a shape exists on the cores that a test admits. -/
def shapeExists (shape : List Nat) (ok : Nat → Bool) : Bool :=
  let blocks := (List.range 256).foldl (fun l i => addBlocks l (((List.range 64).map (fun j => if ok (64 * i + j) then 2 ^ j else 0)).sum) 1) []
  fitBlocks [64, 32, 16, 8, 4, 2, 1] ((firsts shape).map (fun n => (n, (shape.filter (· == n)).length))) blocks

/-- The SHAPE test (R146, R151): a placement exists on the owner's eligible cores, were all of them free. First fit finds it, where there is one, for groups of one size. -/
def shapeFits (s : State) (f : Flight) : Bool :=
  let ok := s.eligible f.owner f.svc
  (s.choose { f with state := .waiting } ok).isSome || (f.shape.any (· != f.shape.headD 0) && shapeExists f.shape ok)

/-- The cores marked by a head other than f at a priority equal to or higher than f's. -/
def markedByOthers (s : State) (f : Flight) (core : Nat) : Bool :=
  [0, 1, 2, 3].any (fun p => decide (f.prio ≤ p) && match s.headOf f.owner p with
    | some h => h.num != f.num && h.marks.any (·.contains core)
    | none => false)

def avail (s : State) (f : Flight) (core : Nat) : Bool := s.eligible f.owner f.svc core && s.freeCore core && !(s.markedByOthers f core)

/-- The block of eligible cores for the next group (R150): fewest cores outside avail, lowest base on a tie. -/
def bestBlock (s : State) (f : Flight) (n : Nat) (chosen : List Nat) : Option (List Nat) :=
  let b := blockSize n
  ((List.range (16384 / b)).foldl (fun best i =>
    let l := (List.range n).map (i * b + ·)
    if l.all (fun c => s.eligible f.owner f.svc c && !(chosen.contains c) && !(s.markedByOthers f c)) then
      let cost := (l.filter (fun c => !(s.avail f c))).length
      match best with
      | some (c, _) => if cost < c then some (cost, l) else best
      | none => some (cost, l)
    else best) (none : Option (Nat × List Nat))).map (·.2)

def markFrom (s : State) (f : Flight) : List Nat → List Nat → Option (List (List Nat))
  | [], _ => some []
  | n :: ns, chosen =>
    match s.bestBlock f n chosen with
    | none => none
    | some l => (s.markFrom f ns (chosen ++ l)).map (fun r => l :: r)

/-! ## Spilled words (R189, R193) -/

/-- The unit under which a gang's cocoon waits in a fault entry. -/
def cocoonUnit (num n : Nat) : Nat := 2 ^ 40 + num * 65536 + n

/-- A word for another package goes back to a port, from the core that has taken its sender's place. -/
def resendWord (s : State) (f : Flight) (since : Nat) (t : Txn) : State :=
  let sc := wbits t.w0 29 16
  let t := if wbits t.w3 60 60 = 1 then t else { t with w0 := word (t.w0.toNat - sc * 2 ^ 16 + ((newCore f sc).getD sc) * 2 ^ 16) }
  match s.pickPort f.owner 2 t.dpkg (wbits t.w0 29 16) with
  | some p => s.emitWord p since t
  | none => (s.txDone { core := wbits t.w0 29 16 + 16384 * wbits t.w3 60 60, txport := wbits t.w3 1 0, kind := 0, unit := 0, town := 0, port := 0, value := 0, closing := false, spilled := 0, left := true } true).logEntry 9 0 (wbits t.w0 29 16) (destAddr (wbits t.w3 21 20) (wbits t.w3 17 4) (wbits t.w3 1 0)) 1

/-- Spilled words of a gang go back to the network, ahead of any new word, and those for other packages to a port (R193); one that has no new core keeps its number. -/
def reinject (s : State) (f : Flight) : State :=
  let all := s.net.filter (fun w => w.spilled == f.num)
  let mine := (all.filter (·.away.isNone)).map (fun w =>
    let w := { w with core := (newCore f w.core).getD w.core, spilled := 0 }
    match (if w.kind = 0 then newCore f w.unit else none) with
    | some n => { w with unit := n }
    | none => w)
  (all.filterMap (·.away)).foldl (fun s e => s.resendWord f e.1 e.2) { s with net := mine ++ s.net.filter (fun w => w.spilled != f.num) }

/-- A gang that does not come back leaves nothing behind: the words in its spill area go on (R189), and no reply to the faults of its cocoons concerns it. -/
def gangGone (s : State) (f : Flight) : State :=
  f.cocoons.foldl (fun s c => s.forget (cocoonUnit f.num c.2.2.2)) (s.reinject { f with cocoons := [] })

/-! ## The end of a flight (R153, R154) -/

/-- Whether anything of a flight remains: a ready task or instar, an instar, a resident context, or an outstanding command. -/
def remains (s : State) (f : Flight) : Bool :=
  let itemOf : Item → Bool
    | .task _ n _ _ => n == f.num
    | .instar _ _ n => n == f.num
  let coreHas (c : Core) : Bool :=
    c.slots.toList.any (fun sl => match sl with | .busy x => x.flight == f.num | .drawn i _ => itemOf i | .empty _ => false) ||
    c.copyq.any (fun q => q.flight == f.num && q.owner == f.owner) || c.matq.any (fun m => m.flight == f.num)
  s.rings.any (fun r => (r.2.map (·.item)).any itemOf && (decide (2 ^ 24 ≤ r.1) || r.1 / 64 == f.owner)) || s.instars.any (fun p => p.1.owner == f.owner && p.2.flight == f.num) ||
  (flightCores f).any (fun n => coreHas (s.getCore n))

/-- The ready tasks and instars of a flight are discarded. -/
def discardItems (s : State) (f : Flight) : State :=
  let mine : Item → Bool
    | .task _ n _ _ => n == f.num
    | .instar _ _ n => n == f.num
  let s := { s with rings := (s.rings.map (fun (r : Nat × List Queued) => if r.1 / 64 = f.owner ∨ 2 ^ 24 ≤ r.1 then (r.1, r.2.filter (fun (q : Queued) => !mine q.item)) else r)).filter (fun r => !r.2.isEmpty) }
  { s with instars := s.instars.filter (fun p => !(p.1.owner == f.owner && p.2.flight == f.num && p.2.state == InstarState.ready)) }

/-- A flight is over: its LAUNCH has its result, and its cores are free; a pass follows where an eligible core becomes so (R148). -/
def closeFlight (s : State) (f : Flight) (status : Nat) (detail : Word) : State :=
  let s := { s with flights := { s.flights with list := s.flights.list.filter (fun g => !(g.num == f.num && g.owner == f.owner)) } }
  let s := (s.gangGone f).launchDone f status detail
  if placedNow f then s.coresFreed f.groups.flatten else s

def refuseFlight (s : State) (f : Flight) (reason : Nat) : State := (s.discardItems f).closeFlight f 2 (word reason)

/-- FLIGHT_END: a placed flight of which nothing remains ends (R153); one that has lost its last core stands in its list instead (R154, R417). -/
def endFlight (s : State) (num : Nat) : State :=
  match s.flights.list.find? (fun f => f.num == num) with
  | some f => if placedNow f ∧ ¬ s.remains f then s.closeFlight f 0 (word num) else s
  | none => s

/-- A placed flight loses a core (R154); one that is being switched takes no cocoon of that core, and its other cocoons keep their cores' new places. -/
def loseCore (s : State) (core : Nat) : State :=
  match s.flightOn core with
  | none => s
  | some f =>
    let gs := (f.groups.map (·.filter (· != core))).filter (fun g => !g.isEmpty)
    let place (n : Nat) : Nat × Nat := let g := (gs.findIdx? (·.contains n)).getD 0; (g, ((gs.getD g []).findIdx? (· == n)).getD 0)
    let s := (f.cocoons.filter (fun c => c.2.2.1 == core)).foldl (fun s c => s.forget (cocoonUnit f.num c.2.2.2)) s
    let cs := (f.cocoons.filter (fun c => c.2.2.1 != core)).map (fun c => ((place c.2.2.1).1, (place c.2.2.1).2, c.2.2.1, c.2.2.2))
    if gs.isEmpty then (s.gangGone f).joinList { f with groups := [], cocoons := [], shape := f.shape0, state := .waiting, age := 0, marks := [], switchAt := none }
    else s.setFlight { f with groups := gs, shape := gs.map List.length, cocoons := cs }

/-! ## Placing (R152, R156, R193) -/

/-- The unit under which the fill of a packet's FLIGHT waits in a fault entry. -/
def fillUnit (o h : Nat) : Nat := 2 ^ 62 + h / 32 * 65536 + o

/-- FLIGHT of an initial task's packet is filled (R157), and whether that is over: a write that has to wait is made later, and one that is refused is not made (log 32). -/
def fillFlight (s : State) (o h num : Nat) : Bool × State :=
  match s.agentReply (fillUnit o h) with
  | (some failed, s) => (failed, s)
  | (none, s) =>
  match s.locate (hubCore 0) o h 8 .write with
  | (.at k _, s) =>
    match s.hostHolds k with
    | some p => (false, s.askHost p (lineStart k) true)
    | none =>
      let bs := offsets (toBytes 4 num)
      (true, if s.plainWord k then (s.shadowHost deviceCore (k + 4) bs).arrive deviceCore 0 (k + 4) bs none false else s.logCode (hubCore 0) o h k 10)
  | (.code c k, s) => (true, s.logCode (hubCore 0) o h k c)
  | (.later, s) => (false, s)
  | (.service v, s) => s.agentFault (fillUnit o h) o (hubCore 0) h v true

/-- The fills that had to wait are tried again. -/
def fillTurn (s : State) : State :=
  s.fills.foldl (fun s e =>
    let r := s.fillFlight e.1 e.2.1 e.2.2
    if r.1 then { r.2 with fills := r.2.fills.erase e } else r.2) s

/-- The initial tasks become ready at FPRIO: packet i on the die of the first core of group i mod NGRP (R152). -/
def enqueueTasks (s : State) (f : Flight) : State :=
  ((List.range f.handles.length).zip f.handles).foldl (fun s e =>
    let die := dieOf ((f.groups.getD (e.1 % max 1 f.groups.length) []).headD 0)
    let r := s.fillFlight f.owner e.2 f.num
    State.pushRing (if r.1 then r.2 else { r.2 with fills := r.2.fills ++ [(f.owner, e.2, f.num)] }) f.owner die f.prio (.task e.2 f.num f.prio none)) s

/-- The cocoons of a gang whose pages can be read, and those whose cores are lost; none while one waits for service. -/
def gangPages (s : State) (f : Flight) (need : Need) (pages : State → Nat × Nat × Nat × Nat → Nat → List Nat) : List (Nat × Nat × Nat × Nat) → Option (List ((Nat × Nat × Nat × Nat) × List (Nat × Nat)) × List (Nat × Nat × Nat × Nat)) × State
  | [] => (some ([], []), s)
  | c :: cs =>
    let core := if need = .write then c.2.2.1 else ((f.groups.getD c.1 [])[c.2.1]?).getD 0
    let iface := dieOf core
    let keep (r : Option (List ((Nat × Nat × Nat × Nat) × List (Nat × Nat)) × List (Nat × Nat × Nat × Nat)) × State) (l : List (Nat × Nat)) := (r.1.map (fun x => ((c, l) :: x.1, x.2)), r.2)
    let lose (r : Option (List ((Nat × Nat × Nat × Nat) × List (Nat × Nat)) × List (Nat × Nat × Nat × Nat)) × State) := (r.1.map (fun x => (x.1, c :: x.2)), r.2)
    let fail (s : State) (va : Nat) (v : Option Service) :=
      match v with
      | none => lose (s.gangPages f need pages cs)
      | some v =>
        let r := s.agentFault (cocoonUnit f.num c.2.2.2) f.owner core va v (decide (need = .write))
        if r.1 then lose (r.2.gangPages f need pages cs) else (none, (r.2.gangPages f need pages cs).2)
    match s.agentReply (cocoonUnit f.num c.2.2.2) with
    | (some true, s) => lose (s.gangPages f need pages cs)
    | (some false, s) => (none, (s.gangPages f need pages cs).2)
    | (none, s) =>
    match s.pageSpots iface f.owner need [cocoonVa c.2.2.2] with
    | (.error (va, v), s) => fail s va v
    | (.ok l0, s) =>
      let split := if need = .write then (s.getCore core).cbanks else cbanksOf (s.wordAt (spotOf l0 (cocoonVa c.2.2.2 + 8)))
      match s.pageSpots iface f.owner need (pages s c (98304 * (16 - split))) with
      | (.error (va, v), s) => fail s va v
      | (.ok l, s) => keep (s.gangPages f need pages cs) l

/-- The pages of a cocoon to write, or to read. -/
def pagesOf (f : Flight) (need : Need) (s : State) (c : Nat × Nat × Nat × Nat) (scratch : Nat) : List Nat :=
  let slots := if need = .write then (s.claimed c.2.2.1).length else ((List.range 64).filter (fun n => bits (cocoonMask f c.1 c.2.1) n n == 1)).length
  cocoonPages (cocoonVa c.2.2.2) slots scratch

/-- The flight runs on its cores: awake; CBASE, CLIM, P and D are set (R24, R152, R155). -/
def runFlight (s : State) (f : Flight) : State :=
  let s := (f.groups.flatten).foldl (fun s n => let s := s.wakeCore n; let c := s.getCore n; s.setCore n { c with cbase := word f.image, clim := f.imglen }) s
  s.setFlight { f with state := .placed, age := 0, marks := [], placedAt := s.time, deadline := if f.ydl = 0 then 0 else s.time + f.ydl, switchAt := none, launched := true }

/-- A saved gang's operand slots go into a quad that is under scrub, which is waited for (R133). -/
def quadTurning (s : State) (g : Flight) : Bool :=
  g.cocoons.any (fun c => cocoonMask g c.1 c.2.1 != 0 && (s.getEntry (entryKey 2 (quadOf (((g.groups.getD c.1 [])[c.2.1]?).getD 0)))).scrub)

/-- A saved gang comes back on its new cores (R193); where one of its cocoons must wait the flight stays in its list, and a pass follows the reply, or the next moment where only a scrub or the host is waited for (log 35). -/
def resumeGang (s : State) (f g : Flight) : State :=
  if s.quadTurning g then s.kickPass f.owner
  else match s.gangPages g .read (pagesOf g .read) g.cocoons with
  | (none, s) => if g.cocoons.any (fun c => s.waiting (.agent (cocoonUnit g.num c.2.2.2))) then s else s.kickPass f.owner
  | (some (good, lost), s) =>
    -- a group that has lost a cocoon is dropped, and nothing of it comes back
    let good := good.filter (fun e => !(lost.any (fun c => c.1 == e.1.1)))
    let g := { g with cocoons := good.map (·.1) }
    let s := good.foldl (fun s e => s.readCocoon g (((g.groups.getD e.1.1 [])[e.1.2.1]?).getD 0) e.1.2.2.2 e.2 (cocoonVa e.1.2.2.2)) s
    let s := s.reinject g
    let s := s.moveGang g
    let keep := ((List.range g.groups.length).zip g.groups).filterMap (fun e => if lost.any (fun c => c.1 == e.1) then none else some e.2)
    if keep.isEmpty then s.joinList { f with groups := [], cocoons := [], ties := [], shape := f.shape0, state := .waiting, age := 0, marks := [] }
    else s.runFlight { g with groups := keep, shape := keep.map List.length, cocoons := [], ties := [] }

/-- A flight takes its cores (R152), its initial tasks enqueued at the first placement; a saved gang resumes (R156). -/
def place (s : State) (f : Flight) (blocks : List (List Nat)) : State :=
  let g := { f with groups := blocks }
  if f.state = .saved then s.resumeGang f g
  else if f.launched then s.runFlight g else (s.runFlight g).enqueueTasks g

/-! ## The placement pass (R149, R151) -/

/-- Whether a SEAL or UNSEAL of an owner waits (R114, R148). -/
def sealWaits (s : State) (o : Nat) : Bool :=
  s.queues.any (fun e => s.packetOwner e.1 == o && e.2.packets.any (fun p => (p.type == 6 || p.type == 7) && p.started && !p.worked))

/-- Heads that no placement fits any more are refused (R151). -/
def refuseHeads (s : State) (o p : Nat) : Nat → State
  | 0 => s
  | n + 1 =>
    match s.headOf o p with
    | none => s
    | some h => if s.shapeFits h then s else (s.refuseFlight h 3).refuseHeads o p n

/-- One list of the pass; true ends the pass at an aged head. -/
def passList (s : State) (o p : Nat) : List Nat → Bool × State
  | [] => (false, s)
  | n :: ns =>
    match (s.listOf o p).find? (fun f => f.num == n) with
    | none => s.passList o p ns
    | some f =>
      -- a flight that has become head within the pass is tested as the others were (R151)
      if (s.headOf o p).map (·.num) = some n ∧ ¬ s.shapeFits f then (s.refuseFlight f 3).passList o p ns
      else match s.choose f (s.avail f) with
      | some b => (s.place f b).passList o p ns
      | none =>
        if (s.headOf o p).map (·.num) = some n then
          let g := { f with age := min (f.age + 1) 8 }
          if g.age = 8 then
            (true, s.setFlight (if g.marks.isEmpty then { g with marks := (s.markFrom g g.shape []).getD [] } else g))
          else (s.setFlight g).passList o p ns
        else s.passList o p ns

def passPrios (s : State) (o : Nat) : List Nat → State
  | [] => s
  | p :: ps =>
    let r := s.passList o p ((s.listOf o p).map (·.num))
    if r.1 then r.2 else r.2.passPrios o ps

/-- PLACEMENT_PASS: a pass that is due runs, unless the owner is silent or a SEAL of it waits (R148). -/
def placementPass (s : State) (o : Nat) : State :=
  if ¬ s.flights.passes.contains o ∨ (s.ownerRec o).silent ∨ s.silentDue o ∨ s.sealWaits o then s
  else
    let s := { s with flights := { s.flights with passes := s.flights.passes.filter (· != o) } }
    let s := [3, 2, 1, 0].foldl (fun s p => s.refuseHeads o p (s.listOf o p).length) s
    let s := (s.flights.list.filter (fun f => f.owner == o)).foldl (fun s f => if f.marks.any (·.any (fun c => !(s.eligible o f.svc c))) then s.setFlight { f with marks := [] } else s) s
    s.passPrios o [3, 2, 1, 0]

/-! ## The loader (R146) -/

/-- What the loader's check comes to. -/
inductive Loaded where
  | accepted (handles : List Nat)
  | refused (detail : Nat)
  | wait (asked : Nat)            -- for the image, or for the initial task of index asked - 1
  deriving DecidableEq, Repr

/-- The flight that a LAUNCH packet describes (R109). -/
def flightOf (q o : Nat) (p : Packet) : Flight :=
  let ng := wbits (p.w 4) 63 48
  let gs := wbits (p.w 4) 47 40
  { num := p.flight, owner := o, queue := q, seq := p.seq, groups := [], shape := List.replicate ng gs, gsize := gs, shape0 := List.replicate ng gs, prio := wbits (p.w 4) 39 38,
    svc := wbits (p.w 4) 35 35 == 1, image := va57 (p.w 2), imglen := wbits (p.w 3) 63 32, tasks := va57 (p.w 5), ntask := wbits (p.w 6) 63 48, rydep := wbits (p.w 6) 31 16,
    ydl := (p.w 7).toNat, state := .waiting, age := 0, joined := 0, marks := [], placedAt := 0, deadline := 0, switchAt := none, cocoons := [], launched := false, handles := [], ties := [] }

/-- Every page of the image must be mapped with execute permission. -/
def checkImage (s : State) (f : Flight) (unit : Nat) : List Nat → Loaded × State
  | [] => (.accepted [], s)
  | va :: rest =>
    match s.translate 16 f.owner va .exec with
    | (.ok _, s) => s.checkImage f unit rest
    | (.error v, s) =>
      let r := s.agentFault unit f.owner (hubCore 0) va v false
      (if r.1 then .refused 5 else .wait 0, r.2)

/-- The initial tasks, one after another. -/
def checkTasks (s : State) (f : Flight) (unit : Nat) : Nat → Nat → Nat → List Nat → Loaded × State
  | 0, _, _, got => (.accepted got.reverse, s)
  | n + 1, i, h, got =>
    let bad : Nat := 6 + i * 65536
    match s.readPacket (hubCore 0) f.owner h with
    | (.error (.code _), s) => (.refused bad, s)
    | (.error .later, s) => (.wait (i + 1), s)
    | (.error (.service v va), s) =>
      let r := s.agentFault unit f.owner (hubCore 0) va v false
      (if r.1 then .refused bad else .wait (i + 1), r.2)
    | (.ok ws, s) =>
      if malformed ws f.imglen ∨ wbits (ws.getD 0 0) 63 32 ≠ 0 ∨ wbits (ws.getD 1 0) 63 48 ≠ 0 then (.refused bad, s)
      else s.checkTasks f unit n (i + 1) (h + 8 * ws.length) (h :: got)

/-- The loader's check, in the order of R146. -/
def loadCheck (s : State) (f : Flight) (unit : Nat) : Loaded × State :=
  let deep := f.rydep + ((s.flights.list.filter (fun g => g.owner == f.owner && g.prio == f.prio)).map (·.rydep)).sum
  if s.silentDue f.owner then (.wait 0, s)
  else if (s.ownerRec f.owner).silent then (.refused 1, s)
  else if (s.ownerRec f.owner).root = 0 then (.refused 2, s)
  else if ¬ s.shapeFits f then (.refused 3, s)
  else if f.rydep < f.ntask ∨ 4096 < deep then (.refused 4, s)
  else match s.checkImage f unit ((List.range ((f.imglen + 4095) / 4096)).map (fun i => f.image + 4096 * i)) with
    | (.accepted _, s) => s.checkTasks f unit f.ntask 0 f.tasks []
    | r => r

/-- LAUNCH's work (R109, R146): the flight joins its list, is refused, or its check waits; a reply that has come with FAIL = 1 refuses it for what asked. -/
def launchWork (s : State) (q : Nat) (p : Packet) : State :=
  let f := flightOf q (s.packetOwner q) p
  match s.agentReply (packetUnit q p.seq) with
  | (some true, s) => s.workDone q p 2 (word (if p.asked = 0 then 5 else 6 + (p.asked - 1) * 65536)) 0 s.time
  | (some false, s) => s
  | (none, s) =>
    match s.loadCheck f (packetUnit q p.seq) with
    | (.accepted l, s) => s.joinList { f with handles := l }
    | (.refused d, s) => s.workDone q p 2 (word d) 0 s.time
    | (.wait n, s) => s.setPacket q { p with asked := n }

/-! ## The gang switch (R155, R188, R189) -/

/-- YIELD_DEADLINE: D has passed with no cooperative YIELD (R155). -/
def yieldDeadline (s : State) (num : Nat) : State :=
  match s.flights.list.find? (fun f => f.num == num) with
  | some f =>
    if f.state = .placed ∧ f.ydl ≠ 0 ∧ f.deadline < s.time then
      let r := s.decideSwitch f f.deadline
      if r.1 then r.2.report f.owner 0x44 (word f.deadline) (word num) else r.2
    else s
  | none => s

/-- The words bound for, or sent from, a core of the gang go to its spill area, those that wait at a fabric port for another package among them (R189). -/
def spillWords (s : State) (f : Flight) : State :=
  let cores := f.groups.flatten
  let s := s.net.foldl (fun s w =>
    if w.spilled = 0 ∧ ((w.kind = 0 ∧ cores.contains w.unit ∧ w.town = f.owner) ∨ cores.contains w.core) then
      let s := s.txDone w false
      { s with net := s.net.replace w { w with spilled := f.num, left := true } }
    else s) s
  let own (t : Txn) : Bool := wbits t.w0 63 59 == 5 && wbits t.w0 42 30 == s.pkgNum && wbits t.w3 60 60 == 0 && cores.contains (wbits t.w0 29 16)
  s.fabric.ports.foldl (fun s p =>
    let out := p.2.held.filter (fun e => own e.2)
    if out.isEmpty then s
    else
      let s := s.setPort p.1 { s.getPort p.1 with held := (s.getPort p.1).held.filter (fun e => !own e.2) }
      { s with net := s.net ++ out.map (fun e => { core := 20000, txport := 0, kind := 3, unit := 0, town := f.owner, port := 0, value := 0, closing := false, spilled := f.num, left := true, away := some e }) }) s

/-- GANG_SWITCH: the gang stops at T, and its engines, words and drawn items come to rest. -/
def gangStop (s : State) (num : Nat) : State :=
  match s.flights.list.find? (fun f => f.num == num) with
  | some f =>
    if s.stopped f then
      let cores := f.groups.flatten
      (cores.foldl (fun s n => ((s.finishMatrix n).finishPage n 8).undrawAll n) s).spillWords f
    else s
  | none => s

/-- Whether a core of a stopped gang has nothing outstanding. -/
def coreQuiet (s : State) (core : Nat) : Bool :=
  (s.residents core).all (fun e => !(outstanding e.2)) && (s.getCore core).splitChange.isNone && s.pageFinished core && (s.getCore core).combining.isEmpty && s.coreStored core &&
  (s.getCore core).copyq.all (fun c => decide (c.visible ≤ s.time)) && s.arrived.all (fun a => a.core != engineCore core)

/-- Whether the stores that contexts of a gang issued before they left the ring are visible (R189): none of its instars has one on its way or still to drain, but where that waits for the reply to a fault (log 33). -/
def gangStored (s : State) (f : Flight) : Bool :=
  s.instars.all (fun p => p.1.owner != f.owner || p.2.flight != f.num ||
    (s.sentDone { core := 0, slot := 0, inst := some p.1 } 7 && (p.2.stores.isEmpty || retryStore p.2 || s.waiting (.agent (storesUnit p.1)))))

/-- GANG_SAVED: once nothing is outstanding, the cocoons are written, the cores are free, and the flight rejoins the tail of its list (R156, R189, R191). -/
def gangSaved (s : State) (num : Nat) : State :=
  let s := s.gangStop num
  match s.flights.list.find? (fun f => f.num == num) with
  | none => s
  | some f =>
    if ¬ s.stopped f then s
    else
      let cores := f.groups.flatten
      let s := cores.foldl (fun s n => s.drainCore n) s
      if ¬ cores.all s.coreQuiet ∨ ¬ s.gangStored f then s
      else match s.gangPages f .write (pagesOf f .write) f.cocoons with
        | (none, s) => s
        | (some (good, lost), s) =>
          let dropped := firsts (lost.map (·.1))
          let keep := good.filter (fun e => !(dropped.contains e.1.1))
          let ties := (keep.map (fun e => s.coreTies e.1.2.2.1 e.1.2.2.2)).flatten
          let s := keep.foldl (fun s e => s.writeCocoon f e.1.1 e.1.2.1 e.1.2.2.1 e.2 (cocoonVa e.1.2.2.2)) s
          let s := cores.foldl (fun s n => s.clearCore n) s
          let left := (List.range f.groups.length).filter (fun g => !(dropped.contains g))
          let renum (g : Nat) : Nat := (left.findIdx? (· == g)).getD 0
          let shape := left.map (fun g => (f.groups.getD g []).length)
          let g := { f with groups := [], age := 0, marks := [], switchAt := none, deadline := 0 }
          (if left.isEmpty then (s.gangGone f).joinList { g with shape := f.shape0, cocoons := [], ties := [], state := .waiting }
          else s.joinList { g with shape := shape, cocoons := keep.map (fun e => (renum e.1.1, e.1.2.1, e.1.2.2.1, e.1.2.2.2)), ties := ties, state := .saved }).coresFreed cores

end State

/-! ## Events -/

/-- PLACEMENT_PASS. -/
def execPlacementPass (s : State) : Host.Outcome State Fault Refusal := .next (s.placementPass s.arg.a)

/-- FLIGHT_END. -/
def execFlightEnd (s : State) : Host.Outcome State Fault Refusal := .next (s.endFlight s.arg.a)

/-- YIELD_DEADLINE. -/
def execYieldDeadline (s : State) : Host.Outcome State Fault Refusal := .next (s.yieldDeadline s.arg.a)

/-- GANG_SWITCH. -/
def execGangSwitch (s : State) : Host.Outcome State Fault Refusal := .next (s.gangStop s.arg.a)

/-- GANG_SAVED. -/
def execGangSaved (s : State) : Host.Outcome State Fault Refusal := .next (s.gangSaved s.arg.a)

end Sys2Proof.Machine
end

