-- ==== Sys2Proof/Machine/Ownership.lean ====
section
/-! DEFINITION. The ownership map: handles, entries and owner records as they read, silence, the state table, transfers and scrubs, reclaim and salvage (R121 to R141, R228, R406, R407, R418, R419). -/

namespace Sys2Proof.Machine

/-! ## Handles and statuses (R121, R128) -/

def hKind (h : Word) : Nat := wbits h 63 60
def hIndex (h : Word) : Nat := wbits h 19 0
def hKey (h : Word) : Nat := State.entryKey (hKind h) (hIndex h)

/-- How many indexes a kind has. -/
def kindLimit (k : Nat) : Nat :=
  match k with
  | 1 => 16384 | 2 => 4096 | 3 => 512 | 4 => 524288 | 5 => 512 | 6 => 4096 | 7 => 2304 | 8 => 768 | 9 => 65536
  | _ => 0

/-- A handle that names an entry. -/
def goodHandle (h : Word) : Bool := wbits h 59 20 == 0 && decide (hIndex h < kindLimit (hKind h)) && (hKind h != 9 || hIndex h != 0)

/-- The handle of an entry. -/
def entryHandle (e : Nat) : Word := word (e / 1048576 * 2 ^ 60 + e % 1048576)

/-- The status codes (R128). -/
def stOk : Nat := 0
def stPending : Nat := 1
def stNotHeld : Nat := 2
def stBadHandle : Nat := 3
def stNoOwner : Nat := 4
def stSilent : Nat := 5
def stNoOffer : Nat := 6
def stOffered : Nat := 7
def stLoaned : Nat := 8
def stEarly : Nat := 9
def stDepth : Nat := 10
def stBadDeadline : Nat := 11
def stNoLoan : Nat := 12
def stNotHeir : Nat := 13
def stNotSilent : Nat := 14
def stService : Nat := 15
def stFrozen : Nat := 16
def stBadRecord : Nat := 17
def stNotEmpty : Nat := 18

namespace State

/-! ## Entries (R124, R125, R137) -/

/-- A resource in use (R125). -/
def busyEntry (s : State) (e : Nat) : Bool :=
  let i := e % 1048576
  let held (n : Nat) : Bool := (List.range 4).any (fun k => match s.slotOf n k with | .empty _ => false | _ => true)
  match e / 1048576 with
  | 1 => held i || s.instars.any (fun p => p.2.tethered == some i && p.1.owner == s.coreOwner i)
  | 2 => (List.range 64).any (fun n => decide (SMap.get 4 (s.getQuad i).claims n < 4))
  | 3 => held (16384 + i)
  | 6 => (s.getQueue i).enable || (s.getQueue i).drain
  | _ => false

def frozen (s : State) (e : Entry) : Bool := (s.ownerRec e.holder).silent && s.isLive e.holder

/-- STATE but for freezing: 0 idle, 1 offered, 2 held, 3 lent. -/
def stateOf (s : State) (k : Nat) (e : Entry) : Nat :=
  if e.offop ≠ 0 then 1 else if e.lenders ≠ [] then 3 else if s.busyEntry k then 2 else 0

def svcEntry (s : State) (k : Nat) : Bool := k / 1048576 == 1 && s.isService (k % 1048576)

/-- The 64 bytes of an entry (R124): PREV is the state recorded as it became frozen. -/
def entryWords (s : State) (k : Nat) : List Word :=
  let e := s.getEntry k
  let st := s.stateOf k e
  let lender (n : Nat) : Nat := ((e.lenders[n]?).map (·.1)).getD 0
  let dl (n : Nat) : Word := word (((e.lenders[n]?).map (·.2)).getD 0)
  [word (k / 1048576 * 2 ^ 60 + (if s.frozen e then 4 else st) * 2 ^ 57 + (if s.frozen e then (if e.prev = 0 then s.stateOf 0 e else e.prev) else 0) * 2 ^ 54 + e.lenders.length * 2 ^ 52 + e.offop * 2 ^ 50 + bit e.acc * 2 ^ 49
      + bit e.scrub * 2 ^ 48 + e.holder * 2 ^ 32 + e.offer * 2 ^ 16 + bit (s.svcEntry k) * 2 ^ 15),
   word (lender 0 * 2 ^ 48 + lender 1 * 2 ^ 32 + lender 2 * 2 ^ 16), dl 0, dl 1, dl 2, word e.offdl, 0, 0]

/-- MISSED (R137). -/
def missed (s : State) (r : OwnerRec) : Nat := if r.pint = 0 then 0 else min 4 ((s.time - r.lastPulse) / r.pint)

/-- The 64 bytes of an owner record (R126). -/
def ownerWords (s : State) (o : Nat) : List Word :=
  let r := s.ownerRec o
  [word (o * 2 ^ 48 + r.heir * 2 ^ 32 + bit r.silent * 2 ^ 7 + s.missed r * 2 ^ 4 + bit (s.hasGrant o 4) + bit (s.hasGrant o 5) * 2 + bit (s.hasGrant o 7) * 4),
   word r.root, word (r.trapq + r.tqlog), word r.fsc, word r.pint, word r.lastPulse, word (r.slva + r.slvlog), word r.slvnext]

/-- Change an entry; a core's may make a pass due (R148). -/
def putEntry (s : State) (k : Nat) (e : Entry) : State :=
  let t := s.setEntry k e
  if k / 1048576 = 1 then State.coreChanged s t (k % 1048576) else t

/-! ## Silence (R137, R419) -/

/-- The report of a silence or an awakening: to the heir while it is live; a silence also to O1 where there is no live heir that is not silent. -/
def tellSilence (s : State) (o cause : Nat) : State :=
  let r := s.ownerRec o
  let live := r.heir ≠ 0 ∧ s.isLive r.heir
  let s := if live then s.report r.heir cause 0 (word o) else s
  if cause = 0x40 ∧ r.heir ≠ 1 ∧ (¬ live ∨ (s.ownerRec r.heir).silent) then s.report 1 cause 0 (word o) else s

/-- The entries that may be in use (R125), whether or not one of them is listed. -/
def usedEntries (s : State) : List Nat :=
  firsts (((s.coreNo :: s.cores.map (·.1)).filter (· < 16896) ++ s.instars.filterMap (·.2.tethered)).map entryOfCore ++ s.quads.map (fun q => entryKey 2 q.1) ++ s.queues.map (fun q => entryKey 6 q.1) ++ s.entries.map (·.1))

/-- Every entry that an owner holds becomes frozen: its state moves into PREV (R137). -/
def freezeEntries (s : State) (o : Nat) : State :=
  let old := s
  s.usedEntries.foldl (fun s k => let e := s.getEntry k; if e.holder = o then s.setEntry k { e with prev := old.stateOf k e } else s) s

/-- And is frozen no more. -/
def thawEntries (s : State) (o : Nat) : State :=
  s.entries.foldl (fun s p => if p.2.holder = o ∧ p.2.prev ≠ 0 then s.setEntry p.1 { p.2 with prev := 0 } else s) s

/-- An owner whose silence has fallen due becomes silent, at the time it fell due: its entries freeze, its cores are eligible no more and lose their marks. -/
def fallSilent (s : State) (o : Nat) : State :=
  let r := s.ownerRec o
  let due := r.lastPulse + 4 * r.pint
  if s.isLive o ∧ r.pint ≠ 0 ∧ r.silent = false ∧ due ≤ s.time then
    let now := s.time
    let s := (State.tellSilence { ((s.freezeEntries o).dropMarks o (fun _ => true)).setOwner o { r with silent := true } with time := due } o 0x40)
    { s with time := now }
  else s

/-- Every silence that is due, but for one owner's. -/
def silences (s : State) (but : Nat) : State := (s.owners.map (·.1)).foldl (fun s o => if o = but then s else s.fallSilent o) s

/-- PULSE (R137): one that reaches the record in the cycle of its silence prevents it; one that comes after a SALVAGE finds the owner gone. -/
def pulseOp (s : State) (i : Nat) : State :=
  if ¬ s.isLive i ∨ s.salvages.any (·.1 == i) then s
  else
    let r := s.ownerRec i
    let s := if r.lastPulse + 4 * r.pint < s.time then s.fallSilent i else s
    let was := (s.ownerRec i).silent
    let s := s.setOwner i { s.ownerRec i with lastPulse := s.time, silent := false }
    if was then ((s.thawEntries i).tellSilence i 0x41).kickPass i else s

/-! ## Scrubs (R141) -/

/-- The kinds that are scrubbed. -/
def scrubbed (k : Nat) : Bool := decide (1 ≤ k / 1048576) && decide (k / 1048576 ≤ 6)

/-- Whether a scrub can be complete: a frame's once no lease or arrival stands on it, a queue's once DRAIN is 0, a core's once its contexts have stopped and the commands that contexts no longer there have left in its queues are done (log 35). -/
def scrubReady (s : State) (k : Nat) : Bool :=
  let i := k % 1048576
  match k / 1048576 with
  | 4 => s.leases.all (fun l => l.1 / 32 / 512 != i || decide (l.2.2 ≤ s.time)) && s.arrived.all (fun a => a.key / 2097152 != i)
  | 1 => (s.getCore i).copyq.isEmpty && (s.getCore i).matq.isEmpty
  | 6 => !(s.getQueue i).enable && !(s.getQueue i).drain
  | _ => true

/-- The lines of a frame extent that the host holds, and must give up before its memory core zeroes them (R50). -/
def heldOfFrame (s : State) (k : Nat) : List (Nat × Nat × Bool) := if k / 1048576 = 4 then s.host.held.filter (fun h => h.2.1 / 2097152 == k % 1048576) else []

/-- A core's fault page is zeroed with its SRAM: local waiters execute their instruction again, and requests at the edges come again (log 10). -/
def dropFaultPage (s : State) (core : Nat) : State :=
  let ws := ((s.faultPage core).filter (·.valid)).flatMap (·.waiters)
  let s := s.setFaultPage core (List.replicate 64 FaultEntry.fresh)
  ws.foldl (fun s w => match w with
    | .instar k => match s.getInstar k with | some i => s.wakeAgain k i | none => s
    | .edge f t => s.requeue t (f - 20)
    | .agent _ => s) s

/-- What a scrub does to its resource. -/
def scrubEffect (s : State) (k : Nat) : State :=
  let i := k % 1048576
  match k / 1048576 with
  | 1 => ((s.zeroStore (sramKey i 0) (sramKey i 2097152)).dropFaultPage i).setCore i Core.fresh
  | 2 =>
    let q := s.getQuad i
    (s.zeroStore (slotKey i 0 0) (slotKey i 64 0)).setQuad i { q with scale := [] }
  | 3 => (s.zeroStore (sramKey (16384 + i) 0) (sramKey (16384 + i) 2097152)).setCore (16384 + i) Core.fresh
  | 4 => s.zeroStore (i * 2097152) ((i + 1) * 2097152)
  | 5 => { s.zeroStore (2 ^ 40 + i * 67108864) (2 ^ 40 + (i + 1) * 67108864) with sealedExt := s.sealedExt.filter (· != i) }
  | 6 => s.setQueue i Queue.fresh
  | _ => s

/-- SCRUB_COMPLETE: where the host holds lines of the frame it is asked for them instead. A core that its holder may use now is free, and a pass follows (R148). -/
def scrubDone (s : State) (k : Nat) : State :=
  let e := s.getEntry k
  if e.scrub = false then s
  else if s.heldOfFrame k ≠ [] then (s.heldOfFrame k).foldl (fun s h => s.askHost h.1 h.2.1 true) s
  else if s.scrubReady k then
    let s := (s.scrubEffect k).setEntry k { e with scrub := false }
    if k / 1048576 = 1 then s.coresFreed [k % 1048576] else s
  else s

/-! ## The end of an owner (R129, R138, R276) -/

/-- Take a key out of a waiter list that starts at a head. -/
def cutFrom (s : State) (k : Key) (next : Option Key) : Nat → Option Key → State
  | 0, _ => s
  | _ + 1, none => s
  | n + 1, some h =>
    match s.getInstar h with
    | none => s
    | some i => if i.link = some k then (s.setInstar h { i with link := next }).writeImage h.die h else s.cutFrom k next n i.link

/-- The cell in whose list an instar, or the proxy of a load of another package, is linked. -/
def linkCell (i : Instar) : Option Nat :=
  match i.state with
  | .parked c _ => some c
  | .remote _ _ _ c => some c
  | _ => none

/-- A parked instar is unlinked from its cell, whose word is rewritten (R276); the list is of its own owner's instars, also where SALVAGE has passed the frame on. A word that is no list any more, its tag lost (R265), stays as it is. -/
def unlink (s : State) (k : Key) (i : Instar) : State :=
  match linkCell i with
  | none => s
  | some c =>
    let w := s.wordAt c
    if s.tagAt c ≠ 1 ∧ s.tagAt c ≠ 3 then s
    else match waiterHead k.owner w with
    | none => s
    | some h =>
      if h = k then
        match i.link with
        | some l => s.setWord c (word (2 ^ 63 + l.die * 2 ^ 59 + l.slot * 2 ^ 46 + wbits w 15 0))
        | none => s.setWord c (word (wbits w 15 0))
      else s.cutFrom k i.link (s.instars.length + 1) (some h)

/-- Whether the cells of these instars only have to be waited for: the host holds a line of them, and is asked for it (R50). -/
def cellsWait (s : State) (l : List Instar) : Bool × State :=
  (l.filterMap linkCell).foldl (fun a c => match a.2.hostHolds c with | some p => (true, a.2.askHost p (lineStart c) true) | none => a) (false, s)

/-- The accesses for which a core's contexts and its engine wait are forgotten with them (R136, R161, R187). -/
def removeWork (s : State) (core : Nat) : State :=
  (List.range 4).foldl (fun s k => s.forget (core * 4 + k)) (s.forget (engineUnit core))

/-- An instar is removed by a reclaim or a salvage (R187, R275, R276). -/
def removeInstar (s : State) (k : Key) : State :=
  match s.getInstar k with
  | none => s
  | some i => (((((s.unlink k i).waitsOn i none).removeWaiter (.instar k)).freeInstar k).evaluatorGone i.evc i.evcell)

/-- An owner ceases to exist: its flights end, what stands in its name is discarded, and its faults go by generation. -/
def cease (s : State) (o : Nat) : State :=
  let nums := (s.flights.list.filter (fun f => f.owner == o)).map (·.num)
  let flightOf : Item → Nat
    | .task _ n _ _ => n
    | .instar _ _ n => n
  let s := (s.flights.list.filter (fun f => f.owner == o)).foldl (fun s f => s.closeFlight f 2 1) s
  let s := { s with flights := { s.flights with passes := s.flights.passes.filter (· != o) } }
  let s := (s.instars.filter (fun p => p.1.owner == o)).foldl (fun s p => (((s.unlink p.1 p.2).waitsOn p.2 none).removeWaiter (.instar p.1)).freeInstar p.1) s
  let s := { s with rings := (s.rings.filterMap (fun (r : Nat × List Queued) =>
    if r.1 < 2 ^ 24 then (if r.1 / 64 = o then none else some r)
    else
      let l := r.2.filter (fun (q : Queued) => !(nums.contains (flightOf q.item)))
      if l.isEmpty then none else some (r.1, l))) }
  let edges := s.faults.flatMap (fun p => p.2.flatMap (fun e => if e.valid && e.owner == o then e.waiters.filterMap (fun w => match w with | .edge _ t => some t | _ => none) else []))
  let s := { s with faults := s.faults.map (fun (p : Nat × List FaultEntry) => (p.1, p.2.map (fun (e : FaultEntry) => if e.valid ∧ e.owner = o then { e with valid := false, gen := (e.gen + 1) % 512, waiters := [] } else e))) }
  let s := edges.foldl (fun s t => s.answerTxn t 8 2 []) s
  { s with owners := s.owners.filter (fun p => p.1 != o), spareSince := (o, s.time) :: s.spareSince.filter (fun p => p.1 != o) }

/-! ## Transfers (R133, R135) -/

/-- A quiescent core that leaves its holder is none of a placed flight's cores any more, as after R154, for every core of a flight is its owner's (R143); one to which nothing remains has ended (R153). What becomes of any other the spec does not say: the model's choice (log 32). -/
def coreFromFlight (s : State) (k : Nat) : State :=
  let core := k % 1048576
  if k / 1048576 = 1 then State.loseCore (match s.flightOn core with | some f => s.endFlight f.num | none => s) core else s

/-- An accepted offer is carried out: HOLDER changes, and the resource is scrubbed before its use. -/
def transfer (s : State) (k : Nat) : State :=
  let e := s.getEntry k
  let s := s.coreFromFlight k
  let n : Entry := { e with holder := e.offer, offop := 0, offer := 0, offdl := 0, acc := false, scrub := scrubbed k, prev := 0, lenders := if e.offop = 2 then e.lenders ++ [(e.holder, e.offdl)] else e.lenders }
  let s := s.putEntry k n
  if e.offop = 1 ∧ k = entryKey 9 e.holder then s.cease e.holder else s

/-- A loan ends by its borrower's RETURN (R135), and its lender is told (R140); an offer that the borrower has made meanwhile ends with it. -/
def doReturn (s : State) (k : Nat) : State :=
  let e := s.getEntry k
  match e.lenders.getLast? with
  | none => s
  | some (l, _) =>
    let s := State.coreFromFlight { s with returning := s.returning.filter (fun p => p.1 != k) } k
    let s := s.putEntry k { e with holder := l, lenders := e.lenders.dropLast, offop := 0, offer := 0, offdl := 0, acc := false, scrub := scrubbed k, prev := 0 }
    s.report l 0x43 (entryHandle k) (word e.holder)

/-- ACCEPTED_TRANSFER: at the first moment the resource is quiescent. -/
def acceptedTransfer (s : State) (k : Nat) : State :=
  let e := s.getEntry k
  if e.acc ∧ e.offop ≠ 0 ∧ ¬ s.frozen e ∧ ¬ s.silentDue e.holder ∧ ¬ s.busyEntry k then s.transfer k else s

/-- RETURN_TRANSFER. -/
def returnTransfer (s : State) (k : Nat) : State :=
  let e := s.getEntry k
  if s.returning.contains (k, e.holder) ∧ ¬ s.frozen e ∧ ¬ s.silentDue e.holder ∧ ¬ s.busyEntry k then s.doReturn k else s

/-! ## Images (R126, R129) -/

/-- The eight words of an image at a device physical address, for an issuer without an address space (R129): in one frame extent that it holds, read at its memory core; none while the frame is under scrub or the host has the only copy of its line, and no words where it is bad. -/
def imagePhysical (s : State) (i c : Nat) : Option (List Word) × State :=
  if storage c ≠ .hbm ∨ c / 2097152 ≠ (c + 63) / 2097152 then (some [], s)
  else if s.holder 4 (c / 2097152) ≠ i then (some [], s.logCode (16384 + homeCore c) i c c 3)
  else if s.scrubbing c then (none, s)
  else if (s.hostOwns c).isSome ∨ (s.hostOwns (c + 63)).isSome then (none, (s.askOwner c).askOwner (c + 63))
  else if s.poisoned c 64 ∨ ¬ ((List.range 64).all (fun n => s.plainWord (c + n))) then (some [], s)
  else (some ((List.range 8).map (fun n => s.wordAt (c + 8 * n))), s)

/-- A core that an owner's record may name as its fault service core (R126). -/
def goodFsc (s : State) (o f : Nat) : Bool := s.holder 1 f == o || (s.isService f && s.holder 1 f == 1)

/-- A record from an image: none where a reserved bit or a limit is broken. -/
def parseImage (s : State) (o : Nat) (l : List Word) : Option OwnerRec :=
  let w (n : Nat) : Word := l.getD n 0
  let heir := wbits (w 0) 47 32
  let pint := (w 4).toNat
  if l.length ≠ 8 ∨ wbits (w 0) 31 8 ≠ 0 ∨ wbits (w 0) 3 3 ≠ 0 ∨ wbits (w 1) 63 52 ≠ 0 ∨ wbits (w 1) 11 0 ≠ 0 ∨ wbits (w 2) 63 57 ≠ 0 ∨ wbits (w 2) 11 5 ≠ 0 ∨ wbits (w 3) 63 14 ≠ 0 ∨
      wbits (w 6) 63 57 ≠ 0 ∨ wbits (w 6) 14 4 ≠ 0 ∨ wbits (w 7) 63 32 ≠ 0 then none
  else if heir ≠ 0 ∧ (heir = o ∨ ¬ s.isLive heir) then none
  else if pint ≠ 0 ∧ (pint < 1000 ∨ 2 ^ 40 < pint) then none
  else if 10 < wbits (w 6) 3 0 ∨ ¬ s.goodFsc o (wbits (w 3) 13 0) then none
  else some { OwnerRec.boot with heir := heir, root := (w 1).toNat, trapq := wbits (w 2) 56 12 * 4096, tqlog := wbits (w 2) 4 0, fsc := wbits (w 3) 13 0, pint := pint,
                                 lastPulse := s.time, slva := wbits (w 6) 56 15 * 32768, slvlog := wbits (w 6) 3 0 }

/-- Whether GIVE reads an image: a is an identifier entry that the issuer holds, and b is its INDEX (R129). -/
def readsImage (s : State) (i : Nat) (a b : Word) : Bool := goodHandle a && hKind a == 9 && b.toNat == hIndex a && s.holder 9 (hIndex a) == i

/-- The place of an ownership operation among those that reach one home in a cycle (R127): RETURN, ACCEPT, SALVAGE, PULSE, RECLAIM, GIVE, LEND. -/
def ownRank (op : Nat) : Nat :=
  match op with
  | 3 => 0
  | 1 => 1
  | 6 => 2
  | 7 => 3
  | 4 => 4
  | 0 => 5
  | 2 => 6
  | _ => 7

/-! ## The operations (R129 to R136) -/

/-- An operand that names an owner (R128). -/
def ownerStatus (s : State) (b : Word) : Nat :=
  if 65536 ≤ b.toNat ∨ ¬ s.isLive b.toNat then stNoOwner else if (s.ownerRec b.toNat).silent then stSilent else stOk

/-- An owner holds a core or a memory core; one that holds the estate does. -/
def holdsCores (s : State) (o : Nat) : Bool := o == s.estate || s.entries.any (fun e => e.2.holder == o && (e.1 / 1048576 == 1 || e.1 / 1048576 == 3))

/-- An offer is made; an heir's offer to an owner without cores is accepted at once (R134). -/
def offer (s : State) (i k b op dl : Nat) : State :=
  let s := s.putEntry k { s.getEntry k with offop := op, offer := b, offdl := dl }
  if (s.ownerRec b).heir = i ∧ ¬ s.holdsCores b then
    if s.busyEntry k then s.putEntry k { s.getEntry k with acc := true } else s.transfer k
  else s

/-- An owner that holds nothing but its identifier (R129). -/
def holdsNothing (s : State) (o : Nat) : Bool :=
  o != s.estate && s.entries.all (fun e => e.1 == entryKey 9 o || (e.2.holder != o && e.2.lenders.all (fun l => l.1 != o)))

/-- GIVE (R129, R132): a creation from a spare, an update, or an offer. An offer that stands on a spare is withdrawn by the creation (log 34). -/
def giveOp (s : State) (i : Nat) (a b : Word) (image : List Word) : Nat × State :=
  let k := hKey a
  let e := s.getEntry k
  let n := b.toNat
  let st := s.stateOf k e
  if ¬ goodHandle a then (stBadHandle, s)
  else if s.frozen e then (stFrozen, s)
  else if hKind a = 9 ∧ hIndex a = n ∧ n ≠ i ∧ e.holder = i ∧ s.isLive n = false then
    if s.spareSince.any (fun p => p.1 == n && decide (s.time < p.2 + 4194304 + 1024 + 2 * s.clock.skb)) then (stEarly, s)
    else match s.parseImage n image with
      | none => (stBadRecord, s)
      | some r => (stOk, (State.putEntry { s with owners := s.owners.filter (fun p => p.1 != n) ++ [(n, r)], spareSince := s.spareSince.filter (fun p => p.1 != n) } k { e with holder := n, offop := 0, offer := 0, offdl := 0, prev := 0 }))
  else if hKind a = 9 ∧ hIndex a = n ∧ n = i ∧ e.holder = i then
    match s.parseImage i image with
    | none => (stBadRecord, s)
    | some r =>
      let old := s.ownerRec i
      let s := s.setOwner i { r with silent := old.silent, lastPulse := old.lastPulse, slvnext := old.slvnext, held := old.held }
      (stOk, if e.acc then s else s.putEntry k { e with offop := 0, offer := 0, offdl := 0 })
  else if s.svcEntry k then (stService, s)
  else if s.ownerStatus b ≠ stOk then (s.ownerStatus b, s)
  else if e.holder ≠ i then (stNotHeld, s)
  else if st = 1 then (if n = i ∧ e.acc = false then (stOk, s.putEntry k { e with offop := 0, offer := 0, offdl := 0 }) else (stOffered, s))
  else if st = 3 then (stLoaned, s)
  else if hKind a = 9 ∧ hIndex a = i ∧ n ≠ (s.ownerRec i).heir then (stNotHeir, s)
  else if hKind a = 9 ∧ hIndex a = i ∧ ¬ s.holdsNothing i then (stNotEmpty, s)
  else (stOk, s.offer i k n 1 0)

def acceptOp (s : State) (i : Nat) (a : Word) : Nat × State :=
  let k := hKey a
  let e := s.getEntry k
  if ¬ goodHandle a then (stBadHandle, s)
  else if s.frozen e then (stFrozen, s)
  else if e.offop = 0 ∨ e.offer ≠ i then (stNoOffer, s)
  else if e.acc then (stPending, s)
  else if s.busyEntry k then (stPending, s.putEntry k { e with acc := true })
  else (stOk, s.transfer k)

def lendOp (s : State) (i : Nat) (a b c : Word) : Nat × State :=
  let k := hKey a
  let e := s.getEntry k
  if ¬ goodHandle a then (stBadHandle, s)
  else if s.frozen e then (stFrozen, s)
  else if s.svcEntry k then (stService, s)
  else if s.ownerStatus b ≠ stOk then (s.ownerStatus b, s)
  else if e.holder ≠ i then (stNotHeld, s)
  else if e.offop ≠ 0 then (stOffered, s)
  else if e.lenders.length = 3 then (stDepth, s)
  else if c.toNat ≤ s.time ∨ (match e.lenders.getLast? with | some l => decide (l.2 < c.toNat) | none => false) = true then (stBadDeadline, s)
  else (stOk, s.offer i k b.toNat 2 c.toNat)

def returnOp (s : State) (i : Nat) (a : Word) : Nat × State :=
  let k := hKey a
  let e := s.getEntry k
  if ¬ goodHandle a then (stBadHandle, s)
  else if s.frozen e then (stFrozen, s)
  else if e.holder ≠ i then (stNotHeld, s)
  else if e.offop ≠ 0 then (stOffered, s)
  else if e.lenders = [] then (stNoLoan, s)
  else if s.busyEntry k then (stPending, if s.returning.contains (k, i) then s else { s with returning := s.returning ++ [(k, i)] })
  else (stOk, s.doReturn k)

/-! ## Stopping a resource (R136, R138, R139, R418) -/

/-- The core that an entry names. -/
def coreOfEntry (k : Nat) : Option Nat := if k / 1048576 = 1 then some (k % 1048576) else if k / 1048576 = 3 then some (16384 + k % 1048576) else none

/-- A core can be stopped now: no context there still waits for a response or a status, its engines stand at a page, and no gang is being saved (R189, R418). -/
def canStop (s : State) (n : Nat) : Bool :=
  (s.residents n).all (fun e => !(outstanding e.2)) && s.pageFinished n && (match s.flightOn n with | some f => !(s.stopped f) | none => true)

/-- Bring a core's engines and stores to rest before its contexts are stopped. -/
def settleCore (s : State) (n : Nat) : State := (((s.finishMatrix n).finishPage n 8).undrawAll n).drainCore n

/-- Contexts in fours. -/
def fours {α : Type} : Nat → List α → List (List α)
  | 0, _ => []
  | n + 1, l => if l.isEmpty then [] else l.take 4 :: fours n (l.drop 4)

/-- The contexts and tethered instars of an owner on a core, each with its copy commands, and the commands that belong to none of them (R136). -/
def leavers (s : State) (n w : Nat) : List (Ctx × List CopyCmd) × List CopyCmd :=
  let here := s.coreOwner n == w
  let copies := if here then (s.getCore n).copyq.filter (fun q => q.owner == w) else []
  let cs := if here then (s.residents n).map (fun e => (e.2, copies.filter (fun q => q.key.isNone && q.home == n && q.ring == e.1))) else []
  let ts := (s.instars.filter (fun p => p.2.tethered == some n && p.1.owner == w)).map (fun p => (ctxOfInstar p.2, copies.filter (fun q => q.key == some p.1)))
  (cs ++ ts, copies.filter (fun q => !((cs ++ ts).any (fun e => e.2.contains q))))

/-- They go into salvage cocoons four to a slot, each slot with the commands of its contexts (R139), and the first also with those that belong to none of them. -/
def cocoonGroups (x : List (Ctx × List CopyCmd) × List CopyCmd) : List (List Ctx × List CopyCmd) :=
  let groups := if x.1.isEmpty ∧ ¬ x.2.isEmpty then [[]] else fours x.1.length x.1
  ((List.range groups.length).zip groups).map (fun g => (g.2.map (·.1), (g.2.map (·.2)).flatten ++ (if g.1 = 0 then x.2 else [])))

/-- One owner's contexts of a core become salvage cocoons; true where some are lost. -/
def salvageOf (s : State) (n o by_ cause : Nat) (handle : Word) : Bool × State :=
  (cocoonGroups (s.leavers n o)).foldl (fun r g =>
    let w := r.2.writeSalvage (ifaceOf n) o by_ cause s.time handle g.1 g.2
    (r.1 || !w.1, w.2)) (false, s)

/-- Whether the cocoons of some owners, or the cells in which their instars there are linked, only have to be waited for (R50, R133). -/
def stopWaits (s : State) (n : Nat) (owners : List Nat) : Bool × State :=
  owners.foldl (fun a w =>
    let b := a.2.areaWaits (ifaceOf n) w (cocoonGroups (a.2.leavers n w)).length
    let c := b.2.cellsWait ((s.instars.filter (fun p => p.2.tethered == some n && p.1.owner == w)).map (·.2))
    (a.1 || b.1 || c.1, c.2)) (false, s)

/-- Contexts and tethered instars of the borrowers on a core are written out and gone, with the engines' commands (R136 steps 1 and 2): the owners that lost some. -/
def stopCore (s : State) (n : Nat) (owners : List Nat) (by_ cause : Nat) (handle : Word) : List Nat × State :=
  let cs := if owners.contains (s.coreOwner n) then s.residents n else []
  let mine := owners.contains (s.coreOwner n)
  let r := owners.foldl (fun (r : List Nat × State) w =>
    let x := r.2.salvageOf n w by_ cause handle
    (if x.1 then w :: r.1 else r.1, x.2)) ([], s)
  let s := (owners.flatMap (fun w => s.instars.filter (fun p => p.2.tethered == some n && p.1.owner == w))).foldl (fun s p => s.removeInstar p.1) r.2
  if mine then
    let gone := (s.getCore n).copyq
    let s := cs.foldl (fun s c => s.evaluatorGone c.2.evc c.2.evcell) s
    let s := (s.removeWork n).clearCore n
    let s := gone.foldl (fun s q => s.noteCopy q 0) s
    (r.1, if n < 16384 then s.loseCore n else s)
  else (r.1, s)

/-- A core that is leaving: once its contexts stand at their boundaries they are written out, the borrowers are told, and the core is scrubbed for its new holder (R136, R418). -/
def leave1 (s : State) (l : Leaving) : State :=
  match coreOfEntry l.entry with
  | none => s
  | some n =>
    let s := s.settleCore n
    if ¬ s.canStop n then s
    else match s.stopWaits n l.owners with
      | (true, s) => s
      | (false, s) =>
        let r := s.stopCore n l.owners l.by_ l.cause (entryHandle l.entry)
        let s := { r.2 with leaving := r.2.leaving.erase l }
        let s := if l.scrub then s.putEntry l.entry { s.getEntry l.entry with scrub := true } else s
        let s := if n < 16384 then s.coresFreed [n] else s
        let s := l.told.foldl (fun s o => s.report o 0x42 (entryHandle l.entry) (word (bit (r.1.contains o) * 2 ^ 63 + l.by_))) s
        match l.back with
        | some (t, o) => s.report t 0x43 (entryHandle l.entry) (word o)
        | none => s

def leaveAll (s : State) : State := s.leaving.foldl (fun s l => s.leave1 l) s

/-- A resource that is no core is stopped at once: a quad's matrix units, a queue (R136). -/
def stopEntry (s : State) (k : Nat) : State :=
  let i := k % 1048576
  if k / 1048576 = 2 then
    (List.range 4).foldl (fun s j =>
      let s := s.finishMatrix (4 * i + j)
      let s := s.setClaims (4 * i + j) 4 (s.claimed (4 * i + j))
      s.setCore (4 * i + j) { s.getCore (4 * i + j) with matq := [] }) s
  else if k / 1048576 = 6 then s.disableQueue i
  else s

/-- The chain of a loan: LENDER1 first, HOLDER last. -/
def chain (e : Entry) : List Nat := e.lenders.map (·.1) ++ [e.holder]

/-- Loans d down to n are unwound (R136): the resource has its new holder at once; the contexts on a core still come to their boundaries (R418). Each borrower above lender n but one is told, and the resource is scrubbed. -/
def unwind (s : State) (k n by_ cause skip : Nat) (salvaged : Bool) : State :=
  let e := s.getEntry k
  let bor := firsts ((chain e).drop n)
  let new := (chain e).getD (n - 1) 0
  let core := coreOfEntry k
  let l : Leaving := { entry := k, owner := (match core with | some c => s.coreOwner c | none => e.holder), owners := bor, by_ := by_, cause := cause, told := bor.filter (· != skip), back := if salvaged then some (new, skip) else none, scrub := true }
  let s := { s with returning := s.returning.filter (fun p => p.1 != k) }
  let s := if core.isSome then { s with leaving := s.leaving ++ [l] } else s.stopEntry k
  let s := s.putEntry k { s.getEntry k with holder := new, lenders := e.lenders.take (n - 1), offop := 0, offer := 0, offdl := 0, acc := false, scrub := scrubbed k && core.isNone, prev := 0 }
  if core.isSome then s
  else
    let s := l.told.foldl (fun s o => s.report o 0x42 (entryHandle k) (word by_)) s
    if salvaged then s.report new 0x43 (entryHandle k) (word skip) else s

/-- RECLAIM (R136): its status is given as the map changes, also where contexts have still to stop (R128, R418). -/
def reclaimOp (s : State) (i : Nat) (a : Word) : Nat × State :=
  let k := hKey a
  let e := s.getEntry k
  if ¬ goodHandle a then (stBadHandle, s)
  else if e.lenders = [] then
    (if s.stateOf k e = 1 ∨ s.frozen e then (stNotHeld, s) else if e.holder = i then (stOk, s) else (stNoLoan, s))
  else
    let ks := (List.range e.lenders.length).filter (fun n => ((e.lenders[n]?).map (·.1)) == some i)
    match ks.find? (fun n => decide ((((e.lenders[n]?).map (·.2)).getD 0) ≤ s.time) || ((chain e).drop (n + 1)).any (fun o => (s.ownerRec o).silent)) with
    | some n => (stOk, s.unwind k (n + 1) i 1 0 false)
    | none => (if ks.isEmpty then stNotHeld else stEarly, s)

/-- OWNQ (R407): the status, with the words to write where it is OK. -/
def ownqOp (s : State) (i : Nat) (a b : Word) : Nat × List Word :=
  if b = 0 then (if goodHandle a then (stOk, s.entryWords (hKey a)) else (stBadHandle, []))
  else if b = 1 then
    if ¬ goodHandle a ∨ hKind a ≠ 9 then (stBadHandle, [])
    else
      let o := hIndex a
      if ¬ s.isLive o then (stNoOwner, [])
      else if i = o ∨ i = (s.ownerRec o).heir ∨ i = 1 then (stOk, s.ownerWords o)
      else (stOk, List.replicate 8 (BitVec.allOnes 64))
  else (stBadHandle, [])

/-! ## SALVAGE (R138) -/

/-- The cores that hold something, listed or in view. -/
def knownCores (s : State) : List Nat := firsts (s.coreNo :: s.cores.map (·.1))

/-- The entries of cores that an owner holds at DEPTH 0 and that may have something to stop. -/
def estateCores (s : State) (o : Nat) : List Nat :=
  (s.knownCores.filter (fun n => n < 16896)).map entryOfCore |>.filter (fun k => (s.getEntry k).holder == o && (s.getEntry k).lenders.isEmpty)

/-- The entries through which an owner is a borrower, with the loan to unwind. -/
def borrowed (s : State) (o : Nat) : List (Nat × Nat) :=
  s.entries.filterMap (fun e => (((chain e.2).drop 1).findIdx? (· == o)).map (fun n => (e.1, n + 1)))

/-- SALVAGE is taken up: the loans in which the owner is a borrower are unwound, and its own cores' contexts are to stop; from then on it does not wake (R127). -/
def takeEstate (s : State) (i o : Nat) : State :=
  let loans := s.borrowed o
  let cores := s.estateCores o
  let s := { s with salvages := s.salvages ++ [(o, i)] }
  let s := s.entries.foldl (fun s e =>
    if e.2.offop ≠ 0 ∧ (e.2.holder = o ∨ e.2.offer = o) then s.putEntry e.1 { s.getEntry e.1 with offop := 0, offer := 0, offdl := 0, acc := false } else s) s
  let s := loans.foldl (fun s l => s.unwind l.1 l.2 i 2 o true) s
  { s with leaving := s.leaving ++ (cores.filter (fun k => !(s.leaving.any (·.entry == k)))).map (fun k => { entry := k, owner := o, owners := [o], by_ := i, cause := 2, told := [], back := none, scrub := false }) }

/-- The instars of an owner that a SALVAGE takes, and the evaluations among its ready tasks, are removed: each evaluator that goes while its cell is ECLO is reported (R275). -/
def removeWaiting (s : State) (o : Nat) : State :=
  let nums := (s.flights.list.filter (fun f => f.owner == o)).map (·.num)
  let items := s.rings.flatMap (fun r => if r.1 < 2 ^ 24 then (if r.1 / 64 = o then r.2.map (·.item) else []) else (r.2.map (·.item)).filter (fun i => match i with | .task _ n _ _ => nums.contains n | .instar _ _ n => nums.contains n))
  let s := (s.instars.filter (fun p => p.1.owner == o)).foldl (fun s p => s.removeInstar p.1) s
  items.foldl (fun s i => match i with | .task _ _ _ (some e) => s.evaluatorGone (word (2 ^ 63 + e.2)) e.1 | _ => s) s

/-- Once the contexts have stopped, the owner ceases to exist, and its estate passes. -/
def passEstate (s : State) (i o : Nat) : State :=
  let s := s.removeWaiting o
  let old := s
  let s := { s with
    salvages := s.salvages.filter (fun x => x.1 != o)
    entries := s.entries.map (fun (e : Nat × Entry) =>
      (e.1, { e.2 with holder := if e.2.holder = o ∧ e.2.lenders = [] then i else e.2.holder, prev := if e.2.holder = o then 0 else e.2.prev, lenders := e.2.lenders.map (fun (l : Nat × Nat) => if l.1 = o then (i, l.2) else l) })) }
  let s := if s.estate = o then { s with estate := i } else s
  let s := (s.setEntry (entryKey 9 o) { s.getEntry (entryKey 9 o) with holder := i }).cease o
  let idle := s.idleEntry
  let s := { s with entries := s.entries.filter (fun e => e.2 != idle) }
  let s := { s with queues := s.queues.map (fun (q : Nat × Queue) => (q.1, if q.2.seat = o then { q.2 with seat := i } else q.2)) }
  let s := if old.estate = o then s.kickPass i else s
  (old.entries.filter (fun (e : Nat × Entry) => e.1 / 1048576 == 1)).foldl (fun s (e : Nat × Entry) => State.coreChanged old s (e.1 % 1048576)) s

/-- SALVAGE: none while contexts have still to stop, or cells of the owner's instars to come back from the host; another's waits behind it. A core on which its own issuer is one of those to stop does not hold it up: the issuer receives its status first (R418). -/
def salvageOp (s : State) (i : Nat) (a : Word) (here : Nat) : Option Nat × State :=
  let o := a.toNat
  let r := s.ownerRec o
  let heirGone := r.heir = 0 ∨ ¬ s.isLive r.heir ∨ (s.ownerRec r.heir).silent
  let taken := s.salvages.any (·.1 == o)
  if 65536 ≤ o ∨ ¬ s.isLive o then (some stNoOwner, s)
  else if ¬ taken ∧ r.silent = false then (some stNotSilent, s)
  else if ¬ taken ∧ i ≠ r.heir ∧ ¬ (i = 1 ∧ heirGone) then (some stNotHeir, s)
  else
    let s := (if taken then s else s.takeEstate i o).leaveAll
    let cells := s.cellsWait ((s.instars.filter (fun p => p.1.owner == o)).map (·.2))
    if s.leaving.any (fun l => (l.owner == o || l.owners.contains o) && l.entry != entryOfCore here) ∨ cells.1 = true ∨ ¬ s.salvages.contains (o, i) then (none, cells.2)
    else (some stOk, cells.2.passEstate i o)

/-! ## One operation at its home (R127, R419) -/

/-- Perform an operation of an owner, from a context of a core or, with 20000, from a packet: its status, with OWNQ's words; none while it must wait. Silence that is due takes effect before it, but for that of the owner of a PULSE. -/
def ownPerform (s : State) (here op i : Nat) (a b c : Word) (image : List Word) : Option (Nat × List Word) × State :=
  let plain (r : Nat × State) : Option (Nat × List Word) × State := (some (r.1, []), r.2)
  let s := s.silences (if op = 7 then i else 65536)
  match op with
  | 0 => plain (s.giveOp i a b image)
  | 1 => plain (s.acceptOp i a)
  | 2 => plain (s.lendOp i a b c)
  | 3 => plain (s.returnOp i a)
  | 4 => plain (s.reclaimOp i a)
  | 5 => (some (s.ownqOp i a b), s)
  | 6 => let r := s.salvageOp i a here; (r.1.map (fun n => (n, [])), r.2)
  | _ => (some (stOk, []), s.pulseOp i)

/-- The running context's operation is performed, and its status goes to rd; OWNQ's copy is written before it, and is held while a bank of it changes portion (R197). An instruction that has issued receives its status before its context stops (R418). -/
def ownFinish (s : State) (op rd : Nat) (a b c : Word) (image : List Word) : State :=
  if op = 5 ∧ s.splitSpan s.coreNo c.toNat 64 then s.await (.again 10)
  else match s.ownPerform s.coreNo op s.owner a b c image with
  | (none, s) => s.await (.again 10)
  | (some (st, ws), s) =>
    let s := if st = stOk ∧ ws ≠ [] then ((List.range ws.length).zip ws).foldl (fun s e => s.setWord (sramKey s.coreNo (c.toNat + 8 * e.1)) e.2) s else s
    (s.wx rd (word st)).next.leaveAll

/-- What an ownership instruction waits for, and then its operation: at once, or on its way to the home (R128). While it waits it has issued. -/
def ownSend (s : State) (op rd : Nat) (a b c : Word) (image : List Word) : State :=
  let t := s.release 7 fun s => if s.async then s.await (.own op rd a b c image) else s.ownFinish op rd a b c image
  if t.live ∧ t.ctx.wait = .again 4 then t.await (.again 10) else t

/-- GIVE's image, where it reads one (R129): a read that needs service blocks the instruction, any other failure leaves a bad image. -/
def giveImage (s : State) (a b c : Word) (k : State → List Word → State) : State :=
  if ¬ s.readsImage s.owner a b then k s []
  else if (s.ownerRec s.owner).root = 0 then
    match s.imagePhysical s.owner c.toNat with
    | (some l, s) => k s l
    | (none, s) => s.await (.again 10)
  else
    let va := va57 c
    s.drainSector s.owner va fun s =>
      match s.readWords s.coreNo s.owner va 8 with
      | (.ok ws, s) => k s ws
      | (.error (.service v b), s) => if s.fscGood s.owner s.coreNo then s.blockAgain s.owner b v false else k s []
      | (.error .later, s) => s.await (.again 10)
      | (.error (.code _), s) => k s []

/-- An operation that stands at its home (OWNERSHIP_OPERATION_AT_HOME). -/
def ownArrive (s : State) : State :=
  match s.live, s.ctx.wait with
  | true, .own op rd a b c image =>
    match s.ownPerform s.coreNo op s.owner a b c image with
    | (none, s) => s
    | (some _, _) => s.ownFinish op rd a b c image
  | _, _ => s

/-- The home of an operation (R127): a die, 16 and more for a hub. -/
def opHome (op : Nat) (a : Word) : Nat :=
  let i := hIndex a
  if 6 ≤ op then 16
  else match hKind a with
    | 1 => i / 1024
    | 2 => i / 256
    | 5 => i / 32
    | 3 => 16 + i / 128
    | 4 => 16 + homeCore (i * 2097152) / 128
    | _ => 16

/-- A PULSE that reaches its home in the very cycle of its owner's silence (R127). -/
def savesOwner (s : State) (op o : Nat) : Bool := op == 7 && (s.ownerRec o).silent == false && (s.ownerRec o).pint != 0 && (s.ownerRec o).lastPulse + 4 * (s.ownerRec o).pint == s.time

/-- The contexts whose operations reach the home of one's in the same cycle, in the order in which they are performed (R127): a PULSE that prevents a silence of this cycle comes first. -/
def ownTogether (s : State) (core slot : Nat) : List (Nat × Nat) :=
  let all := (s.knownCores).flatMap (fun n => (s.residents n).filterMap (fun e => match e.2.wait with | .own op _ a _ _ _ => some (n, e.1, op, a) | _ => none))
  let rank (x : Nat × Nat × Nat × Word) : Nat := if s.savesOwner x.2.2.1 (s.coreOwner x.1) then 0 else 1 + ownRank x.2.2.1
  match all.find? (fun x => x.1 == core && x.2.1 == slot) with
  | none => []
  | some m => (sortBy (fun (x y : Nat × Nat × Nat × Word) => decide (rank x ≤ rank y)) (all.filter (fun x => opHome x.2.2.1 x.2.2.2 == opHome m.2.2.1 m.2.2.2))).map (fun x => (x.1, x.2.1))

end State

/-! ## The instructions (R406) -/

/-- GIVE. -/
def execGive (rd rs1 rs2 rs3 : Nat) (s : State) : Host.Outcome State Fault Refusal :=
  .next (s.giveImage (s.rx rs1) (s.rx rs2) (s.rx rs3) fun s l => s.ownSend 0 rd (s.rx rs1) (s.rx rs2) (s.rx rs3) l)

/-- ACCEPT. -/
def execAccept (rd rs1 : Nat) (s : State) : Host.Outcome State Fault Refusal := .next (s.ownSend 1 rd (s.rx rs1) 0 0 [])

/-- LEND. -/
def execLend (rd rs1 rs2 rs3 : Nat) (s : State) : Host.Outcome State Fault Refusal := .next (s.ownSend 2 rd (s.rx rs1) (s.rx rs2) (s.rx rs3) [])

/-- RETURN. -/
def execReturnLoan (rd rs1 : Nat) (s : State) : Host.Outcome State Fault Refusal := .next (s.ownSend 3 rd (s.rx rs1) 0 0 [])

/-- RECLAIM. -/
def execReclaim (rd rs1 : Nat) (s : State) : Host.Outcome State Fault Refusal := .next (s.ownSend 4 rd (s.rx rs1) 0 0 [])

/-- OWNQ (R407): the place of the copy is checked at issue, and held while a bank of it changes portion (R197). -/
def execOwnq (rd rs1 rs2 rs3 : Nat) (s : State) : Host.Outcome State Fault Refusal :=
  let c := s.rx rs3
  .next (if c.toNat % 64 ≠ 0 then s.trapAddr 0x05 c 64
    else if s.splitSpan s.coreNo c.toNat 64 then s.await (.again 10)
    else if scratchSize s.coreNo s.core < c.toNat + 64 then s.trapAddr 0x06 c c
    else s.ownSend 5 rd (s.rx rs1) (s.rx rs2) c [])

/-- SALVAGE. -/
def execSalvage (rd rs1 : Nat) (s : State) : Host.Outcome State Fault Refusal := .next (s.ownSend 6 rd (s.rx rs1) 0 0 [])

/-- PULSE. -/
def execPulse (rd : Nat) (s : State) : Host.Outcome State Fault Refusal := .next (s.ownSend 7 rd 0 0 0 [])

/-! ## Events -/

/-- OWNERSHIP_OPERATION_AT_HOME: the operation of the context in a slot, or with c = 1 every one that is on its way to the same home, in the order of R127. -/
def execOwnershipOperationAtHome (s : State) : Host.Outcome State Fault Refusal :=
  .next (if s.arg.c = 1 then (s.ownTogether s.arg.a (s.arg.b % 4)).foldl (fun s e => s.asSlot e.1 e.2 State.ownArrive) s else s.asSlot s.arg.a (s.arg.b % 4) State.ownArrive)

/-- OWNER_SILENCE. -/
def execOwnerSilence (s : State) : Host.Outcome State Fault Refusal := .next (s.fallSilent s.arg.a)

/-- ACCEPTED_TRANSFER: the event carries the handle. -/
def execAcceptedTransfer (s : State) : Host.Outcome State Fault Refusal := .next (s.acceptedTransfer (hKey s.arg.w))

/-- RETURN_TRANSFER. -/
def execReturnTransfer (s : State) : Host.Outcome State Fault Refusal := .next (s.returnTransfer (hKey s.arg.w))

/-- SCRUB_COMPLETE: a core's contexts have stopped before it. -/
def execScrubComplete (s : State) : Host.Outcome State Fault Refusal := .next (s.leaveAll.scrubDone (hKey s.arg.w))

end Sys2Proof.Machine
end

