-- ==== Sys2Proof/Machine/Packets.lean ====
section
/-! DEFINITION. Packets: starting in order, the work of each type, release, signal, completion and record (R105 to R118), and the events of queues (R43, R44, R93, R94, R96, R97, R104). -/

namespace Sys2Proof.Machine

/-- A comparison of a waiting packet (R110). -/
def condHolds (cond : Nat) (a b : Word) : Bool :=
  match cond with
  | 0 => a == b
  | 1 => a != b
  | 2 => decide (b.toNat ≤ a.toNat)
  | 3 => decide (a.toNat < b.toNat)
  | 4 => decide (b.toInt ≤ a.toInt)
  | _ => decide (a.toInt < b.toInt)

/-- The status of a COPY packet for its engine's result code (R113). -/
def copyStatusOf (code : Nat) : Nat :=
  match code with
  | 0 => 0
  | 1 => 3
  | 2 => 4
  | 3 => 5
  | 4 => 6
  | 5 => 8
  | 6 => 10
  | 7 => 11
  | 8 => 3
  | _ => 4

/-- The closing signal of a packet (R109, R113): operation, address and value; none for the other types, and none once it is written. -/
def closingSignal (p : Packet) : Nat × Word × Word :=
  match p.type with
  | 1 => (wbits (p.w 4) 37 36, p.w 8, p.w 9)
  | 5 => (wbits (p.w 5) 62 61, p.w 6, p.w 7)
  | _ => (0, 0, 0)

/-- Whether a packet may start (R105, R106): the first that has not, once every blocking packet before it is done, and for a barrier, which every FENCE is (log 29), every packet before it; behind an acquire, once the atomics of earlier SIGNALs have returned. -/
def mayStart (before : List Packet) (p : Packet) : Bool :=
  before.all (fun x => x.done || !x.blocking) && (!(p.barrier || p.type == 9) || before.all (·.done)) && (p.acq == 0 || before.all (fun x => x.type != 4 || x.worked || x.done))

/-- The packets before the first that has not started, and that packet. -/
def firstUnstarted : List Packet → List Packet → Option (List Packet × Packet)
  | _, [] => none
  | seen, p :: ps => if p.started ∨ p.done then firstUnstarted (seen ++ [p]) ps else some (seen, p)

/-- The packet of a type whose work is under way. -/
def working (r : Queue) (ok : Nat → Bool) : Option Packet := r.packets.find? (fun p => p.started && !p.worked && ok p.type)

/-- Replace the first packet's copy: the body is spent once the closing signal is written. -/
def Packet.spent (p : Packet) (v : Nat) : Packet := { p with words := p.words.take 1, relAt := v }

namespace State

/-! ## Waiting (R110, R111) -/

/-- The comparisons of a waiting packet that a pass has still to read. -/
def unread (p : Packet) : List Nat := (List.range (wbits (p.w 2) 63 60)).filter (fun i => bits p.seen i i == 0)

/-- Read the words of some comparisons, each once in its pass (R111): a status ends the packet with its address; a read that waits leaves its word for later, and one that waits for a reply holds up those behind it. -/
def passFrom (s : State) (q : Nat) (p : Packet) : List Nat → Option (Nat × Word) × Packet × State
  | [] => (none, p, s)
  | i :: l =>
    let a := p.w (4 + 2 * i)
    match s.waitRead (packetUnit q p.seq) (s.packetOwner q) a with
    | (.status c, s) => (some (c, a), p, s)
    | (.wait, s) => if s.waiting (.agent (packetUnit q p.seq)) then (none, { p with asked := i + 1 }, s) else s.passFrom q p l
    | (.word none, s) => s.passFrom q { p with seen := p.seen + 2 ^ i } l
    | (.word (some w), s) =>
      s.passFrom q { p with seen := p.seen + 2 ^ i, held := if condHolds (wbits (p.w 3) (4 * i + 3) (4 * i)) w (p.w (5 + 2 * i)) then p.held + 2 ^ i else p.held } l

/-- A pass goes on with the words given (R111), once the reply that it waits for has come; FAIL = 1 fails the read that asked. Once it has read every word it ends: the packet is done, or the next pass is due 1 µs later while the queue is resident, else 16 µs later. -/
def passOn (s : State) (q : Nat) (p : Packet) (l : List Nat) : State :=
  let n := wbits (p.w 2) 63 60
  match (if p.asked = 0 then (none, s) else s.agentReply (packetUnit q p.seq)) with
  | (some true, s) => s.workDone q p 3 0 (p.w (2 + 2 * p.asked)) s.time
  | (some false, s) => s
  | (none, s) =>
  match s.passFrom q { p with asked := 0 } l with
  | (some (c, a), p, s) => s.workDone q p c 0 a s.time
  | (none, p, s) =>
    if unread p ≠ [] then s.setPacket q { p with reading := true }
    else if p.type = 2 ∧ p.held = 2 ^ n - 1 then s.workDone q p 0 0 0 s.time
    else if p.type = 3 ∧ p.held ≠ 0 then s.workDone q p 0 (word p.held) 0 s.time
    else s.setPacket q { p with started := true, seen := 0, held := 0, reading := false, relAt := s.time + (if (s.getQueue q).engine = 255 then 16000 else 1000) }

/-- WAIT_PASS: a pass, or what is left of it. -/
def waitPass (s : State) (q : Nat) (p : Packet) : State := s.passOn q p (unread p)

/-- WAIT_PASS for one word of a pass, number k of those it has still to read: other steps may come between one read and the next (R111). -/
def waitWord (s : State) (q : Nat) (p : Packet) (k : Nat) : State := s.passOn q p (((unread p).drop k).take 1)

/-- WAIT_TIMEOUT: LIMIT ticks have passed since the packet started; a pass that has begun to read goes first, but for one that waits for service, whose reply then concerns it no more (log 29). -/
def waitTimeout (s : State) (q : Nat) (p : Packet) : State :=
  let limit := wbits (p.w 2) 47 0
  if limit ≠ 0 ∧ p.since + limit ≤ s.time ∧ (p.reading = false ∨ s.waiting (.agent (packetUnit q p.seq)) = true) then s.workDone q p 1 0 0 s.time else s

/-- A waiting packet goes on: the pass that is due, and then its timeout (R111). -/
def waitWork (s : State) (q : Nat) (p : Packet) : State :=
  let t := if p.relAt ≤ s.time then s.waitPass q p else s
  match (t.getQueue q).packets.find? (fun x => x.seq == p.seq && !x.worked) with
  | some x => t.waitTimeout q x
  | none => t

/-! ## The work of each type (R109 to R116) -/

/-- SIGNAL's work (R112). -/
def signalWork (s : State) (q : Nat) (p : Packet) : State :=
  match s.signalOp 0 (packetUnit q p.seq) (s.packetOwner q) (p.w 3) (wbits (p.w 2) 63 62) (p.w 4) with
  | (.status 0, v, s) => s.workDone q p 0 0 0 v
  | (.status c, _, s) => s.workDone q p c 0 (p.w 3) s.time
  | (_, _, s) => s

/-- COPY is given to the engine of hub q mod 4 (R113). -/
def copyStart (s : State) (q : Nat) (p : Packet) : State :=
  let h := q % 4
  let c : CopyCmd := { CopyCmd.blank with dst := va57 (p.w 3), src := va57 (p.w 2), rowb := (p.w 4).toNat, tags := wbits (p.w 5) 63 63 == 1, owner := s.packetOwner q }
  { s with hubCopy := s.hubCopy.setIfInBounds h (s.hubCopy.toList.getD h [] ++ [(q, c)]) }

/-- COPY's work is done once the engine's command for it has ended and every write of it is visible (R113, R258): DETAIL is the bytes copied, all of LEN where it succeeds. -/
def copyWork (s : State) (q : Nat) (p : Packet) : State :=
  match s.hubCopy.toList.getD (q % 4) [] with
  | (n, c) :: _ =>
    match c.res with
    | some r =>
      if n = q ∧ c.visible ≤ s.time ∧ s.arrived.all (fun a => a.core != engineCore (17500 + q % 4)) = true then
        let code := wbits r 62 56
        (s.dropHead (17500 + q % 4)).workDone q p (copyStatusOf code) (if code = 0 then p.w 4 else word (wbits r 55 8)) (if code = 0 then 0 else word c.stopAt) s.time
      else s
    | none => s
  | [] => s

/-- The extents of a run (R114). -/
def sealRun (p : Packet) : List Nat := (List.range (wbits (p.w 2) 24 16 + 1)).map (fun i => wbits (p.w 2) 8 0 + i)

/-- SEAL and UNSEAL start (R114): NOTHELD where the owner does not hold every extent of the run. -/
def sealStart (s : State) (q : Nat) (p : Packet) : State :=
  if (sealRun p).all (fun e => s.holder 5 e == s.packetOwner q) then s else s.workDone q p 7 0 0 s.time

/-- SEAL_EXTENT_CHANGE: no flight of the owner is placed any more and no extent of the run is under scrub (R133, R141), and every one changes. Passes that became due while it waited stand in the list and run now (R148). -/
def sealChange (s : State) (q : Nat) (p : Packet) : State :=
  let o := s.packetOwner q
  let run := sealRun p
  if s.flights.list.any (fun f => f.owner == o && placedNow f) ∨ run.any (fun e => (s.getEntry (entryKey 5 e)).scrub) = true then s
  else
    let rest := s.sealedExt.filter (fun e => !(run.contains e))
    State.workDone { s with sealedExt := if p.type = 6 then rest ++ run else rest } q p 0 0 0 s.time

/-- Whether every store of the packets before one in its queue, a SIGNAL's, a COPY's and its closing signal, is visible (R106, R128). -/
def storesBefore (s : State) (q : Nat) (p : Packet) : Bool :=
  ((s.getQueue q).packets.takeWhile (fun x => x.seq != p.seq)).all (fun x =>
    (x.type != 4 && x.type != 5) || x.done || (x.worked && decide (x.relAt ≤ s.time) && (closingSignal x).2.1 == 0))

/-- OWN's image (R115, R129): none while the read waits, for service or for its line. -/
def ownImage (s : State) (q : Nat) (p : Packet) : Option (List Word) × State :=
  if ¬ s.readsImage 1 (p.w 3) (p.w 4) then (some [], s)
  else if (s.ownerRec 1).root = 0 then s.imagePhysical 1 (p.w 5).toNat
  else match s.agentReply (packetUnit q p.seq) with
  | (some failed, s) => (if failed then some [] else none, s)
  | (none, s) =>
    let va := va57 (p.w 5)
    match s.readWords (hubCore 0) 1 va 8 with
    | (.ok ws, s) => (some ws, s)
    | (.error (.code _), s) => (some [], s)
    | (.error .later, s) => (none, s)
    | (.error (.service v b), s) =>
      let r := s.agentFault (packetUnit q p.seq) 1 (hubCore 0) b v false
      (if r.1 then some [] else none, r.2)

/-- A silence falls due in this very cycle, in which a PULSE of its owner may still come (R127). -/
def silenceNow (s : State) : Bool := s.clock.on && s.owners.any (fun o => s.isLive o.1 && !o.2.silent && o.2.pint != 0 && o.2.lastPulse + 4 * o.2.pint == s.time)

/-- OWN's work (R115): after the V of every earlier store of its queue (R128), the operation of O1, its status in DETAIL. One that would reach its home in the cycle of a silence reaches it in the next (log 34). -/
def ownWork (s : State) (q : Nat) (p : Packet) : State :=
  let op := wbits (p.w 2) 2 0
  if ¬ s.storesBefore q p ∨ (op ≠ 7 ∧ s.silenceNow = true) then s
  else match s.ownImage q p with
  | (none, s) => s
  | (some image, s) =>
    match s.ownPerform 20000 op 1 (p.w 3) (p.w 4) (p.w 5) image with
    | (none, s) => s
    | (some (st, _), s) => s.workDone q p 0 (word st) 0 s.time

/-- The work of a started packet goes on. -/
def progress (s : State) (q : Nat) (p : Packet) : State :=
  match p.type with
  | 0 => s.workDone q p 0 0 0 s.time
  | 1 => if s.flights.list.any (fun f => f.num == p.flight) then s else s.launchWork q p
  | 2 => s.waitWork q p
  | 3 => s.waitWork q p
  | 4 => s.signalWork q p
  | 5 => s.copyWork q p
  | 6 => s.sealChange q p
  | 7 => s.sealChange q p
  | 8 => s.ownWork q p
  | _ => s.workDone q p 0 0 0 s.time

/-! ## Starting (R105, R106) -/

/-- The order of a queue's starts among all queues' (R96). -/
def nextStart (s : State) : Nat := s.queues.foldl (fun m e => max m e.2.turn) 0 + 1

/-- A packet starts. Its acquire finds the earlier loads of packets returned, for each is one read at its home. -/
def beginPacket (s : State) (q : Nat) (p : Packet) : State :=
  let s := s.setPacket q { p with started := true, since := s.time, relAt := s.time }
  let s := s.setQueue q { s.getQueue q with turn := s.nextStart }
  match p.type with
  | 5 => s.copyStart q { p with started := true, since := s.time, relAt := s.time }
  | 6 => s.sealStart q { p with started := true, since := s.time, relAt := s.time }
  | 7 => s.sealStart q { p with started := true, since := s.time, relAt := s.time }
  | _ => s

/-- And its work goes on at once. -/
def startPacket (s : State) (q : Nat) (p : Packet) : State :=
  let t := s.beginPacket q p
  match p.type with
  | 5 => t
  | 6 => t
  | 7 => t
  | _ => t.progress q { p with started := true, since := s.time, relAt := s.time }

/-- The packet of a queue that may start now: where an engine serves the queue, or nothing is left of it but what has been consumed (R96). -/
def startable (r : Queue) : Option Packet :=
  match firstUnstarted [] r.packets with
  | some (before, p) => if r.enable ∧ ¬ r.halted ∧ (r.engine ≠ 255 ∨ candidate r = false) ∧ mayStart before p then some p else none
  | none => none

/-- An engine's queues in the order in which it serves them (R96): by priority, and among equals the one whose last start lies furthest back. -/
def engineOrder (s : State) (e : Nat) : List Nat :=
  (sortBy (fun (a b : Nat × Queue) => decide (b.2.prio < a.2.prio) || (a.2.prio == b.2.prio && decide (a.2.turn ≤ b.2.turn))) (s.queues.filter (fun x => x.2.engine == e))).map (·.1)

/-- The queue that an engine serves next: the first of them with a packet that may start. -/
def engineNext (s : State) (e : Nat) : Option Nat := (s.engineOrder e).find? (fun q => (startable (s.getQueue q)).isSome)

/-- The first packet that has not started starts, where its type is one that a test accepts and it is its queue's turn (R96). -/
def startNext (s : State) (q : Nat) (ok : Nat → Bool) : Option State :=
  match startable (s.getQueue q) with
  | some p => if ok p.type = true ∧ ((s.getQueue q).engine = 255 ∨ s.engineNext (s.getQueue q).engine = some q) then some (s.startPacket q p) else none
  | none => none

/-- A packet of one type starts, or its work goes on. -/
def packetTurn (s : State) (q type : Nat) : State :=
  match s.startNext q (· == type) with
  | some t => t
  | none => match working (s.getQueue q) (· == type) with
    | some p => s.progress q p
    | none => s

/-! ## Completion and records (R106 to R108, R117) -/

/-- Whether the V of every store of an owner's contexts that a scope covers has passed, for the release of a LAUNCH (R106, R251). -/
def ownerStoresDone (s : State) (o scope : Nat) : Bool :=
  let core (n : Nat) : Bool := decide (n < 16896) && s.coreOwner n == o
  let open_ (c : Core) : Bool := c.combining.any (fun e => e.owner == o)
  decide (scope = 0) ||
  (!open_ s.core && s.cores.all (fun e => e.1 == s.coreNo || !open_ e.2) && s.inflight.all (fun f => !(f.owner == o && covers scope f.key)) &&
   s.arrived.all (fun a => !(core a.core && covers scope a.key)) &&
   (scope != 5 && scope != 7 || s.fabric.requests.all (fun r => !(r.acc.owner == o && decide (8 ≤ r.slot) && decide (r.slot < 16)))))

/-- A packet whose work is done completes: its release, which covers the earlier stores of its queue, then its signal, then its status is fixed (R106, R107, R108). -/
def completePacket (s : State) (q : Nat) (p : Packet) : State :=
  let o := s.packetOwner q
  if p.worked = false ∨ p.done = true ∨ s.time < p.relAt ∨ (p.type = 1 ∧ ¬ s.ownerStoresDone o (packetScope p.rel)) ∨ (p.rel ≠ 0 ∧ ¬ s.storesBefore q p) then s
  else if p.status ≠ 0 then s.packetDone q p p.status p.addr
  else
    let g := closingSignal p
    match s.signalOp (if p.type = 5 then q % 4 else 0) (packetUnit q p.seq) o g.2.1 g.1 g.2.2 with
    | (.status 0, v, s) => if v ≤ s.time then s.packetDone q p 0 0 else s.setPacket q (p.spent v)
    | (.status c, _, s) => s.packetDone q p c g.2.1
    | (_, _, s) => s

/-- The oldest packet's record is written, and once it is visible DSEQ follows; a failed packet with STOPERR halts the queue (R95, R107, R117); DRAIN ends with the last record (R94). A halt record for the same place goes first (R103). -/
def recordPacket (s : State) (q : Nat) : State :=
  let r := s.getQueue q
  match r.packets with
  | [] => if r.drain then s.setQueue q { r with drain := false } else s
  | p :: rest =>
    if p.done = false ∨ (r.haltDue.map (·.1)) = some p.seq then s
    else if p.recorded then
      if s.time < p.relAt then s
      else
        let s := s.setQueue q { r with dseq := p.seq, packets := rest, drain := r.drain && !rest.isEmpty }
        if p.stopErr ∧ p.status ≠ 0 ∧ p.status ≠ 1 ∧ r.enable then s.haltQueue q cExec p.type else s
    else if r.halted = true ∧ r.cause = cRingAcc then s
    else match s.writeRecord (s.packetOwner q) q p.seq (p.status * 2 ^ 24 + p.type * 2 ^ 20) p.since p.detail p.addr with
      | (.at v, s) => s.setPacket q { p with recorded := true, relAt := v }
      | (.refused, s) => s.haltQueue q cRingAcc p.type
      | (_, s) => s

/-- PACKET_COMPLETE: every packet whose work is done goes on, and the oldest is recorded. -/
def completions (s : State) (q : Nat) : State :=
  let s := s.haltRecord q
  (((s.getQueue q).packets.foldl (fun s p => s.completePacket q p) s).recordPacket q).recordPacket q

/-- The order in which OWN packets reach their homes in a cycle (R127). -/
def packetRank (s : State) (p : Packet) : Nat := if s.savesOwner (wbits (p.w 2) 2 0) 1 then 0 else 1 + ownRank (wbits (p.w 2) 2 0)

/-- The queues that an engine or the scheduler has anything to do for, by number. -/
def servedQueues (s : State) : List Nat := (s.queues.filter (fun e => e.2.enable || e.2.drain || e.2.haltDue.isSome)).map (·.1)

/-- One turn of a packet engine (R96): its queues in order, each fetching what it may, until one packet has started. -/
def engineTurn (s : State) (e : Nat) : State :=
  ((s.engineOrder e).foldl (fun (a : Bool × State) q =>
    if a.1 then a
    else
      let s := (a.2.fetchNext q).reread q
      match startable (s.getQueue q) with
      | some p => (true, s.beginPacket q p)
      | none => (false, s)) (false, s)).2

/-- The packets of the queues whose work is under way and that a test picks. -/
def worked (s : State) (l : List Nat) (ok : Packet → Bool) : List (Nat × Packet) := l.flatMap (fun q => ((s.getQueue q).packets.filter (fun p => p.started && !p.worked && ok p)).map (fun p => (q, p)))

/-- The scheduler and the packet engines go on: residency, one turn of each engine, then the work of every packet under way, by queue number (R147) and ownership operations last, in the order of R127, and completions. -/
def queuesTurn (s : State) : State :=
  let l := s.servedQueues
  let s := l.foldl (fun s q => s.touchQueue q) s
  let s := l.foldl (fun s q => s.evictQueue q) s
  let s := l.foldl (fun s _ => s.makeResident) s
  let s := (List.range 6).foldl (fun s e => s.engineTurn e) s
  let s := l.foldl (fun s q => if (s.getQueue q).engine = 255 then (match startable (s.getQueue q) with | some p => s.beginPacket q p | none => s) else s) s
  let s := (s.worked l (fun p => p.type != 8)).foldl (fun s e => s.progress e.1 e.2) s
  let s := (sortBy (fun (a b : Nat × Packet) => decide (s.packetRank a.2 ≤ s.packetRank b.2)) (s.worked l (fun p => p.type == 8))).foldl (fun s e => s.progress e.1 e.2) s
  l.foldl (fun s q => (s.completions q).touchQueue q) s

end State

/-! ## Events: each carries the queue's number -/

/-- PACKET_FETCH (R104). -/
def execPacketFetch (s : State) : Host.Outcome State Fault Refusal := .next ((s.touchQueue s.arg.a).fetchNext s.arg.a)

/-- PACKET_REREAD (R104). -/
def execPacketReread (s : State) : Host.Outcome State Fault Refusal := .next ((s.touchQueue s.arg.a).reread s.arg.a)

/-- NOP (R116). -/
def execNop (s : State) : Host.Outcome State Fault Refusal := .next (s.packetTurn s.arg.a 0)

/-- LAUNCH (R109). -/
def execLaunch (s : State) : Host.Outcome State Fault Refusal := .next (s.packetTurn s.arg.a 1)

/-- WAIT_ALL (R110, R111). -/
def execWaitAll (s : State) : Host.Outcome State Fault Refusal := .next (s.packetTurn s.arg.a 2)

/-- WAIT_ANY (R110, R111). -/
def execWaitAny (s : State) : Host.Outcome State Fault Refusal := .next (s.packetTurn s.arg.a 3)

/-- WAIT_PASS (R111): a whole pass, or with b one word of it, the b-th of those not yet read. -/
def execWaitPass (s : State) : Host.Outcome State Fault Refusal :=
  .next (match working (s.getQueue s.arg.a) (fun t => t == 2 || t == 3) with | some p => if s.arg.b = 0 then s.waitPass s.arg.a p else s.waitWord s.arg.a p (s.arg.b - 1) | none => s)

/-- WAIT_TIMEOUT (R111). -/
def execWaitTimeout (s : State) : Host.Outcome State Fault Refusal :=
  .next (match working (s.getQueue s.arg.a) (fun t => t == 2 || t == 3) with | some p => s.waitTimeout s.arg.a p | none => s)

/-- SIGNAL (R112). -/
def execSignal (s : State) : Host.Outcome State Fault Refusal := .next (s.packetTurn s.arg.a 4)

/-- COPY (R113). -/
def execCopy (s : State) : Host.Outcome State Fault Refusal := .next (s.packetTurn s.arg.a 5)

/-- SEAL (R114). -/
def execSeal (s : State) : Host.Outcome State Fault Refusal := .next (s.packetTurn s.arg.a 6)

/-- UNSEAL (R114). -/
def execUnseal (s : State) : Host.Outcome State Fault Refusal := .next (s.packetTurn s.arg.a 7)

/-- SEAL_EXTENT_CHANGE (R114). -/
def execSealExtentChange (s : State) : Host.Outcome State Fault Refusal :=
  .next (match working (s.getQueue s.arg.a) (fun t => t == 6 || t == 7) with | some p => s.sealChange s.arg.a p | none => s)

/-- OWN (R115). -/
def execOwn (s : State) : Host.Outcome State Fault Refusal := .next (s.packetTurn s.arg.a 8)

/-- FENCE (R106). -/
def execFencePacket (s : State) : Host.Outcome State Fault Refusal := .next (s.packetTurn s.arg.a 9)

/-- PACKET_COMPLETE (R107, R117). -/
def execPacketComplete (s : State) : Host.Outcome State Fault Refusal := .next (s.completions s.arg.a)

/-- QUEUE_MADE_RESIDENT (R96). -/
def execQueueMadeResident (s : State) : Host.Outcome State Fault Refusal := .next ((s.servedQueues.foldl (fun s q => s.touchQueue q) s).makeResident)

/-- QUEUE_EVICTION (R97). -/
def execQueueEviction (s : State) : Host.Outcome State Fault Refusal := .next (s.evictQueue s.arg.a)

end Sys2Proof.Machine
end

