-- ==== Sys2Proof/Machine/Package.lean ====
section
/-! DEFINITION. The package: boot and bring-up, the thermal trip and the loss of power, throttling and gating, sync, and soft errors (R13 to R28, R39, R40, R47, R71, R89, R233). -/

namespace Sys2Proof.Machine

namespace State

/-! ## Reset and boot (R25 to R28, R46, R47) -/

/-- Memory as the loss of the package leaves it: what lies outside stands (host memory, with the host's own copies of lines that were dirty here, and pooled memory); HBM4E, the weight store, SRAM and operand memory read as log 2 chooses. -/
def outside (s : State) : List Host.Cell :=
  State.mem (((s.host.dirty.foldl (fun s d => s.setByte d.1 d.2) s).clearMem 0 (2 ^ 50)).clearMem (2 ^ 52) (2 ^ 60))

/-- The main side in reset: the sideband port, the error log, the flash slots, memory outside the package and the model's own fields stand (R16, R85). The spec does not say whether memory inside the package keeps its contents: the model's choice is that it does not (log 2). Nor does it say what becomes of flash commands, one that executes and that of a sideband FLASH among them, at a cold reset that the host makes: the model's choice is that they end without effect and without a response (log 37). -/
def mainReset (s : State) : State :=
  { State.reset with mem := s.outside, log := { s.log with base := s.log.next }, side := { s.side with resetDue := false, sentAt := 0 }, flash := { State.reset.flash with slots := s.flash.slots },
                     boot := { State.reset.boot with digest := s.boot.digest },
                     schedule := s.schedule, arg := s.arg, async := s.async, picks := s.picks, pace := s.pace, cycle := s.cycle, free := s.free, out := s.out }

/-- The boot ROM's result for a slot (R25, R28). -/
def slotResult (f : FlashSlot) : Nat :=
  let n := Config.imageResult f.image
  if n = 2 ∨ n = 3 ∨ n = 5 then n else if Config.imageVersion f.image < Config.fusedMinimum then 4 else 1

/-- Exactly n bytes of a value that the spec gives a length. -/
def fit (n : Nat) (l : List Byte) : List Byte := (l ++ List.replicate n 0).take n

/-- The 32-byte SHA3-256 digest of a slot's image (R25, R90). -/
def imageDigest (f : FlashSlot) : List Byte := fit 32 (Config.imageDigest f.image)

def slot (s : State) (n : Nat) : FlashSlot := s.flash.slots.toList.getD n FlashSlot.fresh

/-- The slot that the boot ROM tries first (R25, R47). -/
def firstSlot (s : State) : Nat :=
  let a := s.slot 0
  let b := s.slot 1
  if a.active && !b.active then 0
  else if b.active && !a.active then 1
  else match a.record, b.record with
    | some m, some n => if m < n then 1 else 0
    | none, some _ => 1
    | _, none => 0

/-- A cold reset, up to step 2 of R26: the first slot that passes boots, HBM4E is trained, the time base counts, and the firmware waits for GO; where both slots fail, rescue mode (R27). -/
def coldReset (s : State) : State :=
  let f := s.firstSlot
  let g := 1 - f
  let rf := slotResult (s.slot f)
  let rg := if rf = 1 then 0 else slotResult (s.slot g)
  let booted := if rf = 1 then some f else if rg = 1 then some g else none
  let a := if f = 0 then rf else rg
  let b := if f = 0 then rg else rf
  let s := s.mainReset
  match booted with
  | some n =>
    { s with boot := { s.boot with digest := imageDigest (s.slot n), stage := 7, slota := a, slotb := b, svn := Config.imageVersion (s.slot n).image % 256, slot := n }, clock := { s.clock with on := true } }
  | none => { s with boot := { s.boot with digest := List.replicate 32 0, rescue := true, slota := a, slotb := b }, host := { s.host with links := s.host.links.set 0 { Link.fresh with ioonly := 5 } } }

/-- The main side runs: neither in the ROM, nor in rescue mode, nor tripped. -/
def runs (s : State) : Bool := !s.boot.rescue && !s.boot.tripped && s.boot.stage != 0

/-- The device is ready (step 5 of R26). -/
def ready (s : State) : Bool := s.runs && s.boot.stage == 6

def solo (s : State) : Bool := wbits s.boot.bootctl 62 62 == 1

/-! ## Steps 3 to 5 (R26, R39, R40, R71) -/

/-- A word of the pod map window. -/
def windowWord (s : State) (n : Nat) : Word := SMap.get 0 s.boot.window n

/-- An entry or group with a nonzero reserved bit is logged with its window offset (R40). The spec does not say which offset stands for one 16-bit entry nor the DETAIL of the firmware's own entry: the model's choice is the offset of the 8-byte word, and a read of 8 bytes by O1 (log 37). -/
def logWindow (s : State) (off : Nat) : State := s.logEntry 1 7 0 (word off) (word (2 ^ 48 + 8))

/-- The routing entries of one window word: the valid ones, by package number; the package's own entry is ignored, and others with a nonzero reserved bit are invalid. -/
def readRoutes (s : State) (n : Nat) (w : Word) : State :=
  [0, 1, 2, 3].foldl (fun s i =>
    let e := wbits w (16 * i + 15) (16 * i)
    if 4 * n + i = s.pkgNum then s
    else if bits e 14 8 ≠ 0 then s.logWindow (8 * n)
    else if bits e 15 15 = 1 then { s with fabric := { s.fabric with routes := SMap.set none s.fabric.routes (4 * n + i) (some (bits e 7 0)) } }
    else s) s

/-- A port group of the window. -/
def readGroup (s : State) (g : Nat) : State :=
  let w (j : Nat) : Nat := (s.windowWord (2048 + 4 * g + j)).toNat
  if w 3 ≠ 0 ∨ 65536 ≤ w 2 then s.logWindow (0x4000 + 32 * g)
  else { s with fabric := { s.fabric with groups := SMap.set 0 s.fabric.groups g (w 0 + 2 ^ 64 * w 1 + 2 ^ 128 * w 2) } }

/-- A change of STATE is dated, and written to the error log (R79). -/
def setPortState (s : State) (p : Nat) (q : Port) : State :=
  if q.state = (s.getPort p).state then s.setPort p q
  else (s.setPort p { q with since := s.time }).logEntry 3 5 p 0 (word (portstat q))

/-- Steps 3 and 4, once GO is set: the ownership map is built, unless the package is solo the routing table and port groups are written, and the ports begin to train; a solo package skips the join. -/
def bringUp (s : State) : State :=
  let s := { s with entries := [], estate := 1, owners := [(1, OwnerRec.boot)], boot := { s.boot with stage := 5 } }
  let s := if s.solo then { s with clock := { s.clock with inSync := true } }
    else
      let s := s.boot.window.foldl (fun s e => if e.1 < 2048 then s.readRoutes e.1 e.2 else s) s
      (List.range 256).foldl (fun s g => s.readGroup g) s
  (List.range 144).foldl (fun s p => s.setPortState p { Port.fresh with state := 1 }) s

/-- A write of BOOTCTL (R39): none where it is a violation. -/
def writeBootctl (s : State) (v : Word) : Option State :=
  let n := wbits v 39 32
  if wbits s.boot.bootctl 63 63 = 1 ∨ wbits v 61 40 ≠ 0 ∨ wbits v 31 13 ≠ 0 ∨ (wbits v 63 63 = 1 ∧ n ≠ 0 ∧ ¬ (n % 4 = 0 ∧ 4 ≤ n ∧ n ≤ 64)) then none
  else
    let s := { s with boot := { s.boot with bootctl := v } }
    some (if wbits v 63 63 = 1 ∧ s.boot.stage = 7 then s.bringUp else s)

/-- Whether a port's link allows CXL.cache and CXL.mem, and the reason why not (R30, R37). Where several reasons hold the spec does not say which one stands: the model's choice is the lowest code, but rescue mode before all (log 38). -/
def ioOnly (l : Link) (hostOn : Bool) : Nat := if ¬ l.flit then 1 else if l.speed < 5 then 2 else if l.width < 4 then 3 else if ¬ hostOn then 4 else 0

/-- DEVICE_READY (step 5): in sync or solo, CXL.cache and CXL.mem are enabled where R30 allows, and the booted slot's active flag is set (R27). -/
def deviceReady (s : State) : State :=
  if s.runs ∧ s.boot.stage = 5 ∧ s.clock.inSync then
    { s with boot := { s.boot with stage := 6 },
             host := { s.host with links := s.host.links.map (fun l => if l.up ∧ l.ioonly = 0 then { l with cache := true, mem := true } else l) },
             flash := { s.flash with slots := s.flash.slots.setIfInBounds s.boot.slot { s.slot s.boot.slot with active := true } } }
  else s

/-! ## Power and cooling (R13 to R17, R47) -/

/-- What a trip leaves: its cause is logged, under UCLASS 7, UNIT 0 and ADDR 0, which the spec does not give and the model chooses (log 36), and everything but the sideband port and the flash is in reset. A RESET that waited for a command which the trip ended starts now (R85). -/
def trip (s : State) (cause : Nat) : State :=
  let s := s.logEntry 4 7 0 0 (word cause)
  let s := { s.mainReset with flash := { s.flash with engine := s.flash.engine.filter (·.sideband.isSome), busy := false, overrun := false, result := 0, mboff := 0, mblen := 0, mbseq := 0, mbdata := [] },
                              side := s.side }
  let s : State := { s with boot := { s.boot with stage := 15, tripped := true } }
  if s.side.resetDue ∧ s.flash.engine.isEmpty then s.coldReset else s

/-- THERMAL_TRIP (R16): a junction's reading in °C reaches 110, or the input has stayed below 46 V for 10 µs; the model names the junction where both hold. -/
def thermalTrip (s : State) (junction low : Nat) : State :=
  if 110 ≤ junction then s.trip 1 else if 10000 ≤ low then s.trip 2 else s

/-- The readings of R17 are taken while the main side runs; in rescue mode, where THRSTAT still answers (R36), the spec does not say whether they go on, and the model's choice is that they do not (log 36). -/
def setPower (s : State) (p : Power) : State := if s.runs then { s with power := p } else s

/-- The end of a 1 ms interval (R15), once each: hottest junction in °C and average power in watts. -/
def raise (s : State) (t w : Nat) : State :=
  let k := s.time / 1000000
  let due := decide (95 ≤ t) || decide (4500 < w)
  let p : Power := { s.power with tjmax := min t 255, ms := k, warm := s.power.warm || decide (90 ≤ t) || decide (4275 < w), raised := if due then k else s.power.raised }
  if k ≤ s.power.ms then s
  else s.setPower (if p.level < 3 ∧ due = true then { p with level := p.level + 1, therm := p.therm || decide (95 ≤ t), powlim := p.powlim || decide (4500 < w) } else p)

/-- The end of a 10 ms interval (R15), once each and after the 1 ms interval that ends with it, whose raise wins: the highest reading in it, and the power. -/
def lower (s : State) (t w : Nat) : State :=
  let k := s.time / 10000000
  if k ≤ s.power.ten ∨ s.power.ms < 10 * k then s
  else s.setPower { s.power with ten := k, warm := false, level := if t < 90 ∧ w ≤ 4275 ∧ s.power.warm = false ∧ s.power.raised < 10 * k then s.power.level - 1 else s.power.level }

/-- COOLANT_WARNING (R13): the inlet in tenths of °C and the flow in tenths of L/min, and how long one of them has been out of its range. Whether "for 100 ms" is said of the flow alone or of both the spec leaves open: the model's choice is both (log 36). -/
def coolantReading (s : State) (inlet flow ticks : Nat) : State :=
  if (400 < inlet ∨ flow < 20) ∧ 100000000 ≤ ticks then s.setPower { s.power with coolant := true } else s

/-- The 54 V input is lost: what survives is the flash (R46, R47). A COMMIT under way leaves its record written, and the other slot's active flag set or cleared. -/
def powerLoss (s : State) (cleared : Bool) : State :=
  let slots := match s.flash.engine with
    | c :: _ =>
      if c.cmd = 3 ∧ ¬ (s.runs = true ∧ c.slot = s.boot.slot) ∧ Config.headerGood (s.slot c.slot).image then
        let o := s.slot (1 - c.slot)
        let w := s.flash.slots.setIfInBounds c.slot { s.slot c.slot with record := some ((o.record.getD 0 + 1) % 2 ^ 32), committed := true }
        if cleared then w.setIfInBounds (1 - c.slot) { o with active := false } else w
      else s.flash.slots
    | [] => s.flash.slots
  { State.reset with mem := s.outside, flash := { State.reset.flash with slots := slots }, schedule := s.schedule, arg := s.arg, async := s.async, picks := s.picks, pace := s.pace, cycle := s.cycle, free := s.free, out := s.out }

/-! ## Gating (R22 to R24) -/

/-- The cores of a quad. -/
def quadCores (q : Nat) : List Nat := (List.range 4).map (4 * q + ·)

def gated (s : State) (isDie : Bool) (unit : Nat) : Bool := s.gating.any (fun g => g.isDie == isDie && g.unit == unit && g.marked)

/-- No slot of a core has drawn work: a drawn slot counts as one with a resident context, which it is about to have, and that is the model's choice (log 36). -/
def undrawn (s : State) (core : Nat) : Bool := (List.range 4).all (fun k => match s.slotOf core k with | .drawn _ _ => false | _ => true)

/-- Whether a unit may be gated (R22). -/
def mayGate (s : State) (isDie : Bool) (unit : Nat) : Bool :=
  if isDie then decide (unit < 16) && (List.range 256).all (fun q => s.gated false (unit * 256 + q))
  else decide (unit < 4096) && (quadCores unit).all (fun n => (s.residents n).isEmpty && s.undrawn n) && (s.getQuad unit).claims.isEmpty

/-- GATING_SEQUENCE: the sequence begins, and for a die the host lines it holds are written back (R23). -/
def gateStart (s : State) (isDie : Bool) (unit : Nat) : State :=
  if ¬ s.runs ∨ ¬ s.mayGate isDie unit ∨ s.gating.any (fun g => g.isDie == isDie && g.unit == unit) then s
  else
    let s := if isDie then (s.host.tracker.filter (fun t => t.2.2 == unit)).foldl (fun s t => s.writeBack t.2.1 (lineLen t.2.1)) s else s
    { s with gating := s.gating ++ [{ isDie := isDie, unit := unit, marked := false }] }

/-- What a unit's cores and engines still have on its way to memory (R23): stores not yet visible, combining entries, and a copy command that has begun. Of one that is queued and not begun the spec says nothing: the model's choice is that it keeps no unit from being marked, and wakes the unit as it begins (log 36). -/
def unitWrites (s : State) (mine : Nat → Bool) : Bool :=
  let of (core : Nat) : Bool := mine core || (decide (24576 ≤ core) && decide (core < 24576 + 16384) && mine (core - 24576))
  let busy (n : Nat) (c : Core) : Bool := mine n && (!c.combining.isEmpty || c.copyq.any (·.started))
  s.inflight.any (fun f => of f.core) || s.arrived.any (fun a => of a.core) || busy s.coreNo s.core || s.cores.any (fun c => c.1 != s.coreNo && busy c.1 c.2)

/-- UNIT_MARKED_GATED: only for a sequence under way, once nothing that the unit's cores and engines have written is still on its way; the cache portions of its cores, or the lines of a die's L2, are discarded (R22, R23). -/
def gateMark (s : State) (isDie : Bool) (unit : Nat) : State :=
  let mine (core : Nat) : Bool := if isDie then core < 16384 && dieOf core == unit else core < 16384 && core / 4 == unit
  if ¬ s.gating.any (fun g => g.isDie == isDie && g.unit == unit && !g.marked) ∨ ¬ s.mayGate isDie unit ∨ s.unitWrites mine = true ∨
     (isDie = true ∧ s.host.tracker.any (fun t => t.2.2 == unit && s.host.dirty.any (fun d => decide (t.2.1 ≤ d.1) && decide (d.1 < t.2.1 + lineLen t.2.1)))) then s
  else
    let s := { s with gating := s.gating.map (fun g => if g.isDie = isDie ∧ g.unit = unit then { g with marked := true } else g) }
    if isDie then { s with l2 := s.l2.filter (·.die != unit) } else (quadCores unit).foldl (fun s n => let c := s.getCore n; if c.l1.isEmpty then s else s.setCore n { c with l1 := [] }) s

/-! ## Sync (R20, R233) -/

/-- Both conditions of R20, the estimate's own error counted; a solo package is in sync on its own. -/
def syncHolds (s : State) : Bool :=
  s.solo || (s.clock.set && decide (s.clock.offset.toInt + s.clock.err ≤ 23) && decide (-23 ≤ s.clock.offset.toInt - s.clock.err) && decide (s.time ≤ s.clock.lastSync + 1000000))

/-- SYNC_LOSS: the interfaces empty their caches, every live owner is told, and the loss is logged, under UCLASS 7, UNIT 0 and ADDR 0, which the spec does not give and the model chooses (log 42). -/
def syncLoss (s : State) : State :=
  if s.clock.inSync ∧ ¬ s.syncHolds then
    let s := { s with clock := { s.clock with inSync := false }, ifaces := s.ifaces.map (fun (e : Nat × Iface) => (e.1, { e.2 with leaf := [], walk := [] })) }
    let s := s.logEntry 7 7 0 0 s.clock.offset
    (s.owners.map (·.1)).foldl (fun s o => s.report o 0x47 0 s.clock.offset) s
  else s

/-- SYNC_REGAINED. -/
def syncRegained (s : State) : State :=
  if s.runs ∧ ¬ s.clock.inSync ∧ 5 ≤ s.boot.stage ∧ s.syncHolds then { s with clock := { s.clock with inSync := true } } else s

/-! ## Soft errors (R89) -/

/-- A corrected error: one entry per unit in 1 ms of this boot's time, to which later ones add. -/
def softCorrected (s : State) (uclass unit addr n : Nat) : State :=
  match s.log.entries.find? (fun e => e.kind == 5 && e.uclass == uclass && e.unit == unit && decide (s.log.base ≤ e.seq) && decide (s.time < e.time + 1000000)) with
  | some e => { s with log := { s.log with entries := s.log.entries.map (fun x => if x = e then { x with detail := x.detail + word n } else x) } }
  | none => s.logEntry 5 uclass unit (word addr) (word n)

/-- The address of a store key in the error log: a core's local word by its core-window address (R198), a memory core's by its offset, any other by its device physical address. -/
def logAddr (k : Nat) : Nat :=
  if storage k = .sram then
    let n := (k - sramBase) / 2097152
    let off := (k - sramBase) % 2097152
    if n < 16384 then 0x1FF * 2 ^ 48 + n / 1024 * 2 ^ 44 + n % 1024 * 2 ^ 34 + off else off
  else k

/-- SOFT_ERROR at a store key: kind 0 corrected, 1 uncorrectable in data, 2 uncorrectable in tag bits, by which a word that was an ECLO cell is none any more (R265, R272). -/
def softError (s : State) (k kind uclass unit n : Nat) : State :=
  if kind = 0 then s.softCorrected uclass unit (logAddr k) n
  else if kind = 1 then ({ s with poison := if s.poison.contains (k / 8) then s.poison else k / 8 :: s.poison }).logEntry 6 uclass unit (word (logAddr k)) 0
  else ((s.setTag k 0).freeEvals (fun e => e.cell / 8 == k / 8)).logEntry 6 uclass unit (word (logAddr k)) 1

end State

/-! ## Events -/

/-- COLD_RESET. -/
def execColdReset (s : State) : Host.Outcome State Fault Refusal := .next s.coldReset

/-- DEVICE_READY. -/
def execDeviceReady (s : State) : Host.Outcome State Fault Refusal := .next s.deviceReady

/-- THERMAL_TRIP: the event carries the junction's reading, and for how many ticks the input has stayed below 46 V. -/
def execThermalTrip (s : State) : Host.Outcome State Fault Refusal := .next (s.thermalTrip s.arg.a s.arg.b)

/-- COOLANT_WARNING: the event carries the inlet, the flow and the ticks. -/
def execCoolantWarning (s : State) : Host.Outcome State Fault Refusal := .next (s.coolantReading s.arg.a s.arg.b s.arg.c)

/-- INPUT_UNDERVOLTAGE (R17). -/
def execInputUndervoltage (s : State) : Host.Outcome State Fault Refusal := .next (s.setPower { s.power with vin := true })

/-- THROTTLE_RAISE: the event carries the hottest junction and the average power. -/
def execThrottleRaise (s : State) : Host.Outcome State Fault Refusal := .next (s.raise s.arg.a s.arg.b)

/-- THROTTLE_LOWER. -/
def execThrottleLower (s : State) : Host.Outcome State Fault Refusal := .next (s.lower s.arg.a s.arg.b)

/-- GATING_SEQUENCE: the event carries 1 for a die, and the unit. -/
def execGatingSequence (s : State) : Host.Outcome State Fault Refusal := .next (s.gateStart (s.arg.a == 1) s.arg.b)

/-- UNIT_MARKED_GATED. -/
def execUnitMarkedGated (s : State) : Host.Outcome State Fault Refusal := .next (s.gateMark (s.arg.a == 1) s.arg.b)

/-- WAKE_REQUEST. -/
def execWakeRequest (s : State) : Host.Outcome State Fault Refusal := .next (s.wakeUnit (s.arg.a == 1) s.arg.b)

/-- SYNC_LOSS. -/
def execSyncLoss (s : State) : Host.Outcome State Fault Refusal := .next s.syncLoss

/-- SYNC_REGAINED. -/
def execSyncRegained (s : State) : Host.Outcome State Fault Refusal := .next s.syncRegained

/-- POWER_LOSS: the event says whether a COMMIT under way had cleared the other slot's flag. -/
def execPowerLoss (s : State) : Host.Outcome State Fault Refusal := .next (s.powerLoss (s.arg.a == 1))

/-- SOFT_ERROR: the event carries the store key, the kind, the unit that finds it and the corrected bits. -/
def execSoftError (s : State) : Host.Outcome State Fault Refusal := .next (s.softError s.arg.a s.arg.b s.arg.c s.arg.d s.arg.e)

end Sys2Proof.Machine
end

