-- ==== Sys2Proof/Machine/Registers.lean ====
section
/-! DEFINITION. The host's register space: what each register reads as, what a write does, and what is a violation (R17, R28, R34 to R47, R92 to R94, R214). -/

namespace Sys2Proof.Machine

namespace State

/-! ## Registers as they read -/

/-- BOOTSTAT (R28). -/
def bootstat (s : State) : Nat :=
  bit s.boot.rescue * 2 ^ 31 + s.boot.stage % 16 * 2 ^ 24 + s.boot.slota % 16 * 2 ^ 20 + s.boot.slotb % 16 * 2 ^ 16 + s.boot.svn % 256 * 2 ^ 8 + s.boot.slot % 2

/-- THRSTAT (R17). -/
def thrstat (s : State) : Nat :=
  let p := s.power
  p.tjmax % 256 * 2 ^ 24 + bit p.powlim * 128 + bit p.therm * 64 + bit p.coolant * 32 + bit p.vin * 16 + p.level % 4

def cxlLink (s : State) (p : Nat) : Link := s.host.links.toList.getD p Link.fresh
def setLink (s : State) (p : Nat) (l : Link) : State := { s with host := { s.host with links := s.host.links.setIfInBounds p l } }

/-- LINKSTAT of a port (R37). -/
def linkstat (s : State) (p : Nat) : Nat :=
  let l := s.cxlLink p
  bit l.up * 2 ^ 31 + bit l.cache * 2 ^ 30 + bit l.mem * 2 ^ 29 + bit l.flit * 2 ^ 28 + l.speed % 16 * 2 ^ 24 + l.width % 256 * 2 ^ 16 +
  bit l.ats * 2 ^ 15 + bit l.pri * 2 ^ 14 + bit l.prifail * 2 ^ 13 + bit l.retrain * 2 ^ 12 + l.ioonly % 16

/-- A word of a queue's descriptor (R92). -/
def descriptorWord (s : State) (q o : Nat) : Word :=
  let r := s.getQueue q
  match o with
  | 0x00 => word (r.ringbase / 4096 * 4096 + r.ringlog)
  | 0x08 => word (r.crbase / 4096 * 4096 + r.crlog)
  | 0x10 => word (s.queueOwner q * 2 ^ 48 + r.prio)
  | 0x18 => word (bit r.enable * 2 ^ 63 + bit r.drain * 2 ^ 62)
  | _ => word (r.engine * 2 ^ 56 + r.wridx)

/-- A readable word of a kick page (R42). -/
def kickWord (s : State) (q o : Nat) : Option Word :=
  let r := s.getQueue q
  match o with
  | 0x08 => some (word r.rdidx)
  | 0x10 => some (word r.cseq)
  | 0x18 => some (word r.dseq)
  | 0x20 => some (word (bit r.halted * 2 ^ 63 + (if r.halted then r.cause else 0)))
  | _ => none

/-- A word of the error-log window. -/
def logWord (s : State) (n : Nat) : Word :=
  match s.log.entries.find? (fun e => e.seq % 2048 == n / 4) with
  | some e => (logWords e).getD (n % 4) 0
  | none => 0

/-- n bytes of the mailbox's staging area. -/
def mbBytes (s : State) (off n : Nat) : List Byte := (List.range n).map (fun i => SMap.get 0 s.flash.mbdata (off + i))

/-! ## Violations (R41) -/

/-- A violation is logged: the port, the BAR and offset, O1, and whether it writes. -/
def violation (s : State) (port bar off size : Nat) (write : Bool) : State :=
  s.logEntry 1 6 port (word (bar * 2 ^ 56 + off)) (word (2 ^ 48 + bit write * 16 + size % 16))

/-- The mailbox is in reach: in rescue mode and in normal running, on port 0 (R31, R45). -/
def mailboxOpen (s : State) (port : Nat) : Bool := decide (port = 0) && !s.boot.tripped && (s.boot.rescue || s.runs)

/-- A register read (R36 to R38, R41, R42, R45): its value and the state it leaves; none for a violation. -/
def readRegister (s : State) (port bar off size : Nat) : Option (Word × State) :=
  let four (n : Nat) : Option (Word × State) := if size = 4 then some (word n, s) else none
  let eight (w : Word) : Option (Word × State) := if size = 8 then some (w, s) else none
  if off % size ≠ 0 ∨ ¬ (size = 4 ∨ size = 8) then none
  else if bar = 4 then
    if ¬ s.mailboxOpen port then none
    else if 0x8000 ≤ off ∧ off < 0x10000 then some (word (ofBytes (s.mbBytes (off - 0x8000) size)), s)
    else match off with
      | 0x04 => four (bit s.flash.busy * 2 ^ 31 + bit s.flash.overrun * 2 ^ 30 + s.flash.result)
      | 0x08 => four s.flash.mboff
      | 0x0C => four s.flash.mblen
      | 0x10 => four (s.flash.mbseq % 2 ^ 32)
      | _ => none
  else if s.boot.rescue then
    if bar ≠ 0 then none
    else match off with
      | 0x00 => four s.bootstat
      | 0x04 => four s.thrstat
      | 0x08 => four (s.linkstat 0)
      | _ => none
  else if ¬ s.runs then none
  else if bar = 2 then
    if s.boot.stage = 6 ∧ off < 0x1000000 ∧ size = 8 then (s.kickWord (off / 4096) (off % 4096)).map (fun w => (w, s)) else none
  else if bar ≠ 0 then none
  else if off < 0x1000 then
    match off with
    | 0x000 => four s.bootstat
    | 0x004 => four s.thrstat
    | 0x008 => four (s.linkstat 0)
    | 0x00C => four (s.linkstat 1)
    | 0x018 => if size = 8 then some (word s.time, s) else some (word (s.time % 2 ^ 32), { s with host := { s.host with tbaseHigh := BitVec.ofNat 32 (s.time / 2 ^ 32) } })
    | 0x01C => four s.host.tbaseHigh.toNat
    | 0x020 => eight s.boot.bootctl
    | 0x040 => eight s.host.poolbase
    | 0x048 => eight s.host.poolsize
    | 0x050 => eight (word (bit s.host.poolen * 2 ^ 63))
    | _ => none
  else if 0x10000 ≤ off ∧ off < 0x20000 then
    let w := s.logWord ((off - 0x10000) / 8)
    some (if size = 8 then w else word (wbits w (8 * (off % 8) + 31) (8 * (off % 8))), s)
  else if 0x20000 ≤ off ∧ off < 0x26000 then eight (s.windowWord ((off - 0x20000) / 8))
  else if 0x100000 ≤ off ∧ off < 0x140000 then
    if s.boot.stage = 6 ∧ off % 64 ≤ 0x20 then eight (s.descriptorWord ((off - 0x100000) / 64) (off % 64)) else none
  else none

/-! ## Writes -/

/-- A ring's base and length word (R92): none where a reserved bit is set, or where it changes an enabled queue. -/
def writeRing (s : State) (q o : Nat) (v : Word) : Option State :=
  let r := s.getQueue q
  if wbits v 63 52 ≠ 0 ∨ wbits v 11 5 ≠ 0 ∨ (r.enable = true ∧ v ≠ s.descriptorWord q o) then none
  else
    let base := wbits v 51 12 * 4096
    some (s.setQueue q (if o = 0 then { r with ringbase := base, ringlog := wbits v 4 0 } else { r with crbase := base, crlog := wbits v 4 0 }))

/-- ENABLE (R93, R94): none where enabling is refused. -/
def writeEnable (s : State) (q : Nat) (v : Word) : Option State :=
  if wbits v 61 0 ≠ 0 then none
  else if wbits v 63 63 = 1 then (if s.canEnable q then some (s.enableQueue q) else none)
  else some (s.disableQueue q)

def writeDescriptor (s : State) (q o : Nat) (v : Word) : Option State :=
  match o with
  | 0x00 => s.writeRing q 0 v
  | 0x08 => s.writeRing q 8 v
  | 0x10 =>
    let r := s.getQueue q
    if wbits v 47 2 ≠ 0 ∨ (r.enable = true ∧ wbits v 1 0 ≠ r.prio) then none else some (s.setQueue q { r with prio := wbits v 1 0 })
  | 0x18 => s.writeEnable q v
  | _ => none

/-- A mailbox command (R45, R46): dropped with OVERRUN while one executes. -/
def mailboxCommand (s : State) (v : Nat) : Option State :=
  let cmd := bits v 3 0
  if bits v 31 9 ≠ 0 ∨ bits v 7 4 ≠ 0 ∨ cmd = 0 ∨ 3 < cmd then none
  else if s.flash.busy then some { s with flash := { s.flash with overrun := true } }
  else
    let c : FlashCmd := { slot := bits v 8 8, cmd := cmd, off := s.flash.mboff, bytes := if cmd = 2 then s.mbBytes 0 (min s.flash.mblen 32768) else [], sideband := none }
    -- a length beyond the staging area is kept as one byte too many, so that the command finds it out of range
    let c := if cmd = 2 ∧ 32768 < s.flash.mblen then { c with bytes := c.bytes ++ [0] } else c
    some { s with flash := { s.flash with busy := true, engine := s.flash.engine ++ [c] } }

/-- A write to the mailbox (R45). -/
def writeMailbox (s : State) (off size : Nat) (v : Word) : Option State :=
  let n := v.toNat % 2 ^ 32
  if 0x8000 ≤ off ∧ off < 0x10000 then
    let l := toBytes size v.toNat
    some { s with flash := { s.flash with mbdata := ((List.range size).zip l).foldl (fun m e => SMap.set 0 m (off - 0x8000 + e.1) e.2) s.flash.mbdata } }
  else if size ≠ 4 then none
  else match off with
    | 0x00 => s.mailboxCommand n
    | 0x04 => if bits n 29 4 ≠ 0 then none else some (if bits n 30 30 = 1 then { s with flash := { s.flash with overrun := false } } else s)
    | 0x08 => some { s with flash := { s.flash with mboff := n } }
    | 0x0C => if bits n 31 16 ≠ 0 then none else some { s with flash := { s.flash with mblen := n } }
    | _ => none

/-- POOLEN (R214): disabling takes effect once every pooled access already sent has completed, and comes again until then. -/
def writePoolen (s : State) (port : Nat) (v : Word) : Option State :=
  if wbits v 62 0 ≠ 0 then none
  else if wbits v 63 63 = 1 then
    if 2 ^ 24 < wbits s.host.poolbase 51 28 + wbits s.host.poolsize 49 28 then none else some { s with host := { s.host with poolen := true } }
  else if s.inflight.any (fun f => storage f.key == .pooled) ∨ s.arrived.any (fun a => storage a.key == .pooled) then
    some { s with postponed := s.postponed ++ [(.poolWindowDisable, { Arg.none with b := port, w := v })] }
  else some { s with host := { s.host with poolen := false } }

/-- A write to LINKSTAT of a port (R37): it clears what it names. -/
def writeLink (s : State) (p n : Nat) : Option State :=
  let l := s.cxlLink p
  if bits n 11 4 ≠ 0 then none else some (s.setLink p { l with prifail := l.prifail && bits n 13 13 == 0, retrain := l.retrain && bits n 12 12 == 0 })

/-- A write to the device status page (R17, R36 to R39, R214). -/
def writeStatus (s : State) (port off size : Nat) (v : Word) : Option State :=
  let n := v.toNat % 2 ^ 32
  match off, size with
  | 0x004, 4 =>
    let p := s.power
    if bits n 23 8 ≠ 0 ∨ bits n 3 2 ≠ 0 then none
    else some { s with power := { p with powlim := p.powlim && bits n 7 7 == 0, therm := p.therm && bits n 6 6 == 0, coolant := p.coolant && bits n 5 5 == 0, vin := p.vin && bits n 4 4 == 0 } }
  | 0x008, 4 => s.writeLink 0 n
  | 0x00C, 4 => if s.boot.rescue then none else s.writeLink 1 n
  | 0x020, 8 => if s.boot.rescue then none else s.writeBootctl v
  | 0x040, 8 => if s.boot.rescue ∨ s.host.poolen ∨ wbits v 63 52 ≠ 0 ∨ wbits v 27 0 ≠ 0 then none else some { s with host := { s.host with poolbase := v } }
  | 0x048, 8 => if s.boot.rescue ∨ s.host.poolen ∨ wbits v 63 50 ≠ 0 ∨ wbits v 27 0 ≠ 0 then none else some { s with host := { s.host with poolsize := v } }
  | 0x050, 8 => if s.boot.rescue then none else s.writePoolen port v
  | _, _ => none

/-- A write to any register: none for a violation. -/
def writeAny (s : State) (port bar off size : Nat) (v : Word) : Option State :=
  if off % size ≠ 0 ∨ ¬ (size = 4 ∨ size = 8) then none
  else if bar = 4 then (if s.mailboxOpen port then s.writeMailbox off size v else none)
  else if ¬ s.boot.rescue ∧ ¬ s.runs then none
  else if bar = 2 then
    let q := off / 4096
    if s.boot.rescue ∨ s.boot.stage ≠ 6 ∨ 0x1000000 ≤ off ∨ size ≠ 8 ∨ wbits v 63 32 ≠ 0 then none
    else if off % 4096 = 0 then some (s.kick q v.toNat)
    else if off % 4096 = 0x28 then some (s.resume q v.toNat)
    else none
  else if bar ≠ 0 then none
  else if off < 0x1000 then s.writeStatus port off size v
  else if s.boot.rescue ∨ size ≠ 8 then none
  else if 0x20000 ≤ off ∧ off < 0x26000 then
    if wbits s.boot.bootctl 63 63 = 1 then none else some { s with boot := { s.boot with window := SMap.set 0 s.boot.window ((off - 0x20000) / 8) v } }
  else if 0x100000 ≤ off ∧ off < 0x140000 ∧ s.boot.stage = 6 then s.writeDescriptor ((off - 0x100000) / 64) (off % 64) v
  else none

/-- A port that is in reset takes no access: both after a trip, port 1 in rescue mode (R16, R31). -/
def portReset (s : State) (port : Nat) : Bool := s.boot.tripped || (s.boot.rescue && port != 0)

/-- A queue under scrub, whose descriptor or kick page an access names: its new holder's use of it waits (R133). -/
def scrubbedQueue (s : State) (bar off : Nat) : Bool :=
  let e (q : Nat) : Bool := (s.getEntry (entryKey 6 q)).scrub
  !s.boot.rescue && s.boot.stage == 6 && ((bar == 0 && decide (0x100000 ≤ off) && decide (off < 0x140000) && e ((off - 0x100000) / 64)) || (bar == 2 && decide (off < 0x1000000) && e (off / 4096)))

/-- A host write (R41): dropped and logged where it is a violation; lost at a port in reset; one to a queue under scrub comes again after it (R133). -/
def writeRegister (s : State) (port bar off size : Nat) (v : Word) : State :=
  if s.portReset port then s
  else if s.scrubbedQueue bar off then { s with postponed := s.postponed ++ [(.registerWrite, { Arg.none with a := port, b := bar, c := off, d := size, w := v })] }
  else match s.writeAny port bar off size v with
    | some t => t
    | none => s.violation port bar off size true

/-- A host read, answered with its value or as an Unsupported Request (R41). -/
def hostRead (s : State) (port bar off size : Nat) : State :=
  if s.portReset port then s
  else match s.readRegister port bar off size with
    | some (w, t) => t.answer (.register port w)
    | none => (s.violation port bar off size false).answer (.unsupported port)

/-! ## The flash engine (R46, R84) -/

/-- What a command at the flash engine comes to: its result and the slots it leaves. The commit number after 2^32 - 1 is 0, which is the model's choice (log 37). -/
def flashOutcome (s : State) (c : FlashCmd) : Nat × Vector FlashSlot 2 :=
  let f := s.slot c.slot
  let o := s.slot (1 - c.slot)
  let l := s.flash.slots
  let n := c.bytes.length
  if s.runs ∧ c.slot = s.boot.slot then (2, l)
  else if c.cmd = 1 then (if Config.flashError s.free then (3, l) else (0, l.setIfInBounds c.slot FlashSlot.fresh))
  else if c.cmd = 2 then
    if n = 0 ∨ 32768 < n ∨ c.off % 256 ≠ 0 ∨ 2 ^ 25 < c.off + n then (1, l)
    else if f.committed then (4, l)
    else if Config.flashError s.free then (3, l)
    else (0, l.setIfInBounds c.slot { f with image := ((List.range n).zip c.bytes).foldl (fun m e => SMap.set 0 m (c.off + e.1) e.2) f.image })
  else if ¬ Config.headerGood f.image then (5, l)
  else if Config.flashError s.free then (3, l)
  else (0, (l.setIfInBounds c.slot { f with record := some ((o.record.getD 0 + 1) % 2 ^ 32), committed := true }).setIfInBounds (1 - c.slot) { o with active := false })

/-- A sideband message body goes out (R81); a response is kept for a repeat. -/
def sendSideband (s : State) (b : List Byte) : State := State.answer { s with side := { s.side with answer := b } } (.sideband b)

/-- A response message: CMD, FLAGS, SEQ, STATUS and the body (R81). -/
def sideMessage (cmd flags seq status : Nat) (body : List Byte) : List Byte :=
  toBytes 1 cmd ++ toBytes 1 flags ++ toBytes 2 seq ++ toBytes 2 status ++ body

/-- FLASH_COMMAND_DONE: the executing command completes, each interface seeing its own results (R46, R47), a sideband response being kept for a repeat while no later request has been executed (R82); a RESET that waited follows the last (R85). -/
def flashDone (s : State) : State :=
  match s.flash.engine with
  | [] => s
  | c :: rest =>
    let r := s.flashOutcome c
    let s := { s with flash := { s.flash with engine := rest, slots := r.2 }, free := s.free + 1 }
    let s : State := match c.sideband with
      | some seq =>
        let m := sideMessage 5 128 seq 0 (toBytes 1 r.1)
        if seq = s.side.lastReq then s.sendSideband m else s.answer (.sideband m)
      | none => { s with flash := { s.flash with busy := false, result := r.1, mbseq := s.flash.mbseq + 1 } }
    if s.side.resetDue ∧ rest.isEmpty then s.coldReset else s

end State

/-! ## Events: a register event carries the queue or nothing, the port in b, and the value -/

/-- BOOTCTL_WRITE (R39). -/
def execBootctlWrite (s : State) : Host.Outcome State Fault Refusal := .next (s.writeRegister s.arg.b 0 0x20 8 s.arg.w)

/-- KICK (R43). -/
def execKick (s : State) : Host.Outcome State Fault Refusal := .next (s.writeRegister s.arg.b 2 (s.arg.a % 4096 * 4096) 8 s.arg.w)

/-- RESUME (R44). -/
def execResume (s : State) : Host.Outcome State Fault Refusal := .next (s.writeRegister s.arg.b 2 (s.arg.a % 4096 * 4096 + 0x28) 8 s.arg.w)

/-- QUEUE_ENABLE (R93). -/
def execQueueEnable (s : State) : Host.Outcome State Fault Refusal := .next (s.writeRegister s.arg.b 0 (0x100000 + s.arg.a % 4096 * 64 + 0x18) 8 (word (2 ^ 63)))

/-- QUEUE_DISABLE (R94). -/
def execQueueDisable (s : State) : Host.Outcome State Fault Refusal := .next (s.writeRegister s.arg.b 0 (0x100000 + s.arg.a % 4096 * 64 + 0x18) 8 0)

/-- POOL_WINDOW_ENABLE (R214). -/
def execPoolWindowEnable (s : State) : Host.Outcome State Fault Refusal := .next (s.writeRegister s.arg.b 0 0x50 8 (word (2 ^ 63)))

/-- POOL_WINDOW_DISABLE (R214). -/
def execPoolWindowDisable (s : State) : Host.Outcome State Fault Refusal := .next (s.writeRegister s.arg.b 0 0x50 8 0)

/-- MAILBOX_ERASE (R46): the event carries the slot. -/
def execMailboxErase (s : State) : Host.Outcome State Fault Refusal := .next (s.writeRegister 0 4 0 4 (word (s.arg.a % 2 * 256 + 1)))

/-- MAILBOX_WRITE (R46). -/
def execMailboxWrite (s : State) : Host.Outcome State Fault Refusal := .next (s.writeRegister 0 4 0 4 (word (s.arg.a % 2 * 256 + 2)))

/-- MAILBOX_COMMIT (R46). -/
def execMailboxCommit (s : State) : Host.Outcome State Fault Refusal := .next (s.writeRegister 0 4 0 4 (word (s.arg.a % 2 * 256 + 3)))

/-- FLASH_COMMAND_DONE. -/
def execFlashCommandDone (s : State) : Host.Outcome State Fault Refusal := .next s.flashDone

/-- REGISTER_WRITE (R41): the event carries the port, the BAR, the offset, the size and the value. -/
def execRegisterWrite (s : State) : Host.Outcome State Fault Refusal := .next (s.writeRegister s.arg.a s.arg.b s.arg.c s.arg.d s.arg.w)

/-- VIOLATING_READ (R41): any host read, answered by its rules. -/
def execViolatingRead (s : State) : Host.Outcome State Fault Refusal := .next (s.hostRead s.arg.a s.arg.b s.arg.c s.arg.d)

/-- TBASE_LATCHING_READ (R38). -/
def execTbaseLatchingRead (s : State) : Host.Outcome State Fault Refusal := .next (s.hostRead s.arg.a 0 0x18 4)

end Sys2Proof.Machine
end

