-- ==== Sys2Proof/Machine/Attach.lean ====
section
/-! DEFINITION. The host attach: loss and return of CXL service, snoops of host lines, host accesses to HBM4E, back-invalidation, and translation services (R30 to R33, R48 to R58). -/

namespace Sys2Proof.Machine

namespace State

/-- An event that must wait comes again (log 4). -/
def postpone (s : State) (i : Instr) (a : Arg) : State := { s with postponed := s.postponed ++ [(i, a)] }

/-! ## Service of a port (R30, R33, R37) -/

/-- What an access of a resident context names outside the package, by the translation that it carries (R226, R33); one that has none is not on its way. -/
def hostTarget (s : State) (a : Access) : Option Nat :=
  match a.via with
  | some t => let pa := t.pa + (a.va - t.va); if storage pa = .host ∨ storage pa = .pooled then some (s.homeKey pa) else none
  | none => none

/-- A far access under way through a port is answered NOTPERF (R33): an outstanding load keeps the code until it is the oldest (R248), any other traps its context with FARERR. -/
def dropAccesses (s : State) (port : Nat) : State :=
  let mine (s : State) (a : Access) : Option Nat := (s.hostTarget a).filter (fun _ => s.hostPort (l2Die a.core) == some port)
  let one (s : State) (n k : Nat) : State :=
    match s.slotOf n k with
    | .busy c =>
      let loads := c.loads.map (fun o => match o.got, mine s o.acc with | none, some _ => { o with got := some (.code 9) } | _, _ => o)
      let lost := c.loads.filterMap (fun o => match o.got, mine s o.acc with | none, some k => some (o.acc, k) | _, _ => none)
      let s := lost.foldl (fun s e => s.logCode e.1.core e.1.owner e.1.va e.2 9) s
      let s := if lost.isEmpty then s else s.setSlot n k (.busy { c with loads := loads })
      match c.wait with
      | .far a => match mine s a with
        | some pa => (s.logCode a.core a.owner a.va pa 9).asSlot n k (fun s => s.settleAnswer a (.code 9))
        | none => s
      | _ => s
    | _ => s
  if s.async then
    (s.coreNo :: (s.cores.filter (fun e => e.1 != s.coreNo && e.2.slots.toList.any (fun sl => match sl with | .busy _ => true | _ => false))).map (·.1)).foldl
      (fun s n => (List.range 4).foldl (fun s k => one s n k) s) s
  else s

/-- An outstanding store through a port is answered NOTPERF. -/
def dropStores (s : State) (port : Nat) : State :=
  let mine (f : Flying) : Bool := (storage f.key == .host || storage f.key == .pooled) && s.hostPort (l2Die f.core) == some port
  (s.inflight.filter mine).foldl (fun s f => (s.logCode f.core f.owner (storeVa f.va f.bytes) f.key 9).report f.owner 0x46 (word (storeVa f.va f.bytes)) 9) { s with inflight := s.inflight.filter (fun f => !mine f) }

/-- The host's own bytes stand again where the device's were dirty. -/
def restoreHost (s : State) (line n : Nat) : State :=
  let mine (d : Nat × Byte) : Bool := decide (line ≤ d.1) && decide (d.1 < line + n)
  (s.host.dirty.filter mine).foldl (fun s d => s.setByte d.1 d.2) { s with host := { s.host with dirty := s.host.dirty.filter (fun d => !mine d) }, arrived := s.arrived.filter (fun a => !(decide (line ≤ a.key) && decide (a.key < line + n))) }

/-- The first-level caches lose the sectors of a line, and the L2s the line. -/
def discardLine (s : State) (line : Nat) : State :=
  let keep (c : Core) : Core := if c.l1.any (fun e => lineStart e.pa == line) then { c with l1 := c.l1.filter (fun e => lineStart e.pa != line) } else c
  { s with core := keep s.core, cores := s.cores.map (fun (e : Nat × Core) => (e.1, keep e.2)), leases := s.leases.filter (fun l => l.1 != lineKey line), l2 := s.l2.filter (·.line != lineKey line) }

/-- The lines that a port's tracker records are dropped, and each slice that loses dirty sectors logs their count (R33). -/
def dropLines (s : State) (port : Nat) : State :=
  let mine := s.host.tracker.filter (fun t => t.1 == port)
  let lost := mine.flatMap (fun t => firsts ((s.host.dirty.filter (fun d => decide (t.2.1 ≤ d.1) && decide (d.1 < t.2.1 + lineLen t.2.1))).map (fun d => (sliceOf t.2.2 t.2.1, sectorStart d.1))))
  let s := mine.foldl (fun s t => (s.restoreHost t.2.1 (lineLen t.2.1)).discardLine t.2.1) s
  let s := { s with host := { s.host with tracker := s.host.tracker.filter (fun t => t.1 != port) } }
  (firsts (lost.map (·.1))).foldl (fun s u => s.logEntry 11 2 u 0 (word (port * 2 ^ 56 + (lost.filter (fun l => l.1 == u)).length))) s

/-- One response word to a service core (R57). -/
def answerPage (s : State) (r : PageReq) (code : Nat) : State :=
  let w : NetWord := { core := 20000, txport := r.nport, kind := if r.core < 16384 then 0 else 1, unit := r.core % 16384, town := s.coreOwner r.core, port := r.nport,
                       value := word (code * 2 ^ 62 + r.tag * 2 ^ 47 + r.page), closing := false, spilled := 0 }
  { s with net := s.net ++ [w] }

/-- Every outstanding page request of a port is answered with Response Failure, and PRIFAIL is set. -/
def failPages (s : State) (port : Nat) : State :=
  let s := (s.host.pageReqs.filter (fun r => r.port == port)).foldl (fun s r => s.answerPage r 2) s
  let s := { s with host := { s.host with pageReqs := s.host.pageReqs.filter (fun r => r.port != port) } }
  s.setLink port { s.cxlLink port with prifail := true }

/-- CXL_SERVICE_LOSS (R33): why 0 for a link that is down, 1 for a host reset, 2 where the host has disabled a protocol. What its decoder decoded is unreachable through it until the host commits again (R48). -/
def serviceLoss (s : State) (port why : Nat) : State :=
  if 2 ≤ port then s
  else
    let s := ((s.dropAccesses port).dropStores port).dropLines port
    let s := { s with host := { s.host with atsCache := s.host.atsCache.filter (fun e => e.1 != port), hdm := s.host.hdm.setIfInBounds port none, held := s.host.held.filter (fun h => h.1 != port),
                                            asked := s.host.asked.filter (fun a => !(s.host.held.any (fun h => h.1 == port && h.2.1 == a))) } }
    let s := s.failPages port
    let l := s.cxlLink port
    s.setLink port (if why = 2 then { l with cache := false, mem := false, ioonly := 4 } else { l with up := false, cache := false, mem := false, flit := false, speed := 0, width := 0, ioonly := 0 })

/-- CXL_SERVICE_RESTORE (R30): the link's speed code, its lanes, flit mode, and whether the host has enabled both protocols. -/
def serviceRestore (s : State) (port speed width : Nat) (flit hostOn : Bool) : State :=
  if 2 ≤ port ∨ s.boot.tripped ∨ (s.boot.rescue = true ∧ port = 1) then s
  else
    let l := { s.cxlLink port with up := true, speed := speed % 16, width := width % 256, flit := flit }
    let why := if s.boot.rescue then 5 else ioOnly l hostOn
    let on := decide (why = 0) && s.ready
    s.setLink port { l with ioonly := why, cache := on, mem := on }

/-! ## HDM decoders (R48) -/

/-- Whether a decoder fits a form for the ports that now have CXL.mem, whatever the other port's decoder still holds. -/
def hdmGood (s : State) (port : Nat) (d : Hdm) : Bool :=
  let both := (s.cxlLink 0).mem && (s.cxlLink 1).mem
  (s.cxlLink port).mem &&
  (if d.ways = 1 then d.size == (if both then 2 ^ 39 else 2 ^ 40)
   else if d.ways = 2 then both && d.size == 2 ^ 40 && [256, 512, 1024, 2048, 4096, 8192, 16384].contains d.gran
   else false)

/-- HDM_DECODER_COMMIT: committed, or the standard commit error. -/
def hdmCommit (s : State) (port : Nat) (d : Hdm) : State :=
  if port < 2 ∧ s.hdmGood port d then State.answer { s with host := { s.host with hdm := s.host.hdm.setIfInBounds port (some d) } } (.hdm port true) else s.answer (.hdm port false)

/-- Whether a port's committed decoder decodes an address of HBM4E: in the 1-way form its half or the whole, in the 2-way form every other granule, port 0 first (log 38). -/
def decodes (s : State) (port k : Nat) : Bool :=
  match s.host.hdm.toList.getD port none with
  | none => false
  | some d => if d.ways = 1 then d.size == 2 ^ 40 || k / 2 ^ 39 == port else k / d.gran % 2 == port

/-! ## Snoops (R54, R55) -/

/-- The number under which the host's writes stand. -/
def hostCore : Nat := 20002

/-- When a snoop of a host line is answered (R54): after the end of every lease on it, those of quads marked gated apart (R23), and once the device's own writes to it are complete. -/
def snoopEnd (s : State) (line : Nat) : Nat :=
  let m := s.leases.foldl (fun m l => if l.1 = lineKey line ∧ s.time < l.2.2 ∧ s.gated false (l.2.1 / 4) = false then max m l.2.2 else m) s.time
  s.arrived.foldl (fun m a => if lineStart a.key = lineStart line ∧ storage a.key = .host then max m a.vis else m) m

/-- The host has its line: what was dirty goes back with the response, and then the bytes that the host stores stand. SnpInv, SnpData and SnpCur are answered alike, and the spec does not say whether the tracker keeps the line after the last two: the model's choice is that it does not (log 39). -/
def answerSnoop (s : State) (port k : Nat) (bs : List (Nat × Byte)) (line : Nat) : State :=
  let v := s.snoopEnd line
  let dirty := s.host.dirty.any (fun d => decide (line ≤ d.1) && decide (d.1 < line + 64))
  let data := if dirty then (List.range 64).map (fun i => s.serialByte (line + i)) else []
  let start := lineStart line
  let s := s.writeBack start (lineLen start)
  let s := { s with host := { s.host with tracker := s.host.tracker.filter (fun t => !(t.1 == port && t.2.1 == start)) }, l2 := s.l2.filter (·.line != lineKey start) }
  let s := if v ≤ s.time then s.answer (.snoop port line data) else { s with due := s.due ++ [(v, .snoop port line data)] }
  if bs = [] then s else s.arrive hostCore 0 k bs none false

/-- After 2 µs an engine lets a line go, for a snoop: what it has written of it becomes visible, and it takes the line again for the rest (R55). -/
def yieldLine (s : State) (start : Nat) : State :=
  let v := let m := s.leaseEnd start; if m = 0 then s.time else max s.time (m + 2)
  State.settle { s with arrived := s.arrived.map (fun a => if lineStart a.key = start ∧ unreleased ≤ a.vis then { a with vis := v } else a) }

/-- HOST_SNOOP (R54): a snoop of the 64-byte line of a host address, with the bytes that the host stores once it has the line. -/
def hostSnoop (s : State) (i : Instr) (a : Arg) : State :=
  let k := a.a
  let line := k / 64 * 64
  let port := a.b % 2
  let bs := offsets a.bytes
  let start := lineStart line
  let since := if a.d = 0 then s.time + 1 else a.d
  if storage k ≠ .host ∨ (s.cxlLink port).up = false then s
  else if s.inflight.any (fun f => lineStart f.key == start) then s.postpone i { a with d := since }
  else if s.host.tracker.any (fun t => t.1 == port && t.2.1 == start) ∧ ¬ s.host.tracker.any (fun t => t.1 == port && t.2.1 == start && !(s.gated true t.2.2)) then
    -- recorded for a gated unit: RspI at once (R23)
    let s := s.answer (.snoop port line [])
    if bs = [] then s else s.arrive hostCore 0 k bs none false
  else if s.engineHolds line 64 then
    -- exclusive to an engine: 2 µs at most, whatever else waits for the engine (R55)
    if s.time + 1 < since + 2000 then s.postpone i { a with d := since } else (s.yieldLine start).answerSnoop port k bs line
  else if ¬ s.host.tracker.any (fun t => t.1 == port && t.2.1 == start) then
    -- not recorded: RspI at once
    let s := s.answer (.snoop port line [])
    if bs = [] then s else s.arrive hostCore 0 k bs none false
  else s.answerSnoop port k bs line

/-! ## Host accesses to HBM4E (R48 to R51) -/

/-- A host access that O1 does not hold, logged at the home (R49). DETAIL has four bits for the size, and what they hold for an access of 16 bytes or more the spec does not say: the model's choice is the size modulo 16 (log 38). -/
def hostViolation (s : State) (k n : Nat) (write : Bool) : State := s.logEntry 1 1 (homeCore k) (word k) (word (2 ^ 48 + bit write * 16 + n % 16))

def setHeld (s : State) (port line how : Nat) : State :=
  let l := s.host.held.filter (fun h => h.2.1 != line)
  { s with host := { s.host with held := if how = 0 then l else l ++ [(port, line, how == 2)] } }

/-- HOST_HBM_WRITE: raw, every touched word VAL, and complete after its V; c says how the host holds the line then (0 not, 1 shared, 2 alone). -/
def hostWrite (s : State) (a : Arg) : State :=
  let k := a.a
  let port := a.b % 2
  if storage k ≠ .hbm ∨ (s.cxlLink port).mem = false ∨ s.decodes port k = false then s
  else if s.holder 4 (k / 2097152) ≠ 1 then (s.hostViolation k a.bytes.length true).answer (.hostDone port k)
  else if s.scrubbing k ∨ s.lineHeld k then s.postpone .hostHbmWrite a
  else
    let s := s.markContended hostCore k
    let v := s.formV k a.bytes.length
    let s := (s.rawWrite hostCore 0 k (offsets a.bytes)).setHeld port (lineStart k) a.c
    if v ≤ s.time then s.answer (.hostDone port k) else { s with due := s.due ++ [(v, .hostDone port k)] }

/-- The latest V among the stores serialised at the home of an address (R50). -/
def lastVis (s : State) (k : Nat) : Nat := s.arrived.foldl (fun m a => if storage a.key = .hbm ∧ homeCore a.key = homeCore k then max m a.vis else m) s.time

/-- HOST_HBM_READ: d raw bytes; c says how the host holds the line then: alone, it waits for every lease. -/
def hostReadHbm (s : State) (a : Arg) : State :=
  let k := a.a
  let port := a.b % 2
  if storage k ≠ .hbm ∨ (s.cxlLink port).mem = false ∨ s.decodes port k = false then s
  else if s.holder 4 (k / 2097152) ≠ 1 then (s.hostViolation k a.d false).answer (.hostData port k [] true)
  else if s.scrubbing k ∨ s.lineHeld k then s.postpone .hostHbmRead a
  else
    let v := if a.c = 2 then max (s.formV k a.d) (s.lastVis k) else s.lastVis k
    let o : Output := .hostData port k ((List.range a.d).map (fun i => s.serialByte (k + i))) (s.poisoned k a.d)
    let s := if a.c = 0 then s else s.setHeld port (lineStart k) a.c
    if v ≤ s.time then s.answer o else { s with due := s.due ++ [(v, o)] }

/-- BIRSP_RECEIVE: the host gives up a line, or after BISnpData keeps it shared (c = 1); the bytes it had changed are written at a. -/
def birsp (s : State) (a : Arg) : State :=
  let line := lineStart a.a
  let s := { s with host := { s.host with asked := s.host.asked.filter (· != line) } }
  let s := s.setHeld (a.b % 2) line (if a.c = 1 then 1 else 0)
  if a.bytes = [] ∨ storage a.a ≠ .hbm then s
  else if s.holder 4 (a.a / 2097152) ≠ 1 then s.hostViolation a.a a.bytes.length true
  else s.rawWrite hostCore 0 a.a (offsets a.bytes)

/-! ## Translation services (R56 to R58) -/

/-- ATS_INVALIDATE: every page of a port, or one (b, a page of PA): complete once every store that used it is. -/
def atsInvalidate (s : State) (a : Arg) : State :=
  let port := a.a % 2
  let hit (page : Nat) : Bool := a.c == 1 || page == a.b
  let s := { s with host := { s.host with atsCache := s.host.atsCache.filter (fun e => !(e.1 == port && hit e.2)), atsDenied := s.host.atsDenied.filter (fun p => !hit p.1) } }
  if s.inflight.any (fun f => storage f.key == .host && hit (f.key / 4096)) ∨ s.arrived.any (fun f => f.core != hostCore && storage f.key == .host && hit (f.key / 4096)) then s.postpone .atsInvalidate a else s.answer (.atsDone port)

/-- A page of host memory as PA[51:12]. -/
def hostPage (page : Nat) : Nat := 2 ^ 39 + page % 2 ^ 39

/-- ATS_DENY: the accesses to the page, or writes of it alone, need service of kind HOSTPAGE from now on (R57). -/
def atsDeny (s : State) (page : Nat) (writes : Bool) : State :=
  if s.host.links.toList.any (·.ats) ∧ ¬ s.host.atsDenied.contains (hostPage page, writes) then { s with host := { s.host with atsDenied := (hostPage page, writes) :: s.host.atsDenied, atsCache := s.host.atsCache.filter (fun e => e.2 != hostPage page) } } else s

/-- A request word at the host-attach unit of a port (R57, R58): up to 512 outstanding, and no more than the host has allocated. While the failing regime stands and PRI is disabled both answers of R58 apply, and the model's choice is Response Failure; a word sent while the link is down is answered BUSY, as one sent while PRI is disabled, which is the model's choice too (log 38). -/
def pageWord (s : State) (core nport port : Nat) (w : Word) : State :=
  let r : PageReq := { core := core, nport := nport, port := port, tag := wbits w 62 48, page := wbits w 38 0, write := wbits w 63 63 == 1 }
  let l := s.cxlLink port
  if wbits w 47 39 ≠ 0 then s.logEntry 9 6 port w 1
  else if l.failing then s.answerPage r 2
  else if ¬ l.pri ∨ ¬ l.up ∨ min 512 l.alloc ≤ (s.host.pageReqs.filter (fun x => x.port == port)).length then s.answerPage r 3
  else State.answer { s with host := { s.host with pageReqs := s.host.pageReqs ++ [r] } } (.pageRequest port r.tag r.page r.write)

/-- PAGE_REQUEST_WORD: the first word in the network for a host-attach unit reaches it. -/
def pageRequest (s : State) : State :=
  match s.net.find? (fun w => w.kind == 2 && w.spilled == 0) with
  | none => s
  | some w =>
    let s := ({ s with net := s.net.erase w }).txDone w (decide (2 ≤ w.unit))
    if 2 ≤ w.unit then s.logEntry 9 7 0 (destAddr w.kind w.unit w.port) 1 else s.pageWord w.core w.txport w.unit w.value

/-- PAGE_GROUP_RESPONSE for a tag and page: code 0 success, 1 invalid request, 2 response failure (R57, R58). -/
def pageResponse (s : State) (tag page code : Nat) : State :=
  match s.host.pageReqs.find? (fun r => r.tag == tag && r.page == page) with
  | none => s
  | some r =>
    if code = 2 then
      let s := s.failPages r.port
      s.setLink r.port { s.cxlLink r.port with failing := true }
    else
      let s := { s with host := { s.host with pageReqs := s.host.pageReqs.erase r, atsDenied := if code = 0 then s.host.atsDenied.filter (fun p => p.1 != hostPage page || (p.2 && !r.write)) else s.host.atsDenied } }
      s.answerPage r (if code = 0 then 0 else 1)

/-- CONFIG_SPACE_WRITE: ATS, PRI and the Outstanding Page Request Allocation of a port (R52, R58). -/
def configWrite (s : State) (port : Nat) (ats pri : Bool) (alloc : Nat) : State :=
  if 2 ≤ port then s
  else
    let l := s.cxlLink port
    let s := if ats ≠ l.ats then { s with host := { s.host with atsCache := s.host.atsCache.filter (fun e => e.1 != port) } } else s
    let s := s.setLink port { l with ats := ats, pri := pri, alloc := alloc, failing := l.failing && !(pri && !l.pri) }
    if s.host.links.toList.any (·.ats) then s else { s with host := { s.host with atsDenied := [] } }

end State

/-! ## Events -/

/-- CXL_SERVICE_LOSS. -/
def execCxlServiceLoss (s : State) : Host.Outcome State Fault Refusal := .next (s.serviceLoss s.arg.a s.arg.b)

/-- CXL_SERVICE_RESTORE. -/
def execCxlServiceRestore (s : State) : Host.Outcome State Fault Refusal := .next (s.serviceRestore s.arg.a s.arg.b s.arg.c (s.arg.d == 1) (s.arg.e == 1))

/-- CXL_LINK_RETRAIN (R37). -/
def execCxlLinkRetrain (s : State) : Host.Outcome State Fault Refusal :=
  .next (if s.arg.a < 2 ∧ (s.cxlLink s.arg.a).up then s.setLink s.arg.a { s.cxlLink s.arg.a with retrain := true } else s)

/-- HDM_DECODER_COMMIT. -/
def execHdmDecoderCommit (s : State) : Host.Outcome State Fault Refusal := .next (s.hdmCommit s.arg.a { ways := s.arg.b, gran := s.arg.c, start := s.arg.d, size := s.arg.e })

/-- HOST_SNOOP. -/
def execHostSnoop (s : State) : Host.Outcome State Fault Refusal := .next (s.hostSnoop .hostSnoop s.arg)

/-- SNOOP_ENGINE_TIMEOUT: a snoop that has waited 2 µs for an engine gets its answer (R55). -/
def execSnoopEngineTimeout (s : State) : Host.Outcome State Fault Refusal := .next (s.hostSnoop .snoopEngineTimeout s.arg)

/-- HOST_HBM_WRITE. -/
def execHostHbmWrite (s : State) : Host.Outcome State Fault Refusal := .next (s.hostWrite s.arg)

/-- HOST_HBM_READ. -/
def execHostHbmRead (s : State) : Host.Outcome State Fault Refusal := .next (s.hostReadHbm s.arg)

/-- BIRSP_RECEIVE. -/
def execBirspReceive (s : State) : Host.Outcome State Fault Refusal := .next (s.birsp s.arg)

/-- ATS_INVALIDATE. -/
def execAtsInvalidate (s : State) : Host.Outcome State Fault Refusal := .next (s.atsInvalidate s.arg)

/-- ATS_DENY. -/
def execAtsDeny (s : State) : Host.Outcome State Fault Refusal := .next (s.atsDeny s.arg.a (s.arg.b == 1))

/-- PAGE_REQUEST_WORD. -/
def execPageRequestWord (s : State) : Host.Outcome State Fault Refusal := .next s.pageRequest

/-- PAGE_GROUP_RESPONSE. -/
def execPageGroupResponse (s : State) : Host.Outcome State Fault Refusal := .next (s.pageResponse s.arg.a s.arg.b s.arg.c)

/-- CONFIG_SPACE_WRITE. -/
def execConfigSpaceWrite (s : State) : Host.Outcome State Fault Refusal := .next (s.configWrite s.arg.a (s.arg.b == 1) (s.arg.c == 1) s.arg.d)

end Sys2Proof.Machine
end

