-- ==== Sys2Proof/Machine/Control.lean ====
section
/-! DEFINITION. Control flow: branches, JAL, jump tables, the return stack, LPAD and FMT (R291 to R294, R313, R314, R330 to R336). -/

namespace Sys2Proof.Machine

/-! ## Branches (R331) -/

/-- BEQ. -/
def execBeq (rs1 rs2 off : Nat) (s : State) : Host.Outcome State Fault Refusal := .next (s.branch rs1 rs2 off fun a b => a == b)

/-- BNE. -/
def execBne (rs1 rs2 off : Nat) (s : State) : Host.Outcome State Fault Refusal := .next (s.branch rs1 rs2 off fun a b => a != b)

/-- BLT. -/
def execBlt (rs1 rs2 off : Nat) (s : State) : Host.Outcome State Fault Refusal := .next (s.branch rs1 rs2 off fun a b => a.slt b)

/-- BGE. -/
def execBge (rs1 rs2 off : Nat) (s : State) : Host.Outcome State Fault Refusal := .next (s.branch rs1 rs2 off fun a b => !a.slt b)

/-- BLTU. -/
def execBltu (rs1 rs2 off : Nat) (s : State) : Host.Outcome State Fault Refusal := .next (s.branch rs1 rs2 off fun a b => a.ult b)

/-- BGEU. -/
def execBgeu (rs1 rs2 off : Nat) (s : State) : Host.Outcome State Fault Refusal := .next (s.branch rs1 rs2 off fun a b => !a.ult b)

/-! ## Calls and returns (R332 to R335) -/

namespace State

/-- The link: the zero-extended address of the next instruction. -/
def link (s : State) : Word := (s.ctx.pc + 4).setWidth 64

/-- Push a link and write it to rd, or trap with RSTACK at depth 16 (R332). -/
def call (s : State) (rd : Nat) (k : State → State) : State :=
  if 16 ≤ s.ctx.rstack.length then s.trap 0x0E 16
  else
    let l := s.link
    k ((s.setCtx { s.ctx with rstack := l :: s.ctx.rstack, rdead := s.ctx.rdead.drop 1 }).wx rd l)

/-- jt_target (R293): the target and the label, with the header and the entry read as code; the reads fail as a fetch does, at this instruction. -/
def jumpTarget (s : State) (imm : Nat) (i : Word) (k : State → BitVec 57 → Nat → State) : State :=
  let t : BitVec 57 := BitVec.ofNat 57 (s.ctx.pc.toNat / 8 * 8 + 8 * (imm12 imm).toNat)
  match s.readCode t.toNat 8 with
  | (.word h, s) =>
    if bits h 63 52 ≠ 0 ∨ bits h 31 0 ≤ i.toNat then s.trap 0x03 i
    else
      let ea := (t + 8 + BitVec.ofNat 57 (4 * i.toNat)).toNat
      match s.readCode ea 4 with
      | (.word e, s) => k s (t + BitVec.ofNat 57 (4 * (sext (word e) 32).toNat)) (bits h 51 32)
      | (f, s) => s.fetchTrap f ea s.ctx.pc
  | (f, s) => s.fetchTrap f t.toNat s.ctx.pc

/-- Whether a word is LPAD of a label (R293). -/
def isPad (w lab : Nat) : Bool := w == 0x6B + 4096 * lab

/-- The context goes on with a word that it has fetched already. -/
def holding (s : State) (w : Nat) : State := s.setCtx { s.ctx with word := some w }

/-- A fetched word that has failed the landing-pad check of a label: what is held until LPADMISS is taken. -/
def failedPad (w lab : Nat) : Nat := (lab + 1) * 2 ^ 32 + w

/-- A target's fetch that gives no word: what is held until its trap is taken, with the cause and the DETAIL. -/
def failedFetch (cause : Nat) (detail : Word) : Nat := 2 ^ 128 + cause * 2 ^ 64 + detail.toNat

/-- How the fetch of a target ends that gives no word and cannot block (R289, R436), as the cause and the DETAIL of its trap. -/
def targetTrap (f : Fetched) (va : Nat) : Nat × Word :=
  match f with
  | .code c => (0x0C, Machine.word c)
  | .poison => (0x0D, 0)
  | .shape t => (0x09, Machine.word t)
  | _ => (0x12, Machine.word va)

/-- The trap at a target whose word has failed (R289, R293), LPADMISS or what its fetch has met: a context that has to wait for it holds what has failed. -/
def padMiss (s : State) (w : Nat) : State :=
  let t := if w < 2 ^ 128 then s.trapAt 0x04 0 (Machine.word (w / 2 ^ 32 - 1)) s.ctx.pc
    else s.trapAt ((w - 2 ^ 128) / 2 ^ 64) s.pcWord (Machine.word (w % 2 ^ 64)) s.ctx.pc
  if t.live ∧ t.coreNo = s.coreNo ∧ t.running = s.running ∧ t.ctx.wait = .again 0 then t.await (.again 12) else t

/-- Transfer to a jump-table target (R293): the target word is fetched first, and is the first executed there; a fetch that needs service blocks this instruction with nothing done, or where the fault cannot be posted stops the context at the target (R436); then go has its effects and PC is the target, where a failed fetch or a missing LPAD traps, the context's stores having drained before (R344). -/
def toTarget (s : State) (t : BitVec 57) (lab : Nat) (go : State → (State → State) → State) : State :=
  let fail (s : State) (w : Nat) : State := s.drained fun s => go s fun s => ((s.setPc t).holding w).padMiss w
  let failed (s : State) (f : Fetched) : State := let c := targetTrap f t.toNat; fail s (failedFetch c.1 c.2)
  match s.readCode t.toNat 4 with
  | (.service v, s) => if v.kind = 8 ∨ s.fscGood s.owner s.coreNo = true then s.fetchTrap (.service v) t.toNat s.ctx.pc else failed s (.service v)
  | (.later, s) => s.await (.again 0)
  | (.bound, s) => go s fun s => s.setPc t
  | (.word w, s) => if isPad w lab then go s fun s => (s.setPc t).holding w else fail s (failedPad w lab)
  | (f, s) => failed s f

end State

/-- JAL (R333): off counts words. -/
def execJal (rd off : Nat) (s : State) : Host.Outcome State Fault Refusal :=
  let t := s.ctx.pc + BitVec.ofNat 57 (sext (word (4 * off)) 21).toNat
  .next (if rd = 0 then s.setPc t else s.call rd fun s => s.setPc t)

/-- JT (R334). -/
def execJt (rs1 imm : Nat) (s : State) : Host.Outcome State Fault Refusal :=
  .next (s.jumpTarget imm (s.rx rs1) fun s t lab => s.toTarget t lab fun s land => land s)

/-- CALLT (R334): RSTACK is checked after the table and before the target's fetch can block. -/
def execCallt (rd rs1 imm : Nat) (s : State) : Host.Outcome State Fault Refusal :=
  .next (s.jumpTarget imm (s.rx rs1) fun s t lab =>
    if 16 ≤ s.ctx.rstack.length then s.trap 0x0E 16 else s.toTarget t lab fun s land => s.call rd land)

/-- RET (R335). -/
def execRet (s : State) : Host.Outcome State Fault Refusal :=
  .next (match s.ctx.rstack with
    | [] => s.trap 0x0E 0
    | a :: rest => (s.setCtx { s.ctx with rstack := rest, rdead := a :: s.ctx.rdead }).setPc (a.setWidth 57))

/-- LPAD (R294): it does nothing; the check of R293 is the jump's. -/
def execLpad (_label : Nat) (s : State) : Host.Outcome State Fault Refusal := .next s.next

/-- FMT (R314). -/
def execFmt (byte : Nat) (s : State) : Host.Outcome State Fault Refusal := .next (s.setPend byte).next

/-- An encoding that is not an instruction, or a word that its core or a pending prefix does not admit (R289, R290, R314): ILLOP with the word. -/
def execIllop (w : Nat) (s : State) : Host.Outcome State Fault Refusal := .next (s.trap 0x01 (word w))

/-- The fetch at PC gives no word (R289): a trap, or a block with DREG x0; or a jump's target word has failed its landing-pad check (R293). -/
def execInstructionFetchFailure (s : State) : Host.Outcome State Fault Refusal :=
  .next (match s.ctx.word with
    | some w => s.padMiss w
    | none => match s.fetch with
      | (.word _, _) => s
      | (f, s') => s'.fetchTrap f s.ctx.pc.toNat s.ctx.pc)

end Sys2Proof.Machine
end

