-- ==== Sys2Proof/Machine/Sideband.lean ====
section
/-! DEFINITION. The sideband management port: its commands, sequence numbers and events, and attestation (R80 to R86, R90). -/

namespace Sys2Proof.Machine

/-- A request of the device's own commands (R81): FLAGS, SEQ, STATUS and the body. -/
structure SideRequest where
  flags  : Nat
  seq    : Nat
  status : Nat
  body   : List Byte
  deriving DecidableEq, Repr

def sBadSeq : Nat := 1
def sBadCmd : Nat := 2
def sUnavailable : Nat := 3
def sBusy : Nat := 4
def sRange : Nat := 5

namespace State

/-- The request that an event carries. -/
def sideRequest (s : State) : SideRequest := { flags := s.arg.b, seq := s.arg.a % 65536, status := s.arg.c, body := s.arg.bytes }

/-- Respond to a request, and keep the response (R82). -/
def respond (s : State) (cmd : Nat) (r : SideRequest) (status : Nat) (body : List Byte) : State := s.sendSideband (sideMessage cmd 128 r.seq status body)

/-- Whether a message of n bytes can reach the device (R80): MCTP messages have up to 1,088 bytes. A longer one is not received, which is the model's choice (log 40). -/
def mctpFits (n : Nat) : Bool := decide (n ≤ 1088)

/-- Whether the request that an event carries can reach the device: its message type, vendor identifier and fields take nine bytes beside the body (R81). -/
def requestFits (s : State) : Bool := mctpFits (9 + s.arg.bytes.length)

/-- A request in sequence is executed by k; a repeat gets the stored response; any other is answered BADSEQ with the expected number (R82). Reserved bits give BADCMD, and a state in which the command is not served UNAVAILABLE (R83). What a repeat is answered while there is no stored response the spec does not say: the model's choice is nothing (log 40). -/
def inSequence (s : State) (cmd : Nat) (served : Bool) (k : State → SideRequest → State) : State :=
  let r := s.sideRequest
  let next := (s.side.lastReq + 1) % 65536
  if ¬ s.requestFits then s
  else if r.seq = next then
    let s := { s with side := { s.side with lastReq := next, answer := [] } }
    if r.flags ≠ 0 ∨ r.status ≠ 0 then s.respond cmd r sBadCmd []
    else if ¬ served then s.respond cmd r sUnavailable []
    else k s r
  else if r.seq = s.side.lastReq then (if s.side.answer = [] then s else s.answer (.sideband s.side.answer))
  else s.answer (.sideband (sideMessage cmd 128 r.seq sBadSeq (toBytes 2 next)))

/-- The state in which every command is served (R83). -/
def normal (s : State) : Bool := !s.boot.rescue && !s.boot.tripped

def field (r : SideRequest) (off n : Nat) : Nat := ofBytes ((r.body.drop off).take n)

/-- GETSTAT. -/
def getstat (s : State) (r : SideRequest) : State :=
  if r.body ≠ [] then s.respond 1 r sBadCmd []
  else s.respond 1 r 0 (toBytes 4 s.bootstat ++ toBytes 4 s.thrstat ++ toBytes 4 (s.linkstat 0) ++ toBytes 4 (s.linkstat 1) ++ toBytes 8 s.time)

/-- READLOG: the entries present among count numbers from the first. -/
def readlog (s : State) (r : SideRequest) : State :=
  let first := field r 0 4
  let count := field r 4 1
  if r.body.length ≠ 5 then s.respond 2 r sBadCmd []
  else if count = 0 ∨ 32 < count then s.respond 2 r sRange []
  else s.respond 2 r 0 ((s.log.entries.reverse.filter (fun e => decide (first ≤ e.seq) && decide (e.seq < first + count))).flatMap (fun e => (logWords e).flatMap (fun w => toBytes 8 w.toNat)))

/-- PORTSTAT. -/
def portstatCommand (s : State) (r : SideRequest) : State :=
  let p := field r 0 1
  if r.body.length ≠ 1 then s.respond 3 r sBadCmd []
  else if 144 ≤ p then s.respond 3 r sRange []
  else s.respond 3 r 0 (toBytes 8 (portstat (s.getPort p)))

/-- MAPREAD: an entry of the ownership map as it stands (R86), every silence that is due in force (R127). -/
def mapread (s : State) (r : SideRequest) : State :=
  let k := field r 0 1
  let i := field r 1 4
  if r.body.length ≠ 5 then s.respond 4 r sBadCmd []
  else if kindLimit k ≤ i ∨ (k = 9 ∧ i = 0) then s.respond 4 r sRange []
  else s.respond 4 r 0 (((s.silences 65536).entryWords (entryKey k i)).flatMap (fun w => toBytes 8 w.toNat))

/-- FLASH (R84): its response comes when the command completes. A slot, a command or a length outside its range has no status in the spec: the model's choice is RANGE (log 40). -/
def flashCommand (s : State) (r : SideRequest) : State :=
  let slot := field r 0 1
  let cmd := field r 1 1
  let data := r.body.drop 6
  if r.body.length < 6 then s.respond 5 r sBadCmd []
  else if 1 < slot ∨ cmd = 0 ∨ 3 < cmd ∨ 1024 < data.length then s.respond 5 r sRange []
  else if s.flash.engine.any (fun c => c.sideband.isSome) then s.respond 5 r sBusy []
  else { s with flash := { s.flash with engine := s.flash.engine ++ [{ slot := slot, cmd := cmd, off := field r 2 4, bytes := data, sideband := some r.seq }] } }

/-- RESET (R85): answered first; the reset waits for the flash engine. -/
def resetCommand (s : State) (r : SideRequest) : State :=
  if r.body ≠ [] then s.respond 6 r sBadCmd []
  else
    let s := s.respond 6 r 0 []
    if s.flash.engine.isEmpty then s.coldReset else { s with side := { s.side with resetDue := true } }

/-- SEQSYNC, outside the sequence check (R82). -/
def seqsync (s : State) : State :=
  let r := s.sideRequest
  if ¬ s.requestFits then s
  else if r.flags ≠ 0 ∨ r.status ≠ 0 ∨ r.body ≠ [] then s.answer (.sideband (sideMessage 7 128 r.seq sBadCmd []))
  else s.answer (.sideband (sideMessage 7 128 r.seq 0 (toBytes 2 s.side.lastReq ++ toBytes 2 (s.side.nextEv - 1) ++ toBytes 2 ((s.side.events.head?.map (·.1)).getD 0))))

/-- EVACK (R82). -/
def evack (s : State) (r : SideRequest) : State :=
  let n := field r 0 2
  if r.body.length ≠ 2 then s.respond 8 r sBadCmd []
  else State.respond { s with side := { s.side with events := s.side.events.filter (fun e => !(decide ((n + 65536 - e.1 % 65536) % 65536 < 32768))) } } 8 r 0 []

/-- EVENT_RESEND: the oldest unacknowledged event goes out again, 100 ms after it was last sent (R82); while the time base does not run, whenever the event happens. Where another event has become the oldest, its 100 ms still run from the last sending of the one before it, which is the model's choice (log 5). -/
def eventResend (s : State) : State :=
  match s.side.events with
  | (n, e) :: _ => if s.clock.on = false ∨ s.side.sentAt + 100000000 ≤ s.time then State.answer { s with side := { s.side with sentAt := s.time } } (.sideband (eventMessage n e)) else s
  | [] => s

/-- A request with a reserved CMD value, 256 standing for 0 (R83). -/
def reservedCommand (s : State) : State := s.inSequence (s.arg.e % 256) true (fun s r => s.respond (s.arg.e % 256) r sBadCmd [])

/-- A PLDM numeric sensor (R17, R79, R80): 1 to 6 the fields of THRSTAT from TJMAX down to LEVEL, 16 + p PORTSTAT of port p (log 40). -/
def pldmSensor (s : State) (n : Nat) : Option Nat :=
  match n with
  | 1 => some (s.power.tjmax % 256)
  | 2 => some (bit s.power.powlim)
  | 3 => some (bit s.power.therm)
  | 4 => some (bit s.power.coolant)
  | 5 => some (bit s.power.vin)
  | 6 => some (s.power.level % 4)
  | n => if 16 ≤ n ∧ n < 160 then some (portstat (s.getPort (n - 16))) else none

/-- A PLDM sensor read, answered where there is such a sensor. -/
def pldmRead (s : State) (n : Nat) : State :=
  match s.pldmSensor n with
  | some v => s.answer (.pldm n v)
  | none => s

/-- Another PLDM request of a supported type (R80): base, or platform monitoring and control with the event log. Types that are not supported get no answer. -/
def pldmRequest (s : State) (type : Nat) : State :=
  if (type = 0 ∨ type = 2) ∧ mctpFits (1 + s.arg.bytes.length) = true then s.answer (.pldmMessage (Config.pldmAnswer type (s.log.entries.reverse.flatMap (fun e => (logWords e).flatMap (fun w => toBytes 8 w.toNat))) s.arg.bytes)) else s

/-! ## SPDM and attestation (R80, R90) -/

/-- The ML-DSA-44 public key derived at boot from the digest of the image that was booted, all zero in rescue mode: 1,312 bytes. -/
def bootKey (s : State) : List Byte := fit 1312 (Config.publicKey s.boot.digest)

/-- The report: nonce, BOOTSTAT, fused minimum, the digests of slots A and B, the time base, and the newest ENTSEQ. -/
def attestation (s : State) (nonce : List Byte) : List Byte :=
  nonce ++ toBytes 4 s.bootstat ++ toBytes 1 Config.fusedMinimum ++ imageDigest (s.slot 0) ++ imageDigest (s.slot 1) ++ toBytes 8 s.time ++ toBytes 4 (s.log.next - 1)

/-- An SPDM request is answered, where it can reach the device (R80). -/
def spdmReply (s : State) (body : List Byte) : State := if mctpFits (1 + s.arg.bytes.length) then s.answer (.spdm body) else s

/-- GETREPORT: the report and a 2,420-byte signature over its SHA3-256 digest; a nonce of another length is answered as an SPDM error. The answer, like GETKEY's of 1,312 bytes, is longer than R80 lets a message be, and how it is then carried the spec does not say: the model's choice is one message (log 40). -/
def getreport (s : State) : State :=
  if ¬ mctpFits (1 + s.arg.bytes.length) then s
  else if s.arg.bytes.length ≠ 32 then s.answer (.spdm (Config.spdmAnswer 0x7F s.arg.bytes))
  else
    let r := s.attestation s.arg.bytes
    s.answer (.spdm (r ++ fit 2420 (Config.sign s.boot.digest (fit 32 (Config.sha3 r)))))

end State

/-! ## Events: a command carries SEQ in a, FLAGS in b, STATUS in c, and its body -/

/-- GETSTAT; a request whose CMD is a reserved value, which the event then carries in e, 256 for 0; with d other than 0, the read of the PLDM sensor of that number; or with 65,536 or more, another PLDM request, d - 65,536 being its type. -/
def execGetstat (s : State) : Host.Outcome State Fault Refusal :=
  .next (if 65536 ≤ s.arg.d then s.pldmRequest (s.arg.d - 65536) else if s.arg.d ≠ 0 then s.pldmRead s.arg.d else if 8 < s.arg.e ∧ s.arg.e ≤ 256 then s.reservedCommand else s.inSequence 1 true State.getstat)

/-- READLOG. -/
def execReadlog (s : State) : Host.Outcome State Fault Refusal := .next (s.inSequence 2 true State.readlog)

/-- PORTSTAT. -/
def execPortstat (s : State) : Host.Outcome State Fault Refusal := .next (s.inSequence 3 s.normal State.portstatCommand)

/-- MAPREAD. -/
def execMapread (s : State) : Host.Outcome State Fault Refusal := .next (s.inSequence 4 s.normal State.mapread)

/-- FLASH. -/
def execFlash (s : State) : Host.Outcome State Fault Refusal := .next (s.inSequence 5 true State.flashCommand)

/-- RESET. -/
def execReset (s : State) : Host.Outcome State Fault Refusal := .next (s.inSequence 6 true State.resetCommand)

/-- SEQSYNC. -/
def execSeqsync (s : State) : Host.Outcome State Fault Refusal := .next s.seqsync

/-- EVACK. -/
def execEvack (s : State) : Host.Outcome State Fault Refusal := .next (s.inSequence 8 true State.evack)

/-- EVENT_RESEND. -/
def execEventResend (s : State) : Host.Outcome State Fault Refusal := .next s.eventResend

/-- GET_VERSION. -/
def execGetVersion (s : State) : Host.Outcome State Fault Refusal := .next (s.spdmReply (Config.spdmAnswer 0x84 s.arg.bytes))

/-- GET_CAPABILITIES. -/
def execGetCapabilities (s : State) : Host.Outcome State Fault Refusal := .next (s.spdmReply (Config.spdmAnswer 0xE1 s.arg.bytes))

/-- NEGOTIATE_ALGORITHMS. -/
def execNegotiateAlgorithms (s : State) : Host.Outcome State Fault Refusal := .next (s.spdmReply (Config.spdmAnswer 0xE3 s.arg.bytes))

/-- GETKEY. -/
def execGetkey (s : State) : Host.Outcome State Fault Refusal := .next (s.spdmReply s.bootKey)

/-- GETREPORT: the event carries the nonce. -/
def execGetreport (s : State) : Host.Outcome State Fault Refusal := .next s.getreport

end Sys2Proof.Machine
end

