-- ==== Sys2Proof/Machine/Fabric.lean ====
section
/-! DEFINITION. The scale-up fabric: flits and replay, retraining and ports, routing and forwarding, requests at the receiving edge, responses, messages, barrier tokens and time samples (R61 to R79, R177, R254). -/

namespace Sys2Proof.Machine

/-- The event that a transaction is, at the package it is addressed to. -/
def eventOf (kind : Nat) : Instr :=
  match kind with
  | 0 => .farRd
  | 1 => .farWr
  | 2 => .amo
  | 4 => .push
  | 5 => .msg
  | 8 => .rsp
  | 9 => .parked
  | 10 => .wake
  | 16 => .bar
  | _ => .sync

namespace State

/-! ## Port states (R64, R78, R79) -/

/-- A link that was up retrains, keeping its replay buffer (R64). -/
def retrain (s : State) (p : Nat) : State := s.setPortState p { s.getPort p with state := 1, naks := 0, kept := true }

/-- Whether a port is in some group. -/
def inGroup (s : State) (p : Nat) : Bool := s.fabric.groups.any (fun g => bits g.2 p p == 1)

/-- Send the replay buffer again (R64); the 4 µs in which ACK must advance run on. REPLAY counts the flits sent again, which is the model's reading of "replays sent" (log 11). -/
def replayAll (s : State) (p : Nat) : State :=
  let q := s.getPort p
  let s := q.replay.foldl (fun s e => s.answer (.link p (flitBytes e.1 q.rxSeq 0 0 (txnBytes e.2)))) s
  s.setPort p { q with replays := q.replays + q.replay.length }

/-- Whether a response is for a request. -/
def isFor (t : Txn) (r : Request) : Bool := r.rid == t.rid && r.acc.core % 16384 == t.score

/-- An engine's push to another package is answered (R393). -/
def pushAnswered (s : State) (u rid code : Nat) : State :=
  match s.engineQueue u with
  | c :: _ =>
    if c.rid ≠ some rid then s
    else if code = 0 then s.setHead u { c.advance (pushSize (c.dest.getD 0) (c.rowLen - c.off)).2 with rid := none, visible := max c.visible s.time }
    else s.engineStop u c (if code = 4 then 1 else if code = 2 ∨ code = 3 then 2 else if code = 10 then 3 else if code = 9 then 5 else if code = 1 then 6 else 12) (c.dest.getD 0) false
  | [] => s

/-- A request is complete with a response code and data: a store's error is reported, a push's answer goes to its engine, a load that had parked gets its value as WAKEV, and any other result goes to the context that waits. After TIMEOUT a response may yet come. -/
def completeRequest (s : State) (r : Request) (code : Nat) (data : List Byte) : State :=
  let s := { s with fabric := { s.fabric with requests := s.fabric.requests.filter (fun x => x != r), late := if code = 5 then s.fabric.late ++ [(r.die, r.rid, r.acc.core % 16384)] else s.fabric.late } }
  let lo := word (ofBytes (data.take 8))
  let hi := word (ofBytes ((data.drop 8).take 8))
  if r.slot = 16 then s.pushAnswered r.acc.core r.rid code
  else if 8 ≤ r.slot then (if code = 0 then s else s.report r.acc.owner 0x46 (word r.acc.va) (word code))
  else match r.key with
  | some k => match s.getInstar k with
    | some i => s.readyImage k { i with wakev := resultOf r.acc lo }
    | none => s
  | none => s.asSlot r.acc.core r.slot fun s =>
    match s.live, s.ctx.wait with
    | true, .remote rid => if rid = r.rid then (if code = 0 then s.deliver r.acc lo hi else s.trapAddr 0x0C (word r.acc.va) (word code)) else s
    | _, _ => s

/-- What has ended a transaction that waited at its port is told to its source: a request with PORTSHARE (R77), a message word by DROPS. -/
def turnedAway (s : State) (t : Txn) (code : Nat) : State :=
  if classOf t.kind = 0 then
    match s.fabric.requests.find? (isFor t) with
    | some r => (s.logTo r.acc.core t.town t.rown t.va sramBase code).completeRequest r code []
    | none => s
  else if t.kind = 5 then
    let n := t.score + wbits t.w3 60 60 * 16384
    let c := s.getCore n
    s.setCore n { c with drops := c.drops.setIfInBounds (wbits t.w3 1 0) (c.drops.toList.getD (wbits t.w3 1 0) 0 + 1) }
  else s

/-- What the hash of R72 takes beside class and package: an address's page and line for a request, SCORE for the others, whose destination is the package alone, which is the model's choice (log 11). -/
def hashKey (t : Txn) : Nat := if classOf t.kind = 0 then t.va / 4096 * 32 + lineIndex (t.va % 4096) else t.score

/-- Whether what waits at a port has to stay there, for another port would lead past what has left before it (R72): a request of this package, behind one that its owner sent to the group and that is not yet answered; a message word, behind one from its send port to its destination that the port has sent and that is not yet acknowledged. -/
def mustStay (s : State) (p : Nat) (t : Txn) : Bool :=
  let here (r : Request) : Bool := s.fabric.ports.any (fun p => p.2.held.any (fun e => classOf e.2.kind == 0 && e.2.spkg == s.pkgNum && isFor e.2 r))
  let group (n : Nat) : Option Nat := SMap.get none s.fabric.routes n
  (s.waysAt t p).2 || classOf t.kind == 0 &&
  match s.fabric.requests.find? (isFor t) with
  | some r => (s.fabric.requests.takeWhile (· != r)).any (fun x => x.acc.owner == r.acc.owner && !x.parked && group x.dpkg == group r.dpkg && !here x)
  | none => false

/-- A transaction that has waited at a port, not yet begun: a request or message of this package under the shares as they stand now (R77), over the ports still in service (R72, R78). One for which no port of its group is left is dropped with neither answer nor entry, its request ending in TIMEOUT, which is the model's choice (log 11). -/
def resend (s : State) (p : Nat) (e : Nat × Txn) : State :=
  let t := e.2
  if (classOf t.kind = 0 ∨ classOf t.kind = 2) ∧ t.spkg = s.pkgNum ∧ t.kind ≠ 17 then
    if s.holdsShare t.rown p = true ∧ inService (s.getPort p) = true then s.emit p e.1 t
    else if s.mustStay p t then s.setPort p { s.getPort p with held := (s.getPort p).held ++ [e] }
    else match s.pickPort t.rown (classOf t.kind) t.dpkg (hashKey t) with
      | some q => s.emit q e.1 t
      | none => if (s.groupPorts t.dpkg).isEmpty then s else s.turnedAway t 7
  else if inService (s.getPort p) then s.emit p e.1 t
  else if t.kind = 17 then s
  else
    let l := s.groupPorts t.dpkg
    match l[Config.portHash (classOf t.kind) t.dpkg (hashKey t) % l.length]? with
    | some q => s.emit q e.1 t
    | none => s

/-! ### The order in which what waits at a port leaves (R76) -/

/-- Where a waiting transaction comes from: an owner of this package, or 65,536 for transit. -/
def sourceOf (s : State) (t : Txn) : Nat := if t.spkg = s.pkgNum then t.rown else 65536

/-- Its weight: an owner's shares of the port, 4 for transit. -/
def weightAt (s : State) (p o : Nat) : Nat := if o = 65536 then 4 else max 1 ((List.range 16).filter (fun i => s.holder 7 (p * 16 + i) == o)).length

/-- Rounds of the weighted round robin: in each, as many transactions of every source as its weight. -/
def rounds (s : State) (p : Nat) : Nat → List (Nat × Txn) → List (Nat × Txn)
  | 0, l => l
  | n + 1, l =>
    let srcs := firsts (l.map (fun e => s.sourceOf e.2))
    let now := srcs.flatMap (fun o => (l.filter (fun e => s.sourceOf e.2 == o)).take (s.weightAt p o))
    let rest := srcs.flatMap (fun o => (l.filter (fun e => s.sourceOf e.2 == o)).drop (s.weightAt p o))
    if rest.isEmpty then now else now ++ rounds s p n rest

/-- Responses and control transactions first, then requests and messages by weight. -/
def leavingOrder (s : State) (p : Nat) (l : List (Nat × Txn)) : List (Nat × Txn) :=
  let weighted (e : Nat × Txn) : Bool := classOf e.2.kind == 0 || classOf e.2.kind == 2
  l.filter (fun e => !weighted e) ++ s.rounds p l.length (l.filter weighted)

/-- What waits at a port leaves, where nothing holds it any longer (R66, R76, R77). -/
def flushHeld (s : State) (p : Nat) : State :=
  let q := s.getPort p
  (s.leavingOrder p q.held).foldl (fun s e => s.resend p e) (s.setPort p { q with held := [] })

/-- A request has been answered: what waited for that at a port may leave (R72). -/
def flushAll (s : State) : State := s.fabric.ports.foldl (fun s p => if p.2.held.isEmpty then s else s.flushHeld p.1) s

/-- A port that goes out of service: its replay buffer is lost, what waited there takes another port, and numbering starts afresh when it comes up again (R78). DOWNS counts this, also where a port that was not up has failed to train, by a retry too: the model's choice (log 11). -/
def portLost (s : State) (p state : Nat) : State :=
  let q := s.getPort p
  let s := s.setPortState p { q with state := state, downs := q.downs + 1, replay := [], held := [], part := [], naks := 0, txSeq := 0, rxSeq := 4095, acked := 4095, stops := [false, false, false, false], kept := false }
  q.held.foldl (fun s e => s.resend p e) s

/-- Training ends, with the mask of good lanes and the measured round trip (R61, R64, R66): up, degraded, in no group, too long, or, with no good lane, not up; a retrain that keeps its replay buffer has 1 ms, and one that ends too long has failed. Where several of the last states apply the spec gives no order: the model's choice is 5, then 4, then 3 (log 11). -/
def trainDone (s : State) (p lanes rtt : Nat) : State :=
  let q := s.getPort p
  if q.state ≠ 1 ∨ lanes % 4 = 0 ∨ (q.kept = true ∧ q.since + 1000000 < s.time) then s
  else
    let st := if 1000 < rtt then 5 else if ¬ s.inGroup p then 4 else if lanes % 4 = 3 then 2 else 3
    if q.kept = true ∧ st = 5 then (s.setPort p { q with lanes := lanes % 4, rtt := rtt }).portLost p 5
    else
      let s := s.setPortState p { q with state := st, lanes := lanes % 4, rtt := rtt, kept := false, ackAt := s.time }
      if st = 2 ∨ st = 3 then (s.replayAll p).flushHeld p else s

/-- PORT_DOWN (R78): the port leaves its groups at once. -/
def portDown (s : State) (p : Nat) : State :=
  if (s.getPort p).state = 0 then s else (s.setPort p { s.getPort p with lanes := 0 }).portLost p 0

/-! ## Receiving flits -/

/-- A flit that is not taken is answered with NAK, in an idle flit. -/
def nak (s : State) (p : Nat) : State := s.answer (.link p (flitBytes (s.getPort p).txSeq (s.getPort p).rxSeq 1 1 []))

/-- ACK, NAK and the stop marks of a good flit (R63, R64). -/
def applyHeader (s : State) (p ack nakBit : Nat) (stops : List Bool) : State :=
  let q := s.getPort p
  let covered (n : Nat) : Bool := decide (0 < (n + 4096 - q.acked) % 4096) && decide ((n + 4096 - q.acked) % 4096 ≤ (ack + 4096 - q.acked) % 4096)
  let moved := decide (ack ≠ q.acked)
  let s := s.setPort p { q with replay := q.replay.filter (fun e => !(covered e.1)), acked := ack, stops := stops,
                                naks := if nakBit = 1 then (if moved then 1 else q.naks + 1) else if moved then 0 else q.naks, ackAt := if moved then s.time else q.ackAt }
  let s := s.flushHeld p
  if nakBit = 1 then s.replayAll p else s

/-- The transactions in a run of slots, each an event; what is left of one that goes on in the next flit is kept; an empty slot is passed over, and a reserved KIND is dropped and logged (R68, R69). -/
def takeSlots (s : State) (p : Nat) : Nat → List Byte → State
  | 0, _ => s
  | n + 1, l =>
    if l.length < 32 then s.setPort p { s.getPort p with part := l }
    else
      let w (i : Nat) : Word := word (ofBytes ((l.drop (8 * i)).take 8))
      if (l.take 32).all (· == 0) then s.takeSlots p n (l.drop 32)
      else match dataSlots (w 0) with
        | none => (s.logEntry 9 5 p (w 0) 1).takeSlots p n (l.drop 32)
        | some k =>
          if l.length < 32 + 32 * k then s.setPort p { s.getPort p with part := l }
          else
            let t : Txn := { w0 := w 0, w1 := w 1, w2 := w 2, w3 := w 3, data := (l.drop 32).take (32 * k) }
            let i : Instr := if t.dpkg = s.pkgNum ∨ t.kind = 17 then eventOf t.kind else .forwardTransaction
            -- a time sample is for the package at the link's end, and its words carry the round trip, the pod's time and the error (log 11)
            let a : Arg := if i = .sync then { Arg.none with a := p, b := wbits (w 1) 31 0, c := wbits (w 3) 31 0, w := w 2 } else { Arg.none with b := p, c := s.time + 1, txn := t }
            (s.postpone i a).takeSlots p n (l.drop (32 + 32 * k))

/-- FLIT_RECEIVE (R62 to R64): FEC, CRC, FKIND, then the header, then in order the slots. The spec does not say what a retrain marker does, nor what a good flit with a gap in SEQ is answered: the model's choice is that the port retrains at once, and NAK (log 11). A flit in which FEC cannot be decoded is answered with NAK as well, without a look at its CRC, which the rule names alone: the model's choice (log 11). -/
def receiveFlit (s : State) (p : Nat) (raw : List Byte) : State :=
  if ¬ portUp (s.getPort p) then s
  else match fecDecode raw with
    | none => s.nak p
    | some (b, fixed) =>
      let s := if fixed then s.setPort p { s.getPort p with feccor := (s.getPort p).feccor + 1 } else s
      let h := ofBytes (b.take 4)
      let kind := bits h 2 0
      let seq := bits h 31 20
      if crc64 (b.take 228) ≠ ofBytes ((b.drop 228).take 8) ∨ 2 < kind then s.nak p
      else
        let s := s.applyHeader p (bits h 19 8) (bits h 7 7) [bits h 6 6 == 1, bits h 5 5 == 1, bits h 4 4 == 1, bits h 3 3 == 1]
        let q := s.getPort p
        if kind = 1 then s
        else if kind = 2 then s.retrain p
        else if seq = (q.rxSeq + 1) % 4096 then
          let s := (s.setPort p { q with rxSeq := seq, part := [] }).takeSlots p 64 (q.part ++ (b.drop 4).take 224)
          s.answer (.link p (flitBytes (s.getPort p).txSeq seq 0 1 []))
        else if (q.rxSeq + 4096 - seq) % 4096 < 2048 then s
        else s.nak p

/-! ## Forwarding (R71) -/

/-- The hash of a transaction over the ports of a group that are up (R72). -/
def transitPort (s : State) (t : Txn) : Option Nat :=
  let l := s.groupPorts t.dpkg
  l[Config.portHash (classOf t.kind) t.dpkg (hashKey t) % l.length]?

/-- When a transaction entered this package: c - 1 of its event, or now for one that the schedule brings. -/
def entered (s : State) (a : Arg) : Nat := if a.c = 0 then s.time else a.c - 1

/-- A transaction for another package goes on, with HOPS one greater, and in TRANSIT the link's delay and the ticks it is held here since it entered (R75); at the hop limit, or with no way on, it is dropped, and a request so dropped is answered. -/
def forward (s : State) (t : Txn) (p since : Nat) : State :=
  let drop (code : Nat) : State := if classOf t.kind = 0 then s.answerTxn t 8 code [] else s.logEntry 9 5 p t.w0 1
  if t.hops = 7 then drop 8
  else match s.transitPort t with
    | none => drop 6
    | some q => s.emitWord q since { t with w0 := word (t.w0.toNat + 2 ^ 56), w1 := word (wbits t.w1 63 32 * 2 ^ 32 + (t.transit + (s.getPort p).delay) % 2 ^ 32) }

/-! ## The receiving edge (R73 to R75) -/

/-- The time check, at the reading with which the transaction entered: passed by a package that is itself out of sync. -/
def inTime (s : State) (t : Txn) (p reading : Nat) : Bool :=
  !s.clock.inSync || (let sent := t.issue + t.transit + (s.getPort p).delay; decide (reading ≤ sent + s.clock.skb) && decide (sent ≤ reading + s.clock.skb))

/-- A request at this package's edge: the time check, once; TOWN; then the access itself. -/
def edgeRequest (s : State) (a : Arg) (kind : Nat) : State :=
  let t := a.txn
  if t.kind ≠ kind then s
  else if t.dpkg ≠ s.pkgNum then s.forward t a.b (s.entered a)
  else if a.a ≠ 144 ∧ ¬ s.inTime t a.b (s.entered a) then s.answerTxn t 8 1 []
  else if ¬ s.isLive t.town ∨ ¬ s.hasGrant t.town 5 then s.answerTxn t 8 2 []
  else s.serve t (a.b / 36 % 4)

/-- MSG (R177): delivered to a port of this package, or dropped and logged here; the address logged is the whole of header word 3, which is the model's choice (log 11). -/
def message (s : State) (a : Arg) : State :=
  let t := a.txn
  let p := a.b
  let kind := wbits t.w3 21 20
  let unit := wbits t.w3 17 4
  let good := (s.isLive t.town && s.hasGrant t.town 5) && (if kind = 0 then s.holder 1 unit == t.town else if kind = 1 then decide (unit < 512) && s.holder 3 unit == t.town else false)
  if t.dpkg ≠ s.pkgNum then s.forward t p (s.entered a)
  else if ¬ s.inTime t p (s.entered a) ∨ ¬ good then s.logEntry 9 5 p t.w3 1
  else
    let w : NetWord := { core := 20000, txport := 3, kind := kind, unit := unit, town := t.town, port := wbits t.w3 1 0, value := word (ofBytes (t.data.take 8)), closing := wbits t.w3 57 57 == 1, spilled := 0 }
    { s with net := s.net ++ [w] }

/-! ## Responses at the source (R70, R73) -/

/-- RSP (R73): a late response is discarded and logged. -/
def response (s : State) (a : Arg) : State :=
  let t := a.txn
  let p := a.b
  if t.dpkg ≠ s.pkgNum then s.forward t p (s.entered a)
  else match s.fabric.requests.find? (isFor t) with
    | some r => (s.completeRequest r t.code t.data).flushAll
    | none => State.logEntry { s with fabric := { s.fabric with late := s.fabric.late.filter (fun l => !(l.2.1 == t.rid && l.2.2 == t.score)) } } 8 5 p (word t.va) (word t.code)

/-- The context whose load has parked elsewhere leaves the ring as a WHY 2 instar (R169, R345), where an instar slot is free and mapped: whether that is done, or must wait. A memory core never parks (R267): its context waits where it is for the WAKE. -/
def leaveParked (s : State) (r : Request) : Bool × State :=
  if isMc r.acc.core then (true, s) else
  let core := s.coreNo
  let slot := s.running
  let s := s.focus r.acc.core r.slot
  let out : Bool × State :=
    match s.live, s.ctx.wait with
    | true, .remote rid =>
      if rid ≠ r.rid then (true, s)
      else match s.findRoom with
        | (.later, s) => (false, s)
        | (.refused va f, s) => (true, s.freezeRefused va f)
        | (.at n, s) =>
          let k : Key := { owner := s.owner, die := s.workDie, slot := n }
          let i := s.mkInstar 2 r.acc.dreg 0xFFFF true (s.ctx.pc + 4)
          let t := s.leave k { i with state := .away r.rid, retryPc := s.ctx.pc, retry := some r.acc }
          (true, { t with fabric := { t.fabric with requests := t.fabric.requests.map (fun x => if x = r then { x with key := some k } else x) } })
    | _, _ => (true, s)
  (out.1, out.2.focus core slot)

/-- PARKED (R70): the timeout ends, the RID stays reserved, and the load's context leaves the ring. One that comes after TIMEOUT was delivered is discarded with no LATE entry, for the spec does not say that it counts as a response: the model's choice (log 14). -/
def parkedNotice (s : State) (a : Arg) : State :=
  let t := a.txn
  if t.dpkg ≠ s.pkgNum then s.forward t a.b (s.entered a)
  else
    let s := State.flushAll { s with fabric := { s.fabric with requests := s.fabric.requests.map (fun r => if isFor t r then { r with parked := true } else r) } }
    match s.fabric.requests.find? (fun r => isFor t r && decide (r.slot < 8) && r.key.isNone) with
    | none => s
    | some r => match s.leaveParked r with
      | (true, s) => s
      | (false, s) => s.postpone .parked a

/-- WAKE (R70): the value goes to the load that parked under the RID. -/
def wakeValue (s : State) (a : Arg) : State :=
  let t := a.txn
  let p := a.b
  if t.dpkg ≠ s.pkgNum then s.forward t p (s.entered a)
  else match s.fabric.requests.find? (fun r => isFor t r && r.parked) with
    | some r => s.completeRequest r 0 t.data
    | none => s.logEntry 8 5 p 0 (word t.code)

/-- FAR_REQUEST_TIMEOUT (R73): the oldest request that has had no response for 10 ms. -/
def requestTimeout (s : State) : State :=
  match s.fabric.requests.find? (fun r => !r.parked && decide (r.issue + 10000000 ≤ s.time)) with
  | some r => (s.completeRequest r 5 []).flushAll
  | none => s

/-! ## Control (R75, R254) -/

/-- BAR: a token counts one arrival at the pod barrier of an owner identifier, with its n. -/
def barToken (s : State) (a : Arg) : State :=
  let t := a.txn
  if t.dpkg ≠ s.pkgNum then s.forward t a.b (s.entered a)
  else
    let n := min t.w2.toNat (barMax 5)
    if n = 0 then s else (s.barArrive 5 t.town 0 n []).2

/-- SYNC: a sample of the pod's time as it was sent on a port's link, with the measured round trip and the error of the estimate: the link's delay, the offset, and at step 4 of bring-up the one setting (R20, R21, R75). -/
def syncSample (s : State) (p rtt err : Nat) (sent : Word) : State :=
  if ¬ portUp (s.getPort p) ∨ s.solo ∨ ¬ s.runs then s
  else
    let s := s.setPort p { s.getPort p with rtt := rtt, delay := rtt / 2 }
    let pod := sent + word (rtt / 2)
    if s.boot.stage = 5 ∧ s.clock.set = false then
      let t := max s.time pod.toNat
      { s with time := t, clock := { s.clock with set := true, offset := word (t - pod.toNat), err := err, lastSync := t } }
    else { s with clock := { s.clock with offset := word s.time - pod, err := err, lastSync := s.time } }

/-- A time sample for the package at the other end of a link (R75): the round trip as last measured, the pod's time as estimated, and the error; the header names package 0, which the receiver does not look at, since the spec gives a SYNC no destination (log 11). -/
def syncTxn (s : State) (p : Nat) : Txn :=
  { w0 := word (17 * 2 ^ 59 + s.pkgNum * 2 ^ 30), w1 := word ((s.getPort p).rtt % 2 ^ 32), w2 := word s.time - s.clock.offset, w3 := word (s.clock.err % 2 ^ 32), data := [] }

/-- SYNC_SEND (R75): a sample leaves on each up link, every 10 µs; held where the control class is stopped (R66). -/
def syncSend (s : State) : State :=
  s.fabric.ports.foldl (fun s e =>
    let q := s.getPort e.1
    if portUp q ∧ q.syncAt + 10000 ≤ s.time then (s.setPort e.1 { q with syncAt := s.time }).emit e.1 s.time (s.syncTxn e.1) else s) s

end State

/-! ## Events -/

/-- FLIT_RECEIVE: the event carries the port and the 256 bytes. -/
def execFlitReceive (s : State) : Host.Outcome State Fault Refusal := .next (s.receiveFlit s.arg.a s.arg.bytes)

/-- NAK_LIMIT_RETRAIN (R64). -/
def execNakLimitRetrain (s : State) : Host.Outcome State Fault Refusal :=
  .next (if State.portUp (s.getPort s.arg.a) ∧ 8 ≤ (s.getPort s.arg.a).naks then s.retrain s.arg.a else s)

/-- ACK_TIMEOUT (R64). -/
def execAckTimeout (s : State) : Host.Outcome State Fault Refusal :=
  .next (let q := s.getPort s.arg.a; if State.portUp q ∧ ¬ q.replay.isEmpty ∧ q.ackAt + 4000 ≤ s.time then s.retrain s.arg.a else s)

/-- RETRAIN_COMPLETE: the event carries the port, the good lanes and the round trip. -/
def execRetrainComplete (s : State) : Host.Outcome State Fault Refusal := .next (s.trainDone s.arg.a s.arg.b s.arg.c)

/-- PORT_DOWN: training has failed, or a retrain has not succeeded within 1 ms (R64, R78). -/
def execPortDown (s : State) : Host.Outcome State Fault Refusal :=
  .next (let q := s.getPort s.arg.a; if q.state = 1 ∧ (q.kept = false ∨ q.since + 1000000 ≤ s.time) then s.portDown s.arg.a else s)

/-- PORT_RETRY (R78): a port that has been down, or too long, for 100 ms trains, and comes up where a lane is good. That a link of STATE 5 counts as a down one is the model's choice (log 11). -/
def execPortRetry (s : State) : Host.Outcome State Fault Refusal :=
  .next (let q := s.getPort s.arg.a
         if (q.state = 0 ∨ q.state = 5) ∧ 5 ≤ s.boot.stage ∧ s.runs ∧ q.since + 100000000 ≤ s.time then
           (s.setPortState s.arg.a { q with state := 1, kept := false }).trainDone s.arg.a s.arg.b s.arg.c
         else s)

/-- RD: the event carries the transaction and the port. -/
def execFarRd (s : State) : Host.Outcome State Fault Refusal := .next (s.edgeRequest s.arg 0)

/-- WR. -/
def execFarWr (s : State) : Host.Outcome State Fault Refusal := .next (s.edgeRequest s.arg 1)

/-- AMO. -/
def execAmo (s : State) : Host.Outcome State Fault Refusal := .next (s.edgeRequest s.arg 2)

/-- PUSH. -/
def execPush (s : State) : Host.Outcome State Fault Refusal := .next (s.edgeRequest s.arg 4)

/-- MSG. -/
def execMsg (s : State) : Host.Outcome State Fault Refusal := .next (s.message s.arg)

/-- RSP. -/
def execRsp (s : State) : Host.Outcome State Fault Refusal := .next (s.response s.arg)

/-- PARKED. -/
def execParked (s : State) : Host.Outcome State Fault Refusal := .next (s.parkedNotice s.arg)

/-- WAKE. -/
def execWake (s : State) : Host.Outcome State Fault Refusal := .next (s.wakeValue s.arg)

/-- BAR. -/
def execBar (s : State) : Host.Outcome State Fault Refusal := .next (s.barToken s.arg)

/-- SYNC: the event carries the port, the round trip, the estimate's error and the pod's time as it was sent. -/
def execSync (s : State) : Host.Outcome State Fault Refusal := .next (s.syncSample s.arg.a s.arg.b s.arg.c s.arg.w)

/-- SYNC_SEND (R75). -/
def execSyncSend (s : State) : Host.Outcome State Fault Refusal :=
  .next s.syncSend

/-- FORWARD_TRANSACTION. -/
def execForwardTransaction (s : State) : Host.Outcome State Fault Refusal :=
  .next (if s.arg.txn.dpkg = s.pkgNum then s else s.forward s.arg.txn s.arg.b (s.entered s.arg))

/-- FAR_REQUEST_TIMEOUT. -/
def execFarRequestTimeout (s : State) : Host.Outcome State Fault Refusal := .next s.requestTimeout

end Sys2Proof.Machine
end

