-- ==== Sys2Proof/Machine/Events.lean ====
section
/-! DEFINITION. The remaining events of memory, messages and the agents beside it: delivery, drains, arrivals, lease ends, dirty-log merges and the watchdog (R177, R201, R203, R225, R236 to R238, R241, R242, R275). -/

namespace Sys2Proof.Machine

namespace State

/-! ## Messages (R177 to R179, R189) -/

/-- The core that a word is for: none where there is no such destination. -/
def wordCore (w : NetWord) : Option Nat := if w.kind = 0 then (if w.unit < 16384 then some w.unit else none) else if w.kind = 1 then (if w.unit < 512 then some (16384 + w.unit) else none) else none

/-- The gang into whose spill area a word for a core goes: one that is stopped there, or one saved from there with nothing placed since. -/
def spillFor (s : State) (w : NetWord) (core : Nat) : Option Nat :=
  match s.flights.list.find? (fun f => f.owner == w.town && s.stopped f && f.groups.any (·.contains core)) with
  | some f => some f.num
  | none =>
    if (s.flightOn core).isSome then none
    else (s.flights.list.find? (fun f => f.owner == w.town && f.state == .saved && f.cocoons.any (fun c => c.2.2.1 == core))).map (·.num)

/-- The running context's waiting read, where words are all that it waits for, is given them as soon as they are all there, in turn with other readers: they leave the queues, and it is ready (R175, R179). -/
def serveReader (s : State) : State :=
  match s.live, s.ctx.wait with
  | true, .port srcs rd _ =>
    if rd < 28 ∧ s.canTake srcs = true then
      let r := srcs.foldl (fun (a : List (Nat × PortWord) × State) x => match a.2.rxOf (x - 28) with
        | w :: _ => (a.1 ++ [(x - 28, w)], (a.2.take x).2)
        | [] => a) (([] : List (Nat × PortWord)), s)
      r.2.await (.took r.1)
    else s
  | _, _ => s

/-- The waiting readers of a core, as a word arrives there. -/
def serveReaders (s : State) (core : Nat) : State :=
  (List.range 4).foldl (fun s k => match s.slotOf core k with
    | .busy c => match c.wait with
      | .port _ _ _ => s.asSlot core k State.serveReader
      | _ => s
    | _ => s) s

/-- One word in the network: delivered, dropped with DROPS and a log entry, spilled, or none where it waits. -/
def deliverWord (s : State) (w : NetWord) : Option State :=
  let gone : State := { s with net := s.net.erase w }
  match wordCore w with
  | none =>
    if w.kind = 2 ∧ w.unit < 2 then some ((gone.txDone w false).pageWord w.core w.txport w.unit w.value)
    else some ((gone.txDone w true).logEntry 9 7 0 (destAddr w.kind w.unit w.port) 1)
  | some n =>
    if s.coreOwner n ≠ w.town then some ((gone.txDone w true).logEntry 9 (if n < 16384 then 0 else 1) (n % 16384) (destAddr w.kind w.unit w.port) 1)
    else match s.spillFor w n with
      | some f => some ({ s with net := s.net.replace w { w with spilled := f, left := true } }.txDone w false)
      | none =>
        let c := s.getCore n
        let q := c.rx.toList.getD w.port []
        if (s.getEntry (entryOfCore n)).scrub ∨ 16 ≤ q.length then none
        else
          let s := gone.txDone w false
          let c := s.getCore n
          some ((s.setCore n { c with rx := c.rx.setIfInBounds w.port (q ++ [{ value := w.value, closing := w.closing }]) }).serveReaders n)

/-- Words from one send port to one destination stay in order. -/
def sameLane (a b : NetWord) : Bool := a.core == b.core && a.txport == b.txport && a.kind == b.kind && a.unit == b.unit && a.port == b.port

/-- The first word that can move; those behind a waiting word of their own lane wait too. -/
def deliverFrom (s : State) : List NetWord → List NetWord → Option State
  | [], _ => none
  | w :: ws, seen =>
    if w.spilled ≠ 0 then s.deliverFrom ws seen
    else if seen.any (sameLane w) then s.deliverFrom ws seen
    else match s.deliverWord w with
      | some t => some t
      | none => s.deliverFrom ws (w :: seen)

/-- MESSAGE_WORD_ARRIVE. -/
def deliverOne (s : State) : State := (s.deliverFrom s.net []).getD s

def deliverAll (s : State) : Nat → State
  | 0 => s
  | n + 1 => match s.deliverFrom s.net [] with
    | some t => t.deliverAll n
    | none => s

/-! ## Draining, leases and translations -/

/-- Entries of the core in view open for 32 cycles drain (R203); one that needs service stops its context at its instruction boundary (R344). -/
def drainOld (s : State) : State :=
  match s.core.combining.find? (fun e => decide (e.opened + 32 ≤ s.cycle)) with
  | none => s
  | some e =>
    match s.drainEntry s.coreNo e with
    | (.ok _, s) => State.dropEntry s (some e)
    | (.error v, s) => s.blockOther e v

/-- LEASE_END: sectors and leases that are over count as absent. -/
def leaseEnds (s : State) : State :=
  let live (c : Core) : Core := if c.l1.any (fun e => decide (e.stop ≤ s.time)) then { c with l1 := c.l1.filter (fun e => decide (s.time < e.stop)) } else c
  { s with core := live s.core, cores := s.cores.map (fun (e : Nat × Core) => (e.1, live e.2)), leases := s.leases.filter (fun l => decide (s.time < l.2.2)) }

/-- TRANSLATION_END on an interface. -/
def translationEnds (s : State) (i : Nat) : State :=
  let f := s.getIface i
  s.setIface i { f with leaf := f.leaf.filter (fun t => decide (s.time < t.stop)), walk := f.walk.filter (fun w => decide (s.time < w.stop)) }

/-! ## Dirty rings (R236 to R238) -/

/-- DIRTY_LOG_MERGE: a log that has reached 2,048 entries. -/
def mergeFull (s : State) (a : Nat) : State :=
  if (agentIfaces a).any (fun i => decide (2048 ≤ (s.getIface i).dirty.length)) then s.merge a none else s

/-- HARVEST_RECALL: for the first store that waits for a HARVEST line, its agent is asked for it. -/
def harvestRecall (s : State) : State :=
  match s.inflight.findSome? (fun f => (s.harvestOf f).map (fun a => (a, f))) with
  | none => s
  | some (a, f) => (s.harvestAsked a f.owner).2

/-! ## The stall watchdog (R275) -/

/-- STALL_WATCHDOG: the first evaluator that has stayed parked on an ECLO cell for 1,000,000 ticks; where the host holds the cell's line it is asked for it first (R50). On a cell of another package none is found, since no transaction says that it is ECLO or unlinks it (log 46). -/
def watchdog (s : State) : State :=
  match s.instars.find? (fun p => wbits p.2.evc 63 63 == 1 && match p.2.state with | .parked c since => s.tagAt c == 3 && decide (since + 1000000 ≤ s.time) | _ => false) with
  | none => s
  | some (k, i) =>
    let va := word ((i.retry.map (·.va)).getD 0)
    match s.cellsWait [i] with
    | (true, s) => s
    | (false, s) =>
      let s := (s.unlink k i).waitsOn i none
      s.postInstar k ((s.getInstar k).getD i) 0x0B va va

end State

/-! ## Events -/

/-- MESSAGE_WORD_ARRIVE. -/
def execMessageWordArrive (s : State) : Host.Outcome State Fault Refusal := .next s.deliverOne

/-- COMBINING_DRAIN: on a core, with the slot to act for; or, from 2^20 up, of the stores that an instar's context left undrained. -/
def execCombiningDrain (s : State) : Host.Outcome State Fault Refusal :=
  .next (if 2 ^ 20 ≤ s.arg.a then s.storesTurn { owner := s.arg.b, die := s.arg.c, slot := s.arg.d } else s.asSlot s.arg.a (s.arg.b % 4) State.drainOld)

/-- STORE_ARRIVE: the event says which of those that may arrive next. -/
def execStoreArrive (s : State) : Host.Outcome State Fault Refusal := .next (s.arriveNth s.arg.a)

/-- STORE_VISIBLE. -/
def execStoreVisible (s : State) : Host.Outcome State Fault Refusal := .next s.settle

/-- LEASE_END. -/
def execLeaseEnd (s : State) : Host.Outcome State Fault Refusal := .next s.leaseEnds

/-- TRANSLATION_END. -/
def execTranslationEnd (s : State) : Host.Outcome State Fault Refusal := .next (s.translationEnds s.arg.a)

/-- DIRTY_LOG_MERGE. -/
def execDirtyLogMerge (s : State) : Host.Outcome State Fault Refusal := .next (s.mergeFull s.arg.a)

/-- HARVEST_RECALL. -/
def execHarvestRecall (s : State) : Host.Outcome State Fault Refusal := .next s.harvestRecall

/-- STALL_WATCHDOG. -/
def execStallWatchdog (s : State) : Host.Outcome State Fault Refusal := .next s.watchdog

end Sys2Proof.Machine
end

