-- ==== Sys2Proof/Machine/Integer.lean ====
section
/-! DEFINITION. The scalar integer instructions (R317 to R322). No one of them sets a flag or traps. -/

namespace Sys2Proof.Machine

/-! ## Results -/

def bool (b : Bool) : Word := if b then 1 else 0

/-- bits(b, 5, 0): the amount of a shift or rotate (R318). -/
def shamt (b : Word) : Nat := b.toNat % 64

/-- DIV (R319). -/
def divS (a b : Word) : Word :=
  if b = 0 then BitVec.allOnes 64
  else if a.toInt = -2 ^ 63 ∧ b.toInt = -1 then a
  else BitVec.ofInt 64 (a.toInt.tdiv b.toInt)

/-- DIVU (R319). -/
def divU (a b : Word) : Word := if b = 0 then BitVec.allOnes 64 else word (a.toNat / b.toNat)

/-- REM (R319). -/
def remS (a b : Word) : Word :=
  if b = 0 then a
  else if a.toInt = -2 ^ 63 ∧ b.toInt = -1 then 0
  else BitVec.ofInt 64 (a.toInt - b.toInt * a.toInt.tdiv b.toInt)

/-- REMU (R319). -/
def remU (a b : Word) : Word := if b = 0 then a else word (a.toNat % b.toNat)

/-- Zero bits above the highest 1; 64 for 0 (R320). -/
def countLeading (a : Word) : Nat := if a = 0 then 64 else 63 - Nat.log2 a.toNat

/-- Zero bits below the lowest 1 (R320). -/
def countTrailing (a : Word) : Nat := ((List.range 64).find? (fun i => a.getLsbD i)).getD 64

/-- 1 bits (R320). -/
def popCount (a : Word) : Nat := ((List.range 64).filter (fun i => a.getLsbD i)).length

/-! ## Register-register (R318, R319) -/

/-- ADD. -/
def execAdd (rd rs1 rs2 : Nat) (s : State) : Host.Outcome State Fault Refusal := .next (s.binary rd rs1 rs2 fun a b => a + b)

/-- SUB. -/
def execSub (rd rs1 rs2 : Nat) (s : State) : Host.Outcome State Fault Refusal := .next (s.binary rd rs1 rs2 fun a b => a - b)

/-- SLL. -/
def execSll (rd rs1 rs2 : Nat) (s : State) : Host.Outcome State Fault Refusal := .next (s.binary rd rs1 rs2 fun a b => a <<< shamt b)

/-- SLT. -/
def execSlt (rd rs1 rs2 : Nat) (s : State) : Host.Outcome State Fault Refusal := .next (s.binary rd rs1 rs2 fun a b => bool (a.slt b))

/-- SLTU. -/
def execSltu (rd rs1 rs2 : Nat) (s : State) : Host.Outcome State Fault Refusal := .next (s.binary rd rs1 rs2 fun a b => bool (a.ult b))

/-- XOR. -/
def execXor (rd rs1 rs2 : Nat) (s : State) : Host.Outcome State Fault Refusal := .next (s.binary rd rs1 rs2 fun a b => a ^^^ b)

/-- SRL. -/
def execSrl (rd rs1 rs2 : Nat) (s : State) : Host.Outcome State Fault Refusal := .next (s.binary rd rs1 rs2 fun a b => a >>> shamt b)

/-- SRA. -/
def execSra (rd rs1 rs2 : Nat) (s : State) : Host.Outcome State Fault Refusal := .next (s.binary rd rs1 rs2 fun a b => a.sshiftRight (shamt b))

/-- OR. -/
def execOr (rd rs1 rs2 : Nat) (s : State) : Host.Outcome State Fault Refusal := .next (s.binary rd rs1 rs2 fun a b => a ||| b)

/-- AND. -/
def execAnd (rd rs1 rs2 : Nat) (s : State) : Host.Outcome State Fault Refusal := .next (s.binary rd rs1 rs2 fun a b => a &&& b)

/-- MUL. -/
def execMul (rd rs1 rs2 : Nat) (s : State) : Host.Outcome State Fault Refusal := .next (s.binary rd rs1 rs2 fun a b => a * b)

/-- MULH. -/
def execMulh (rd rs1 rs2 : Nat) (s : State) : Host.Outcome State Fault Refusal := .next (s.binary rd rs1 rs2 fun a b => BitVec.ofInt 64 (a.toInt * b.toInt / 2 ^ 64))

/-- MULHU. -/
def execMulhu (rd rs1 rs2 : Nat) (s : State) : Host.Outcome State Fault Refusal := .next (s.binary rd rs1 rs2 fun a b => word (a.toNat * b.toNat / 2 ^ 64))

/-- DIV. -/
def execDiv (rd rs1 rs2 : Nat) (s : State) : Host.Outcome State Fault Refusal := .next (s.binary rd rs1 rs2 fun a b => divS a b)

/-- DIVU. -/
def execDivu (rd rs1 rs2 : Nat) (s : State) : Host.Outcome State Fault Refusal := .next (s.binary rd rs1 rs2 fun a b => divU a b)

/-- REM. -/
def execRem (rd rs1 rs2 : Nat) (s : State) : Host.Outcome State Fault Refusal := .next (s.binary rd rs1 rs2 fun a b => remS a b)

/-- REMU. -/
def execRemu (rd rs1 rs2 : Nat) (s : State) : Host.Outcome State Fault Refusal := .next (s.binary rd rs1 rs2 fun a b => remU a b)

/-- MIN. -/
def execMin (rd rs1 rs2 : Nat) (s : State) : Host.Outcome State Fault Refusal := .next (s.binary rd rs1 rs2 fun a b => if a.sle b then a else b)

/-- MINU. -/
def execMinu (rd rs1 rs2 : Nat) (s : State) : Host.Outcome State Fault Refusal := .next (s.binary rd rs1 rs2 fun a b => if a.ule b then a else b)

/-- MAX. -/
def execMax (rd rs1 rs2 : Nat) (s : State) : Host.Outcome State Fault Refusal := .next (s.binary rd rs1 rs2 fun a b => if a.sle b then b else a)

/-- MAXU. -/
def execMaxu (rd rs1 rs2 : Nat) (s : State) : Host.Outcome State Fault Refusal := .next (s.binary rd rs1 rs2 fun a b => if a.ule b then b else a)

/-- ROTL. -/
def execRotl (rd rs1 rs2 : Nat) (s : State) : Host.Outcome State Fault Refusal := .next (s.binary rd rs1 rs2 fun a b => a.rotateLeft (shamt b))

/-- ROTR. -/
def execRotr (rd rs1 rs2 : Nat) (s : State) : Host.Outcome State Fault Refusal := .next (s.binary rd rs1 rs2 fun a b => a.rotateRight (shamt b))

/-! ## Unary (R320) -/

/-- CLZ. -/
def execClz (rd rs1 : Nat) (s : State) : Host.Outcome State Fault Refusal := .next (s.unary rd rs1 fun a => word (countLeading a))

/-- CTZ. -/
def execCtz (rd rs1 : Nat) (s : State) : Host.Outcome State Fault Refusal := .next (s.unary rd rs1 fun a => word (countTrailing a))

/-- POPC. -/
def execPopc (rd rs1 : Nat) (s : State) : Host.Outcome State Fault Refusal := .next (s.unary rd rs1 fun a => word (popCount a))

/-- SEXTW. -/
def execSextw (rd rs1 : Nat) (s : State) : Host.Outcome State Fault Refusal := .next (s.unary rd rs1 fun a => sext a 32)

/-- ZEXTW. -/
def execZextw (rd rs1 : Nat) (s : State) : Host.Outcome State Fault Refusal := .next (s.unary rd rs1 fun a => zext a 32)

/-! ## Immediate (R321) -/

/-- ADDI. -/
def execAddi (rd rs1 imm : Nat) (s : State) : Host.Outcome State Fault Refusal := .next (s.unary rd rs1 fun a => a + imm12 imm)

/-- SLTI. -/
def execSlti (rd rs1 imm : Nat) (s : State) : Host.Outcome State Fault Refusal := .next (s.unary rd rs1 fun a => bool (a.slt (imm12 imm)))

/-- SLTIU. -/
def execSltiu (rd rs1 imm : Nat) (s : State) : Host.Outcome State Fault Refusal := .next (s.unary rd rs1 fun a => bool (a.ult (imm12 imm)))

/-- XORI. -/
def execXori (rd rs1 imm : Nat) (s : State) : Host.Outcome State Fault Refusal := .next (s.unary rd rs1 fun a => a ^^^ imm12 imm)

/-- ORI. -/
def execOri (rd rs1 imm : Nat) (s : State) : Host.Outcome State Fault Refusal := .next (s.unary rd rs1 fun a => a ||| imm12 imm)

/-- ANDI. -/
def execAndi (rd rs1 imm : Nat) (s : State) : Host.Outcome State Fault Refusal := .next (s.unary rd rs1 fun a => a &&& imm12 imm)

/-- SLLI. -/
def execSlli (rd rs1 amt : Nat) (s : State) : Host.Outcome State Fault Refusal := .next (s.unary rd rs1 fun a => a <<< (amt % 64))

/-- SRLI. -/
def execSrli (rd rs1 amt : Nat) (s : State) : Host.Outcome State Fault Refusal := .next (s.unary rd rs1 fun a => a >>> (amt % 64))

/-- SRAI. -/
def execSrai (rd rs1 amt : Nat) (s : State) : Host.Outcome State Fault Refusal := .next (s.unary rd rs1 fun a => a.sshiftRight (amt % 64))

/-! ## Upper immediates (R322) -/

/-- The upper immediate: imm20 × 2^12, sign-extended from 32 bits. -/
def upper (imm : Nat) : Word := sext (word (imm * 4096)) 32

/-- LUI. -/
def execLui (rd imm : Nat) (s : State) : Host.Outcome State Fault Refusal := .next (s.result rd fun _ => upper imm)

/-- AUIPC: modulo 2^57. -/
def execAuipc (rd imm : Nat) (s : State) : Host.Outcome State Fault Refusal := .next (s.result rd fun s => zext (s.pcWord + upper imm) 57)

end Sys2Proof.Machine
end

