-- ==== Sys2Proof/Machine/Float.lean ====
section
/-! DEFINITION. The scalar floating-point instructions (R323 to R329): rounding by f3 or DRND, no saturation, flags accrued, no traps. -/

namespace Sys2Proof.Machine

/-- FADD (R325). -/
def execFadd (w rd rs1 rs2 rm : Nat) (s : State) : Host.Outcome State Fault Refusal :=
  .next (s.fpBinary w rd rs1 rs2 ((State.widthFmt w).add (s.scalarRnd rm) false))

/-- FSUB (R325). -/
def execFsub (w rd rs1 rs2 rm : Nat) (s : State) : Host.Outcome State Fault Refusal :=
  .next (s.fpBinary w rd rs1 rs2 ((State.widthFmt w).sub (s.scalarRnd rm) false))

/-- FMUL (R325). -/
def execFmul (w rd rs1 rs2 rm : Nat) (s : State) : Host.Outcome State Fault Refusal :=
  .next (s.fpBinary w rd rs1 rs2 ((State.widthFmt w).mul (s.scalarRnd rm) false))

/-- FDIV (R325). -/
def execFdiv (w rd rs1 rs2 rm : Nat) (s : State) : Host.Outcome State Fault Refusal :=
  .next (s.fpBinary w rd rs1 rs2 ((State.widthFmt w).div (s.scalarRnd rm) false))

/-- FSQRT (R325). -/
def execFsqrt (w rd rs1 rm : Nat) (s : State) : Host.Outcome State Fault Refusal :=
  .next (s.fpUnary rd rs1 fun a => (State.widthFmt w).sqrt (s.scalarRnd rm) false (State.widthArg w a))

/-- FMADD (R325): the old value of rd is the third source, x0 reading as +0. -/
def execFmadd (w rd rs1 rs2 rm : Nat) (s : State) : Host.Outcome State Fault Refusal :=
  .next (s.fpBinary w rd rs1 rs2 fun a b => (State.widthFmt w).fma (s.scalarRnd rm) false a b (State.widthArg w (s.rx rd)))

/-- FMIN (R326). -/
def execFmin (w rd rs1 rs2 : Nat) (s : State) : Host.Outcome State Fault Refusal :=
  .next (s.fpBinary w rd rs1 rs2 ((State.widthFmt w).minmax false false))

/-- FMAX (R326). -/
def execFmax (w rd rs1 rs2 : Nat) (s : State) : Host.Outcome State Fault Refusal :=
  .next (s.fpBinary w rd rs1 rs2 ((State.widthFmt w).minmax true false))

/-- FCMP (R327): predicate 0 EQ, 1 LT, 2 LE. -/
def execFcmp (w rd rs1 rs2 pred : Nat) (s : State) : Host.Outcome State Fault Refusal :=
  .next (s.fpBinary w rd rs1 rs2 fun a b =>
    let r := (State.widthFmt w).compare pred a b
    (bit r.1, r.2))

/-- The other width's format. -/
def otherFmt (w : Nat) : Fmt := if w = 0 then fp64 else fp32

/-- The operand of the other width. -/
def otherArg (w : Nat) (a : Word) : Nat := if w = 0 then a.toNat else a.toNat % 2 ^ 32

/-- FCVT's conversions by code (R328): 32-bit integer results are extended to 64 bits, the signed by their sign. -/
def fcvtResult (w code rm : Nat) (a : Word) : Nat × Flags :=
  let f := State.widthFmt w
  let int (lo hi : Int) : Nat × Flags :=
    let r := convToInt f rm lo hi (State.widthArg w a)
    ((BitVec.ofInt 64 r.1).toNat, r.2)
  match code with
  | 0 => convFloat (otherFmt w) f rm false (otherArg w a)
  | 1 => convFromInt f rm false (sext a 32).toInt
  | 2 => convFromInt f rm false (zext a 32).toInt
  | 3 => convFromInt f rm false a.toInt
  | 4 => convFromInt f rm false a.toNat
  | 8 => int (-2 ^ 31) (2 ^ 31 - 1)
  | 9 => int 0 (2 ^ 32 - 1)
  | 10 => int (-2 ^ 63) (2 ^ 63 - 1)
  | _ => int 0 (2 ^ 64 - 1)

/-- FCVT (R328). -/
def execFcvt (w rd rs1 code rm : Nat) (s : State) : Host.Outcome State Fault Refusal :=
  .next (s.fpUnary rd rs1 (fcvtResult w code (s.scalarRnd rm)))

/-- FCLASS (R329): no flag. -/
def execFclass (w rd rs1 : Nat) (s : State) : Host.Outcome State Fault Refusal :=
  .next (s.unary rd rs1 fun a => word (2 ^ (State.widthFmt w).classify (State.widthArg w a)))

end Sys2Proof.Machine
end

