-- ==== Sys2Proof/Machine/Mask.lean ====
section
/-! DEFINITION. The mask instructions (R371, R372). -/

namespace Sys2Proof.Machine

namespace State

/-- A branch on a mask (R372): off counts words. -/
def maskBranch (s : State) (off : Nat) (taken : Bool) : State :=
  if taken then s.setPc (s.ctx.pc + BitVec.ofNat 57 (sext (word (4 * off)) 13).toNat) else s.next

end State

/-- MAND. -/
def execMand (md ma mb : Nat) (s : State) : Host.Outcome State Fault Refusal := .next ((s.wm md (s.mreg ma &&& s.mreg mb)).next)

/-- MOR. -/
def execMor (md ma mb : Nat) (s : State) : Host.Outcome State Fault Refusal := .next ((s.wm md (s.mreg ma ||| s.mreg mb)).next)

/-- MXOR. -/
def execMxor (md ma mb : Nat) (s : State) : Host.Outcome State Fault Refusal := .next ((s.wm md (s.mreg ma ^^^ s.mreg mb)).next)

/-- MNOT; rs2 is not read. -/
def execMnot (md ma _rs2 : Nat) (s : State) : Host.Outcome State Fault Refusal := .next ((s.wm md (~~~ s.mreg ma)).next)

/-- MPOP. -/
def execMpop (rd ma _rs2 : Nat) (s : State) : Host.Outcome State Fault Refusal := .next (s.result rd fun s => word ((List.range 16).filter (fun i => (s.mreg ma).getLsbD i)).length)

/-- MFIRST. -/
def execMfirst (rd ma _rs2 : Nat) (s : State) : Host.Outcome State Fault Refusal := .next (s.result rd fun s => word (((List.range 16).find? (fun i => (s.mreg ma).getLsbD i)).getD 16))

/-- MSET. -/
def execMset (md rs1 _rs2 : Nat) (s : State) : Host.Outcome State Fault Refusal := .next (s.withPorts [rs1] 0 fun s =>
    let a := s.take rs1
    (a.2.wm md (a.1.setWidth 16)).next)

/-- MGET. -/
def execMget (rd ma _rs2 : Nat) (s : State) : Host.Outcome State Fault Refusal := .next (s.result rd fun s => (s.mreg ma).setWidth 64)

/-- BMANY. -/
def execBmany (ma off : Nat) (s : State) : Host.Outcome State Fault Refusal := .next (s.maskBranch off (s.mreg ma != 0))

/-- BMNONE. -/
def execBmnone (ma off : Nat) (s : State) : Host.Outcome State Fault Refusal := .next (s.maskBranch off (s.mreg ma == 0))

end Sys2Proof.Machine
end

