-- ==== Sys2Proof/Machine/Memcore.lean ====
section
/-! DEFINITION. The memory-core instructions (R392 to R396): each is a command of the memory core's engine, and the program waits for its result word. -/

namespace Sys2Proof.Machine

namespace State

/-- A memory-core instruction: the command is made and the program waits; once it has ended, and every write of it is visible, its result word goes to rd. One that is refused before it begins, with PARAM, RANGE or PROT, is stopped as well: it has its result at once, and COPYSTOP is posted with ADDR its destination, 0 where that could not be read, which is the model's choice (R390, R393; log 27). -/
def memcore (s : State) (rd : Nat) (make : State → Except (Word × Nat) CopyCmd) : State :=
  match s.core.copyq with
  | c :: _ =>
    match c.res with
    | some r => if c.visible ≤ s.time ∧ s.arrived.all (fun a => a.core != engineCore s.coreNo) then ((s.dropHead s.coreNo).wx rd r).next else s.await (.again 0)
    | none => s.await (.again 0)
  | [] =>
    match make s with
    | .error (r, a) => ((s.report s.owner 0x48 (word a) r).wx rd r).next
    | .ok c =>
      s.drained fun s =>
        let c := { c with ring := s.running, home := s.coreNo, owner := s.owner, flight := s.ctx.flight }
        State.await { s with core := { s.core with copyq := [c] } } (.again 0)

/-- MPUSH's operands (R393): PARAM, PROT, or its command. -/
def pushCmd (s : State) (rdst rsrc rlen kind : Nat) : Except (Word × Nat) CopyCmd :=
  let n := wbits (s.rx rlen) 31 0
  let t := s.rx rlen
  let dst := s.rx rdst
  let src := (s.rx rsrc).toNat
  let far := wbits t 63 63 = 1 ∧ wbits t 60 48 ≠ s.pkgNum
  if n < 4 ∨ 262144 < n ∨ n % 4 ≠ 0 ∨ dst.toNat % 4 ≠ 0 ∨ src % 4 ≠ 0 ∨ 0x40000 < src + n ∨ wbits t 62 61 ≠ 0 ∨
      (wbits t 63 63 = 0 ∧ wbits t 60 32 ≠ 0) ∨ (far ∧ ¬ s.hasGrant s.owner 5) then .error (resultWord 10 0, va57 dst)
  else if wbits t 63 63 = 1 ∧ ¬ far ∧ wbits t 47 32 ≠ 0 ∧ wbits t 47 32 ≠ s.owner then .error (resultWord 2 0, va57 dst)
  else .ok { CopyCmd.blank with kind := 1, dst := va57 dst, src := src, rowb := n, add := kind, target := if far then some (wbits t 60 48, wbits t 47 32) else none }

/-- A 32-bit word of the core's local SRAM. -/
def local32 (s : State) (a : Nat) : Nat := s.natAt (sramKey s.coreNo a) 4

/-- MGATH's and MPOOL's descriptor (R394): PARAM, RANGE, or the command. -/
def descriptor (s : State) (a : Word) (pool : Bool) (add : Nat) : Except (Word × Nat) CopyCmd :=
  let b := a.toNat
  if b % 64 ≠ 0 ∨ 0x40000 < b + 64 then .error (resultWord 10 0, 0)
  else
    let w (i : Nat) : Word := s.wordAt (sramKey s.coreNo (b + 8 * i))
    let count := wbits (w 2) 63 48
    let rowb := wbits (w 2) 31 0
    let stride := wbits (w 3) 47 0
    let wen := wbits (w 4) 63 63 = 1
    let ix := wbits (w 4) 17 0
    let wt := wbits (w 5) 17 0
    let dstride := wbits (w 6) 31 0
    let sfmt := wbits (w 7) 3 0
    let table := (w 0).toNat
    let dst := (w 1).toNat
    let reserved := wbits (w 0) 63 57 ≠ 0 ∨ wbits (w 1) 63 57 ≠ 0 ∨ wbits (w 2) 47 32 ≠ 0 ∨ wbits (w 3) 63 48 ≠ 0 ∨ wbits (w 4) 62 18 ≠ 0 ∨ wbits (w 5) 63 18 ≠ 0 ∨ wbits (w 7) 63 4 ≠ 0
    let limits := table % 4 ≠ 0 ∨ dst % 4 ≠ 0 ∨ count = 0 ∨ rowb < 4 ∨ 16384 < rowb ∨ rowb % 4 ≠ 0 ∨ stride % 4 ≠ 0 ∨ ix % 4 ≠ 0 ∨ wbits (w 6) 63 32 = 0 ∨ 0x40000 < ix + 4 * count
    let own := if pool then dstride ≠ 0 ∨ 2 < sfmt ∨ rowb % poolWidth sfmt ≠ 0 ∨ (¬ wen ∧ wt ≠ 0) ∨ (wen ∧ (wt % 4 ≠ 0 ∨ 0x40000 < wt + 4 * count))
      else wen ∨ wt ≠ 0 ∨ sfmt ≠ 0 ∨ dstride % 4 ≠ 0
    if reserved ∨ limits ∨ own then .error (resultWord 10 0, va57 (w 1))
    else
      let index := (List.range count).map (fun i => s.local32 (ix + 4 * i))
      if index.any (fun i => decide (wbits (w 6) 63 32 ≤ i)) then .error (resultWord 9 0, va57 (w 1))
      else .ok { CopyCmd.blank with
        kind := if pool then 3 else 2, dst := dst, src := table, rows := count, rowb := rowb, dstride := dstride, sstride := stride, add := add, index := index,
        weights := if wen then (List.range count).map (fun i => s.local32 (wt + 4 * i)) else [], sfmt := sfmt,
        sums := if pool then List.replicate (rowb / poolWidth sfmt) 0 else [] }

end State

/-- MPUSH. -/
def execMpush (rd rdst rsrc rlen kind : Nat) (s : State) : Host.Outcome State Fault Refusal :=
  .next (s.memcore rd fun s => s.pushCmd rdst rsrc rlen kind)

/-- MGATH. -/
def execMgath (rd rs1 : Nat) (s : State) : Host.Outcome State Fault Refusal :=
  .next (s.memcore rd fun s => s.descriptor (s.rx rs1) false 0)

/-- MPOOL. -/
def execMpool (rd rs1 af : Nat) (s : State) : Host.Outcome State Fault Refusal :=
  .next (s.memcore rd fun s => s.descriptor (s.rx rs1) true af)

end Sys2Proof.Machine
end

