-- ==== Sys2Proof/Machine/Dispatch.lean ====
section
/-! DEFINITION. Which meaning each instruction and event has: one arm a constructor. -/

namespace Sys2Proof.Machine

def exec (i : Instr) (s : State) : Host.Outcome State Fault Refusal :=
  match i with
  | .give rd rs1 rs2 rs3 => Sys2Proof.Machine.execGive rd rs1 rs2 rs3 s
  | .accept rd rs1 => Sys2Proof.Machine.execAccept rd rs1 s
  | .lend rd rs1 rs2 rs3 => Sys2Proof.Machine.execLend rd rs1 rs2 rs3 s
  | .returnLoan rd rs1 => Sys2Proof.Machine.execReturnLoan rd rs1 s
  | .reclaim rd rs1 => Sys2Proof.Machine.execReclaim rd rs1 s
  | .ownq rd rs1 rs2 rs3 => Sys2Proof.Machine.execOwnq rd rs1 rs2 rs3 s
  | .salvage rd rs1 => Sys2Proof.Machine.execSalvage rd rs1 s
  | .pulse rd => Sys2Proof.Machine.execPulse rd s
  | .add rd rs1 rs2 => Sys2Proof.Machine.execAdd rd rs1 rs2 s
  | .sub rd rs1 rs2 => Sys2Proof.Machine.execSub rd rs1 rs2 s
  | .sll rd rs1 rs2 => Sys2Proof.Machine.execSll rd rs1 rs2 s
  | .slt rd rs1 rs2 => Sys2Proof.Machine.execSlt rd rs1 rs2 s
  | .sltu rd rs1 rs2 => Sys2Proof.Machine.execSltu rd rs1 rs2 s
  | .xor rd rs1 rs2 => Sys2Proof.Machine.execXor rd rs1 rs2 s
  | .srl rd rs1 rs2 => Sys2Proof.Machine.execSrl rd rs1 rs2 s
  | .sra rd rs1 rs2 => Sys2Proof.Machine.execSra rd rs1 rs2 s
  | .or rd rs1 rs2 => Sys2Proof.Machine.execOr rd rs1 rs2 s
  | .and rd rs1 rs2 => Sys2Proof.Machine.execAnd rd rs1 rs2 s
  | .mul rd rs1 rs2 => Sys2Proof.Machine.execMul rd rs1 rs2 s
  | .mulh rd rs1 rs2 => Sys2Proof.Machine.execMulh rd rs1 rs2 s
  | .mulhu rd rs1 rs2 => Sys2Proof.Machine.execMulhu rd rs1 rs2 s
  | .div rd rs1 rs2 => Sys2Proof.Machine.execDiv rd rs1 rs2 s
  | .divu rd rs1 rs2 => Sys2Proof.Machine.execDivu rd rs1 rs2 s
  | .rem rd rs1 rs2 => Sys2Proof.Machine.execRem rd rs1 rs2 s
  | .remu rd rs1 rs2 => Sys2Proof.Machine.execRemu rd rs1 rs2 s
  | .min rd rs1 rs2 => Sys2Proof.Machine.execMin rd rs1 rs2 s
  | .minu rd rs1 rs2 => Sys2Proof.Machine.execMinu rd rs1 rs2 s
  | .max rd rs1 rs2 => Sys2Proof.Machine.execMax rd rs1 rs2 s
  | .maxu rd rs1 rs2 => Sys2Proof.Machine.execMaxu rd rs1 rs2 s
  | .rotl rd rs1 rs2 => Sys2Proof.Machine.execRotl rd rs1 rs2 s
  | .rotr rd rs1 rs2 => Sys2Proof.Machine.execRotr rd rs1 rs2 s
  | .clz rd rs1 => Sys2Proof.Machine.execClz rd rs1 s
  | .ctz rd rs1 => Sys2Proof.Machine.execCtz rd rs1 s
  | .popc rd rs1 => Sys2Proof.Machine.execPopc rd rs1 s
  | .sextw rd rs1 => Sys2Proof.Machine.execSextw rd rs1 s
  | .zextw rd rs1 => Sys2Proof.Machine.execZextw rd rs1 s
  | .addi rd rs1 imm => Sys2Proof.Machine.execAddi rd rs1 imm s
  | .slti rd rs1 imm => Sys2Proof.Machine.execSlti rd rs1 imm s
  | .sltiu rd rs1 imm => Sys2Proof.Machine.execSltiu rd rs1 imm s
  | .xori rd rs1 imm => Sys2Proof.Machine.execXori rd rs1 imm s
  | .ori rd rs1 imm => Sys2Proof.Machine.execOri rd rs1 imm s
  | .andi rd rs1 imm => Sys2Proof.Machine.execAndi rd rs1 imm s
  | .slli rd rs1 amt => Sys2Proof.Machine.execSlli rd rs1 amt s
  | .srli rd rs1 amt => Sys2Proof.Machine.execSrli rd rs1 amt s
  | .srai rd rs1 amt => Sys2Proof.Machine.execSrai rd rs1 amt s
  | .lui rd imm => Sys2Proof.Machine.execLui rd imm s
  | .auipc rd imm => Sys2Proof.Machine.execAuipc rd imm s
  | .fadd w rd rs1 rs2 rm => Sys2Proof.Machine.execFadd w rd rs1 rs2 rm s
  | .fsub w rd rs1 rs2 rm => Sys2Proof.Machine.execFsub w rd rs1 rs2 rm s
  | .fmul w rd rs1 rs2 rm => Sys2Proof.Machine.execFmul w rd rs1 rs2 rm s
  | .fdiv w rd rs1 rs2 rm => Sys2Proof.Machine.execFdiv w rd rs1 rs2 rm s
  | .fsqrt w rd rs1 rm => Sys2Proof.Machine.execFsqrt w rd rs1 rm s
  | .fmadd w rd rs1 rs2 rm => Sys2Proof.Machine.execFmadd w rd rs1 rs2 rm s
  | .fmin w rd rs1 rs2 => Sys2Proof.Machine.execFmin w rd rs1 rs2 s
  | .fmax w rd rs1 rs2 => Sys2Proof.Machine.execFmax w rd rs1 rs2 s
  | .fcmp w rd rs1 rs2 pred => Sys2Proof.Machine.execFcmp w rd rs1 rs2 pred s
  | .fcvt w rd rs1 code rm => Sys2Proof.Machine.execFcvt w rd rs1 code rm s
  | .fclass w rd rs1 => Sys2Proof.Machine.execFclass w rd rs1 s
  | .beq rs1 rs2 off => Sys2Proof.Machine.execBeq rs1 rs2 off s
  | .bne rs1 rs2 off => Sys2Proof.Machine.execBne rs1 rs2 off s
  | .blt rs1 rs2 off => Sys2Proof.Machine.execBlt rs1 rs2 off s
  | .bge rs1 rs2 off => Sys2Proof.Machine.execBge rs1 rs2 off s
  | .bltu rs1 rs2 off => Sys2Proof.Machine.execBltu rs1 rs2 off s
  | .bgeu rs1 rs2 off => Sys2Proof.Machine.execBgeu rs1 rs2 off s
  | .jal rd off => Sys2Proof.Machine.execJal rd off s
  | .jt rs1 imm => Sys2Proof.Machine.execJt rs1 imm s
  | .callt rd rs1 imm => Sys2Proof.Machine.execCallt rd rs1 imm s
  | .ret => Sys2Proof.Machine.execRet s
  | .lpad label => Sys2Proof.Machine.execLpad label s
  | .fmt byte => Sys2Proof.Machine.execFmt byte s
  | .lb rd rs1 imm => Sys2Proof.Machine.execLb rd rs1 imm s
  | .lh rd rs1 imm => Sys2Proof.Machine.execLh rd rs1 imm s
  | .lw rd rs1 imm => Sys2Proof.Machine.execLw rd rs1 imm s
  | .ld rd rs1 imm => Sys2Proof.Machine.execLd rd rs1 imm s
  | .lbu rd rs1 imm => Sys2Proof.Machine.execLbu rd rs1 imm s
  | .lhu rd rs1 imm => Sys2Proof.Machine.execLhu rd rs1 imm s
  | .lwu rd rs1 imm => Sys2Proof.Machine.execLwu rd rs1 imm s
  | .sb rs2 rs1 imm => Sys2Proof.Machine.execSb rs2 rs1 imm s
  | .sh rs2 rs1 imm => Sys2Proof.Machine.execSh rs2 rs1 imm s
  | .sw rs2 rs1 imm => Sys2Proof.Machine.execSw rs2 rs1 imm s
  | .sd rs2 rs1 imm => Sys2Proof.Machine.execSd rs2 rs1 imm s
  | .fldB rd rs1 imm => Sys2Proof.Machine.execFldB rd rs1 imm s
  | .fldH rd rs1 imm => Sys2Proof.Machine.execFldH rd rs1 imm s
  | .fldW rd rs1 imm => Sys2Proof.Machine.execFldW rd rs1 imm s
  | .fldD rd rs1 imm => Sys2Proof.Machine.execFldD rd rs1 imm s
  | .fldQ rd rs1 imm => Sys2Proof.Machine.execFldQ rd rs1 imm s
  | .fldP w rd rs1 rt => Sys2Proof.Machine.execFldP w rd rs1 rt s
  | .fpf rs1 imm => Sys2Proof.Machine.execFpf rs1 imm s
  | .fstB rs2 rs1 imm => Sys2Proof.Machine.execFstB rs2 rs1 imm s
  | .fstH rs2 rs1 imm => Sys2Proof.Machine.execFstH rs2 rs1 imm s
  | .fstW rs2 rs1 imm => Sys2Proof.Machine.execFstW rs2 rs1 imm s
  | .fstD rs2 rs1 imm => Sys2Proof.Machine.execFstD rs2 rs1 imm s
  | .fstQ rs2 rs1 imm => Sys2Proof.Machine.execFstQ rs2 rs1 imm s
  | .fstP w rs2 rs1 rt => Sys2Proof.Machine.execFstP w rs2 rs1 rt s
  | .amoadd rd rs1 rs2 ord pf scope => Sys2Proof.Machine.execAmoadd rd rs1 rs2 ord pf scope s
  | .amoswap rd rs1 rs2 ord pf scope => Sys2Proof.Machine.execAmoswap rd rs1 rs2 ord pf scope s
  | .amocas rd rs1 rs2 ord pf scope => Sys2Proof.Machine.execAmocas rd rs1 rs2 ord pf scope s
  | .amomin rd rs1 rs2 ord pf scope => Sys2Proof.Machine.execAmomin rd rs1 rs2 ord pf scope s
  | .amomax rd rs1 rs2 ord pf scope => Sys2Proof.Machine.execAmomax rd rs1 rs2 ord pf scope s
  | .amominu rd rs1 rs2 ord pf scope => Sys2Proof.Machine.execAmominu rd rs1 rs2 ord pf scope s
  | .amomaxu rd rs1 rs2 ord pf scope => Sys2Proof.Machine.execAmomaxu rd rs1 rs2 ord pf scope s
  | .amoand rd rs1 rs2 ord pf scope => Sys2Proof.Machine.execAmoand rd rs1 rs2 ord pf scope s
  | .amoor rd rs1 rs2 ord pf scope => Sys2Proof.Machine.execAmoor rd rs1 rs2 ord pf scope s
  | .amoxor rd rs1 rs2 ord pf scope => Sys2Proof.Machine.execAmoxor rd rs1 rs2 ord pf scope s
  | .amofadd rd rs1 rs2 ord pf scope => Sys2Proof.Machine.execAmofadd rd rs1 rs2 ord pf scope s
  | .fenceAcq scope => Sys2Proof.Machine.execFenceAcq scope s
  | .fenceRel scope => Sys2Proof.Machine.execFenceRel scope s
  | .fenceAr scope => Sys2Proof.Machine.execFenceAr scope s
  | .barInstruction scope rs1 => Sys2Proof.Machine.execBarInstruction scope rs1 s
  | .cmk rd rs1 rs2 => Sys2Proof.Machine.execCmk rd rs1 rs2 s
  | .cempty rd rs1 rs2 => Sys2Proof.Machine.execCempty rd rs1 rs2 s
  | .cfill rd rs1 rs2 => Sys2Proof.Machine.execCfill rd rs1 rs2 s
  | .ctag rd rs1 rs2 => Sys2Proof.Machine.execCtag rd rs1 rs2 s
  | .crevert rd rs1 rs2 => Sys2Proof.Machine.execCrevert rd rs1 rs2 s
  | .vld vd ra me mk => Sys2Proof.Machine.execVld vd ra me mk s
  | .vst vd ra me mk => Sys2Proof.Machine.execVst vd ra me mk s
  | .vlds vd ra vb me mk => Sys2Proof.Machine.execVlds vd ra vb me mk s
  | .vsts vd ra vb me mk => Sys2Proof.Machine.execVsts vd ra vb me mk s
  | .vldx vd ra vb me mk => Sys2Proof.Machine.execVldx vd ra vb me mk s
  | .vstx vd ra vb me mk => Sys2Proof.Machine.execVstx vd ra vb me mk s
  | .vand vd va vb me mk => Sys2Proof.Machine.execVand vd va vb me mk s
  | .vor vd va vb me mk => Sys2Proof.Machine.execVor vd va vb me mk s
  | .vxor vd va vb me mk => Sys2Proof.Machine.execVxor vd va vb me mk s
  | .vsll vd va vb me mk => Sys2Proof.Machine.execVsll vd va vb me mk s
  | .vsrl vd va vb me mk => Sys2Proof.Machine.execVsrl vd va vb me mk s
  | .vsra vd va vb me mk => Sys2Proof.Machine.execVsra vd va vb me mk s
  | .vsel vd va vb me mk => Sys2Proof.Machine.execVsel vd va vb me mk s
  | .vshuf vd va vb me mk => Sys2Proof.Machine.execVshuf vd va vb me mk s
  | .vslide vd va vb me mk => Sys2Proof.Machine.execVslide vd va vb me mk s
  | .vbcast vd rs me mk => Sys2Proof.Machine.execVbcast vd rs me mk s
  | .vext rd va lane => Sys2Proof.Machine.execVext rd va lane s
  | .vins vd rs lane => Sys2Proof.Machine.execVins vd rs lane s
  | .vcvt vd va src part me mk => Sys2Proof.Machine.execVcvt vd va src part me mk s
  | .vadd vd va vb me mk => Sys2Proof.Machine.execVadd vd va vb me mk s
  | .vsub vd va vb me mk => Sys2Proof.Machine.execVsub vd va vb me mk s
  | .vmul vd va vb me mk => Sys2Proof.Machine.execVmul vd va vb me mk s
  | .vmadd vd va vb me mk => Sys2Proof.Machine.execVmadd vd va vb me mk s
  | .vnmsub vd va vb me mk => Sys2Proof.Machine.execVnmsub vd va vb me mk s
  | .vmin vd va vb me mk => Sys2Proof.Machine.execVmin vd va vb me mk s
  | .vmax vd va vb me mk => Sys2Proof.Machine.execVmax vd va vb me mk s
  | .vabs vd va me mk => Sys2Proof.Machine.execVabs vd va me mk s
  | .vdiv vd va vb me mk => Sys2Proof.Machine.execVdiv vd va vb me mk s
  | .vsqrt vd va me mk => Sys2Proof.Machine.execVsqrt vd va me mk s
  | .vexp2 vd va me mk => Sys2Proof.Machine.execVexp2 vd va me mk s
  | .vrcp vd va me mk => Sys2Proof.Machine.execVrcp vd va me mk s
  | .vrsqrt vd va me mk => Sys2Proof.Machine.execVrsqrt vd va me mk s
  | .vcmpEq md va vb me mk => Sys2Proof.Machine.execVcmpEq md va vb me mk s
  | .vcmpNe md va vb me mk => Sys2Proof.Machine.execVcmpNe md va vb me mk s
  | .vcmpLt md va vb me mk => Sys2Proof.Machine.execVcmpLt md va vb me mk s
  | .vcmpLe md va vb me mk => Sys2Proof.Machine.execVcmpLe md va vb me mk s
  | .vcmpGt md va vb me mk => Sys2Proof.Machine.execVcmpGt md va vb me mk s
  | .vcmpGe md va vb me mk => Sys2Proof.Machine.execVcmpGe md va vb me mk s
  | .vredSum vd va me mk => Sys2Proof.Machine.execVredSum vd va me mk s
  | .vredMax vd va me mk => Sys2Proof.Machine.execVredMax vd va me mk s
  | .vredMin vd va me mk => Sys2Proof.Machine.execVredMin vd va me mk s
  | .mand md ma mb => Sys2Proof.Machine.execMand md ma mb s
  | .mor md ma mb => Sys2Proof.Machine.execMor md ma mb s
  | .mxor md ma mb => Sys2Proof.Machine.execMxor md ma mb s
  | .mnot md ma rs2 => Sys2Proof.Machine.execMnot md ma rs2 s
  | .mpop rd ma rs2 => Sys2Proof.Machine.execMpop rd ma rs2 s
  | .mfirst rd ma rs2 => Sys2Proof.Machine.execMfirst rd ma rs2 s
  | .mset md rs1 rs2 => Sys2Proof.Machine.execMset md rs1 rs2 s
  | .mget rd ma rs2 => Sys2Proof.Machine.execMget rd ma rs2 s
  | .bmany ma off => Sys2Proof.Machine.execBmany ma off s
  | .bmnone ma off => Sys2Proof.Machine.execBmnone ma off s
  | .mclaim rd sa cnt => Sys2Proof.Machine.execMclaim rd sa cnt s
  | .mrel sa cnt => Sys2Proof.Machine.execMrel sa cnt s
  | .mload sa ra => Sys2Proof.Machine.execMload sa ra s
  | .mldw sa ra => Sys2Proof.Machine.execMldw sa ra s
  | .mmul ac sa slb => Sys2Proof.Machine.execMmul ac sa slb s
  | .mzero ac => Sys2Proof.Machine.execMzero ac s
  | .mstore ac ra => Sys2Proof.Machine.execMstore ac ra s
  | .mstat rd sel => Sys2Proof.Machine.execMstat rd sel s
  | .cpy rc rdst rsrc rlen tags => Sys2Proof.Machine.execCpy rc rdst rsrc rlen tags s
  | .cpys rc rdst rsrc rshape tags => Sys2Proof.Machine.execCpys rc rdst rsrc rshape tags s
  | .cpyw rd rs1 => Sys2Proof.Machine.execCpyw rd rs1 s
  | .cstat rd => Sys2Proof.Machine.execCstat rd s
  | .mpush rd rdst rsrc rlen kind => Sys2Proof.Machine.execMpush rd rdst rsrc rlen kind s
  | .mgath rd rs1 => Sys2Proof.Machine.execMgath rd rs1 s
  | .mpool rd rs1 af => Sys2Proof.Machine.execMpool rd rs1 af s
  | .spawn rd rs1 rs2 => Sys2Proof.Machine.execSpawn rd rs1 rs2 s
  | .susp rd rs1 rs2 => Sys2Proof.Machine.execSusp rd rs1 rs2 s
  | .yield => Sys2Proof.Machine.execYield s
  | .done rs1 => Sys2Proof.Machine.execDone rs1 s
  | .msend rs1 rs2 => Sys2Proof.Machine.execMsend rs1 rs2 s
  | .msendc rs1 => Sys2Proof.Machine.execMsendc rs1 s
  | .mwait rd rs1 rs2 => Sys2Proof.Machine.execMwait rd rs1 rs2 s
  | .mpeek rd rs1 => Sys2Proof.Machine.execMpeek rd rs1 s
  | .trap rs1 imm => Sys2Proof.Machine.execTrap rs1 imm s
  | .bkpt => Sys2Proof.Machine.execBkpt s
  | .gets rd sreg => Sys2Proof.Machine.execGets rd sreg s
  | .sets rs1 sreg => Sys2Proof.Machine.execSets rs1 sreg s
  | .time rd => Sys2Proof.Machine.execTime rd s
  | .halt => Sys2Proof.Machine.execHalt s
  | .illop word => Sys2Proof.Machine.execIllop word s
  | .coldReset => Sys2Proof.Machine.execColdReset s
  | .bootctlWrite => Sys2Proof.Machine.execBootctlWrite s
  | .deviceReady => Sys2Proof.Machine.execDeviceReady s
  | .thermalTrip => Sys2Proof.Machine.execThermalTrip s
  | .coolantWarning => Sys2Proof.Machine.execCoolantWarning s
  | .inputUndervoltage => Sys2Proof.Machine.execInputUndervoltage s
  | .throttleRaise => Sys2Proof.Machine.execThrottleRaise s
  | .throttleLower => Sys2Proof.Machine.execThrottleLower s
  | .gatingSequence => Sys2Proof.Machine.execGatingSequence s
  | .unitMarkedGated => Sys2Proof.Machine.execUnitMarkedGated s
  | .wakeRequest => Sys2Proof.Machine.execWakeRequest s
  | .syncLoss => Sys2Proof.Machine.execSyncLoss s
  | .syncRegained => Sys2Proof.Machine.execSyncRegained s
  | .cxlServiceLoss => Sys2Proof.Machine.execCxlServiceLoss s
  | .cxlServiceRestore => Sys2Proof.Machine.execCxlServiceRestore s
  | .hdmDecoderCommit => Sys2Proof.Machine.execHdmDecoderCommit s
  | .hostSnoop => Sys2Proof.Machine.execHostSnoop s
  | .snoopEngineTimeout => Sys2Proof.Machine.execSnoopEngineTimeout s
  | .hostHbmWrite => Sys2Proof.Machine.execHostHbmWrite s
  | .hostHbmRead => Sys2Proof.Machine.execHostHbmRead s
  | .birspReceive => Sys2Proof.Machine.execBirspReceive s
  | .atsInvalidate => Sys2Proof.Machine.execAtsInvalidate s
  | .atsDeny => Sys2Proof.Machine.execAtsDeny s
  | .pageRequestWord => Sys2Proof.Machine.execPageRequestWord s
  | .pageGroupResponse => Sys2Proof.Machine.execPageGroupResponse s
  | .tbaseLatchingRead => Sys2Proof.Machine.execTbaseLatchingRead s
  | .kick => Sys2Proof.Machine.execKick s
  | .resume => Sys2Proof.Machine.execResume s
  | .queueEnable => Sys2Proof.Machine.execQueueEnable s
  | .queueDisable => Sys2Proof.Machine.execQueueDisable s
  | .poolWindowEnable => Sys2Proof.Machine.execPoolWindowEnable s
  | .poolWindowDisable => Sys2Proof.Machine.execPoolWindowDisable s
  | .mailboxErase => Sys2Proof.Machine.execMailboxErase s
  | .mailboxWrite => Sys2Proof.Machine.execMailboxWrite s
  | .mailboxCommit => Sys2Proof.Machine.execMailboxCommit s
  | .flashCommandDone => Sys2Proof.Machine.execFlashCommandDone s
  | .registerWrite => Sys2Proof.Machine.execRegisterWrite s
  | .getstat => Sys2Proof.Machine.execGetstat s
  | .readlog => Sys2Proof.Machine.execReadlog s
  | .portstat => Sys2Proof.Machine.execPortstat s
  | .mapread => Sys2Proof.Machine.execMapread s
  | .flash => Sys2Proof.Machine.execFlash s
  | .reset => Sys2Proof.Machine.execReset s
  | .seqsync => Sys2Proof.Machine.execSeqsync s
  | .evack => Sys2Proof.Machine.execEvack s
  | .eventResend => Sys2Proof.Machine.execEventResend s
  | .getVersion => Sys2Proof.Machine.execGetVersion s
  | .getCapabilities => Sys2Proof.Machine.execGetCapabilities s
  | .negotiateAlgorithms => Sys2Proof.Machine.execNegotiateAlgorithms s
  | .getkey => Sys2Proof.Machine.execGetkey s
  | .getreport => Sys2Proof.Machine.execGetreport s
  | .flitReceive => Sys2Proof.Machine.execFlitReceive s
  | .nakLimitRetrain => Sys2Proof.Machine.execNakLimitRetrain s
  | .ackTimeout => Sys2Proof.Machine.execAckTimeout s
  | .retrainComplete => Sys2Proof.Machine.execRetrainComplete s
  | .portDown => Sys2Proof.Machine.execPortDown s
  | .portRetry => Sys2Proof.Machine.execPortRetry s
  | .farRd => Sys2Proof.Machine.execFarRd s
  | .farWr => Sys2Proof.Machine.execFarWr s
  | .amo => Sys2Proof.Machine.execAmo s
  | .push => Sys2Proof.Machine.execPush s
  | .msg => Sys2Proof.Machine.execMsg s
  | .rsp => Sys2Proof.Machine.execRsp s
  | .parked => Sys2Proof.Machine.execParked s
  | .wake => Sys2Proof.Machine.execWake s
  | .bar => Sys2Proof.Machine.execBar s
  | .sync => Sys2Proof.Machine.execSync s
  | .syncSend => Sys2Proof.Machine.execSyncSend s
  | .forwardTransaction => Sys2Proof.Machine.execForwardTransaction s
  | .farRequestTimeout => Sys2Proof.Machine.execFarRequestTimeout s
  | .ownerSilence => Sys2Proof.Machine.execOwnerSilence s
  | .acceptedTransfer => Sys2Proof.Machine.execAcceptedTransfer s
  | .returnTransfer => Sys2Proof.Machine.execReturnTransfer s
  | .scrubComplete => Sys2Proof.Machine.execScrubComplete s
  | .packetFetch => Sys2Proof.Machine.execPacketFetch s
  | .packetReread => Sys2Proof.Machine.execPacketReread s
  | .nop => Sys2Proof.Machine.execNop s
  | .launch => Sys2Proof.Machine.execLaunch s
  | .waitAll => Sys2Proof.Machine.execWaitAll s
  | .waitAny => Sys2Proof.Machine.execWaitAny s
  | .waitPass => Sys2Proof.Machine.execWaitPass s
  | .waitTimeout => Sys2Proof.Machine.execWaitTimeout s
  | .signal => Sys2Proof.Machine.execSignal s
  | .copy => Sys2Proof.Machine.execCopy s
  | .seal => Sys2Proof.Machine.execSeal s
  | .unseal => Sys2Proof.Machine.execUnseal s
  | .sealExtentChange => Sys2Proof.Machine.execSealExtentChange s
  | .own => Sys2Proof.Machine.execOwn s
  | .fencePacket => Sys2Proof.Machine.execFencePacket s
  | .packetComplete => Sys2Proof.Machine.execPacketComplete s
  | .queueMadeResident => Sys2Proof.Machine.execQueueMadeResident s
  | .queueEviction => Sys2Proof.Machine.execQueueEviction s
  | .placementPass => Sys2Proof.Machine.execPlacementPass s
  | .flightEnd => Sys2Proof.Machine.execFlightEnd s
  | .yieldDeadline => Sys2Proof.Machine.execYieldDeadline s
  | .gangSwitch => Sys2Proof.Machine.execGangSwitch s
  | .gangSaved => Sys2Proof.Machine.execGangSaved s
  | .slotDraw => Sys2Proof.Machine.execSlotDraw s
  | .steal => Sys2Proof.Machine.execSteal s
  | .taskStart => Sys2Proof.Machine.execTaskStart s
  | .instarResume => Sys2Proof.Machine.execInstarResume s
  | .messageWordArrive => Sys2Proof.Machine.execMessageWordArrive s
  | .reply => Sys2Proof.Machine.execReply s
  | .combiningDrain => Sys2Proof.Machine.execCombiningDrain s
  | .storeArrive => Sys2Proof.Machine.execStoreArrive s
  | .storeVisible => Sys2Proof.Machine.execStoreVisible s
  | .farResponse => Sys2Proof.Machine.execFarResponse s
  | .leaseEnd => Sys2Proof.Machine.execLeaseEnd s
  | .translationEnd => Sys2Proof.Machine.execTranslationEnd s
  | .copyLeaseRenewal => Sys2Proof.Machine.execCopyLeaseRenewal s
  | .refreshWindowEnd => Sys2Proof.Machine.execRefreshWindowEnd s
  | .dirtyLogMerge => Sys2Proof.Machine.execDirtyLogMerge s
  | .harvestRecall => Sys2Proof.Machine.execHarvestRecall s
  | .stallWatchdog => Sys2Proof.Machine.execStallWatchdog s
  | .engineCommandComplete => Sys2Proof.Machine.execEngineCommandComplete s
  | .matrixCommandStart => Sys2Proof.Machine.execMatrixCommandStart s
  | .matrixCommandComplete => Sys2Proof.Machine.execMatrixCommandComplete s
  | .mwaitTimeout => Sys2Proof.Machine.execMwaitTimeout s
  | .violatingRead => Sys2Proof.Machine.execViolatingRead s
  | .configSpaceWrite => Sys2Proof.Machine.execConfigSpaceWrite s
  | .cxlLinkRetrain => Sys2Proof.Machine.execCxlLinkRetrain s
  | .softError => Sys2Proof.Machine.execSoftError s
  | .powerLoss => Sys2Proof.Machine.execPowerLoss s
  | .splitChangeComplete => Sys2Proof.Machine.execSplitChangeComplete s
  | .accessAtPointOfSerialisation => Sys2Proof.Machine.execAccessAtPointOfSerialisation s
  | .ownershipOperationAtHome => Sys2Proof.Machine.execOwnershipOperationAtHome s
  | .instructionFetchFailure => Sys2Proof.Machine.execInstructionFetchFailure s

end Sys2Proof.Machine
end

