-- ==== Sys2Proof/Machine/Agents.lean ====
section
/-! DEFINITION. What happens around the instruction of a step: time, arrivals, which context runs next (R19, R168, R169, R203, R241). -/

namespace Sys2Proof.Machine

namespace State

/-- Time passes (log 5): the cycle count advances, and the time base one tick every pace cycles while it counts. -/
def elapse (s : State) (ticks : Nat) : State := State.settle { s with time := if s.clock.on then s.time + ticks else s.time }

/-- One cycle. -/
def tickTime (s : State) : State :=
  let s := { s with cycle := s.cycle + 1 }
  if s.pace ≤ 1 ∨ s.cycle % s.pace = 0 then s.elapse 1 else s

/-! ## The agents' turn -/

/-- The cores, the one in view first, of which something holds. -/
def coresWith (s : State) (f : Core → Bool) : List Nat :=
  (if f s.core then [s.coreNo] else []) ++ (s.cores.filter (fun e => e.1 != s.coreNo && f e.2)).map (·.1)

/-- Old combining entries drain (R203), one of each core. -/
def drains (s : State) : State :=
  (s.coresWith (fun c => c.combining.any (fun e => decide (e.opened + 32 ≤ s.cycle)))).foldl (fun s n => if n = s.coreNo then s.drainOld else s.asSlot n 0 State.drainOld) s

/-- Reclaimed cores, transfers, returns, scrubs and silences (R133, R135, R137, R141, R418): a silence is told once its due time is past, so that a PULSE of the same tick prevents it. -/
def ownershipTurn (s : State) : State :=
  let s := s.leaveAll
  let s := (s.entries.filter (fun e => e.2.scrub)).foldl (fun s e => s.scrubDone e.1) s
  let s := (s.entries.filter (fun e => e.2.acc)).foldl (fun s e => s.acceptedTransfer e.1) s
  let s := s.returning.foldl (fun s r => s.returnTransfer r.1) s
  let now := s.time
  let s := State.silences { s with time := now - 1 } 0
  { s with time := now }

/-- Deadlines that have passed, before anything else happens in the tick (R155). -/
def deadlinesTurn (s : State) : State := (s.flights.list.filter (·.state == .placed)).foldl (fun s f => s.yieldDeadline f.num) s

/-- The loader's turn (R148 to R156): flights that end, passes due, and gangs. -/
def flightsTurn (s : State) : State :=
  let s := s.flights.list.foldl (fun s f => if placedNow f then s.endFlight f.num else s) s
  let s := s.flights.passes.foldl (fun s o => s.placementPass o) s
  let s := s.flights.list.foldl (fun s f => if f.state = .switching then s.gangSaved f.num else s) s
  (s.coresWith (fun c => c.splitChange.isSome)).foldl (fun s n => s.splitComplete n) s

/-- An empty slot draws or steals; a drawn item starts or is read in. -/
def slotTurn (s : State) (n k : Nat) : State :=
  let s := (s.draw n k).steal n k
  match s.slotOf n k with
  | .drawn (.task _ _ _ _) _ => s.asSlot n k State.taskStart
  | .drawn (.instar _ _ _) _ => s.asSlot n k State.instarResume
  | _ => s

/-- The slots of the cores of placed flights (R167). -/
def slotsTurn (s : State) : State :=
  (s.flights.list.filter (fun f => placedNow f && !(s.stopped f))).foldl (fun s f => f.groups.flatten.foldl (fun s n => (List.range 4).foldl (fun s k => s.slotTurn n k) s) s) s

/-- Message words, held ring items, records still to write, stores left undrained, held trap entries, dirty logs, and what has a time limit (R73, R161, R177, R184, R236, R238, R275). -/
def servicesTurn (s : State) : State :=
  let s := s.deliverAll s.net.length
  let s := (s.rings.filter (fun r => decide (r.1 < 2 ^ 24) && r.2.any (·.spot.isNone))).foldl (fun s r => s.ringTurn r.1) s
  let s := (s.unwritten.foldl (fun s e => s.imageTurn e) s).fillTurn
  let s := (s.instars.filter (fun p => !p.2.stores.isEmpty)).foldl (fun s p => s.storesTurn p.1) s
  let s := (s.owners.filter (fun o => !o.2.held.isEmpty)).foldl (fun s o => s.postHeld o.1) s
  let s := if s.ifaces.any (fun i => decide (1024 ≤ i.2.dirty.length)) then (List.range 20).foldl (fun s a => s.mergeFull a) s else s
  let s := if s.harvest.isEmpty then s else s.harvestRecall
  let s := if s.instars.isEmpty then s else s.watchdog
  let s := if s.side.events.isEmpty ∨ s.clock.on = false then s else s.eventResend
  s.requestTimeout.syncSend.syncRegained.syncLoss

/-- Every agent takes one turn. -/
def agents (s : State) : State := s.deadlinesTurn.queuesTurn.engines.ownershipTurn.flightsTurn.slotsTurn.servicesTurn

/-- The context that ran last has stopped being ready, so that it no longer goes ahead of the ring order when it is ready again (R168). -/
def markTurn (s : State) : State := if s.core.stays ∧ ¬ (s.live ∧ s.ctx.wait = .ready) then { s with core := { s.core with stays := false } } else s

/-- What every step does first; with async set, the agents act only where the schedule says so. -/
def tick (s : State) : State :=
  let s := s.markTurn.tickTime.releaseLines
  let s := { s with picks := s.picks.tail }
  if s.async then s else s.drains.arriveNext.agents

/-! ## The resident ring (R168, R169) -/

/-- Whether the condition of the waiting context of a slot holds, so that its instruction goes on. -/
def Wait.holds (s : State) (k : Nat) : Wait → Bool
  | .ready => true
  | .port l rd t => decide (rd < 28) && (List.range 4).all (fun p => decide (portNeed l p ≤ (s.rxOf p).length)) && !(s.readerBefore k (portMask l) t)
  | .took _ => true
  | .mwait m d => (List.range 4).any (fun p => bits m p p == 1 && !(s.rxOf p).isEmpty) || (match d with | some t => decide (t ≤ s.time) | none => false)
  | .barDone => true
  | .lanes _ => true
  | _ => false

/-- Whether a context executes its instruction again to see whether it can go on. -/
def Wait.polls : Wait → Bool
  | .again _ => true
  | .port _ rd _ => decide (28 ≤ rd)
  | _ => false

/-- The slots in ring order after the last one that ran. -/
def ringOrder (s : State) : List Nat := (List.range 4).map (fun i => (s.core.last + 1 + i) % 4)

/-- The context of a slot of the core in view; none for one whose gang has stopped, or whose core has been taken from it, unless it still has to finish what it has issued (R188, R189, R418). -/
def resident (s : State) (k : Nat) : Option Ctx :=
  let c := if k = s.running ∧ s.live then some s.ctx
    else match s.core.slots.toList.getD k (.empty 0) with
      | .busy c => if k = s.running then none else some c
      | _ => none
  match c with
  | some c => if (s.ctxStopped s.owner c.flight ∨ s.coreLeaves s.coreNo) ∧ finishes c.wait = false then none else some c
  | none => none

/-- Bring a slot of a core to run. -/
def switchTo (s : State) (n k : Nat) : State :=
  let s := if n = s.coreNo ∧ k = s.running then s else s.focus n k
  { s with core := { s.core with last := k, stays := true } }

/-- A slot whose context goes on, or has left, no longer has a work-area access that was refused (R161). -/
def settled (s : State) (n k : Nat) : State :=
  let waits : Bool := match s.slotOf n k with | .busy x => decide (x.wait ≠ .ready) | _ => false
  if waits = true ∨ s.denied.contains (n * 4 + k) = false then s else { s with denied := s.denied.filter (· != n * 4 + k) }

/-- After a context of a slot of a core has run: where its instruction only looked in vain whether it can go on, the ring stands as before (R168), and the slot is noted; else nothing is noted any more, and readers that waited behind it get their words (R175). s is the state before the slot was brought to run. -/
def turnEnd (s : State) (n k : Nat) (t : State) : State :=
  let c := s.getCore n
  let polled := match s.slotOf n k with | .busy x => Wait.polls x.wait | _ => false
  if polled = true ∧ t.live = true ∧ t.coreNo = n ∧ t.running = k ∧ Wait.polls t.ctx.wait = true then
    { t with core := { t.core with last := c.last, stays := c.stays, polled := k :: (if c.polled.contains k then [] else c.polled) } }
  else State.serveReaders (State.settled (if t.coreNo = n ∧ t.core.polled ≠ [] then { t with core := { t.core with polled := [] } } else t) n k) n

/-- The instructions whose context waits for a response or a status (R169): atomics, cell operations, FPF and ownership instructions. -/
def waitsForHome : Instr → Bool
  | .amoadd _ _ _ _ _ _ => true
  | .amoswap _ _ _ _ _ _ => true
  | .amocas _ _ _ _ _ _ => true
  | .amomin _ _ _ _ _ _ => true
  | .amomax _ _ _ _ _ _ => true
  | .amominu _ _ _ _ _ _ => true
  | .amomaxu _ _ _ _ _ _ => true
  | .amoand _ _ _ _ _ _ => true
  | .amoor _ _ _ _ _ _ => true
  | .amoxor _ _ _ _ _ _ => true
  | .amofadd _ _ _ _ _ _ => true
  | .cmk _ _ _ => true
  | .cempty _ _ _ => true
  | .cfill _ _ _ => true
  | .ctag _ _ _ => true
  | .crevert _ _ _ => true
  | .fpf _ _ => true
  | .give _ _ _ _ => true
  | .accept _ _ => true
  | .lend _ _ _ _ => true
  | .returnLoan _ _ => true
  | .reclaim _ _ => true
  | .ownq _ _ _ _ => true
  | .salvage _ _ => true
  | .pulse _ => true
  | _ => false

def isFpf : Instr → Bool
  | .fpf _ _ => true
  | _ => false

/-- Such a context has waited, so that it goes on when its turn comes again in ring order, also where the answer came within the step (R168, R169); an FPF that fills no line keeps running (R346). -/
def afterHome (s : State) (i : Instr) (t : State) : State :=
  if waitsForHome i ∧ t.core.stays ∧ ¬ (isFpf i = true ∧ t.leases = s.leases) then { t with core := { t.core with stays := false } } else t

/-- The scalar registers that an instruction reads and writes, of those that may issue while far loads are outstanding (R247, R337): further far loads, scalar integer and floating-point, vector-register, mask and conditional-branch instructions; none for every other. -/
def passRegs : Instr → Option (List Nat)
  | .add rd a b => some [rd, a, b]
  | .sub rd a b => some [rd, a, b]
  | .sll rd a b => some [rd, a, b]
  | .slt rd a b => some [rd, a, b]
  | .sltu rd a b => some [rd, a, b]
  | .xor rd a b => some [rd, a, b]
  | .srl rd a b => some [rd, a, b]
  | .sra rd a b => some [rd, a, b]
  | .or rd a b => some [rd, a, b]
  | .and rd a b => some [rd, a, b]
  | .mul rd a b => some [rd, a, b]
  | .mulh rd a b => some [rd, a, b]
  | .mulhu rd a b => some [rd, a, b]
  | .div rd a b => some [rd, a, b]
  | .divu rd a b => some [rd, a, b]
  | .rem rd a b => some [rd, a, b]
  | .remu rd a b => some [rd, a, b]
  | .min rd a b => some [rd, a, b]
  | .minu rd a b => some [rd, a, b]
  | .max rd a b => some [rd, a, b]
  | .maxu rd a b => some [rd, a, b]
  | .rotl rd a b => some [rd, a, b]
  | .rotr rd a b => some [rd, a, b]
  | .clz rd a => some [rd, a]
  | .ctz rd a => some [rd, a]
  | .popc rd a => some [rd, a]
  | .sextw rd a => some [rd, a]
  | .zextw rd a => some [rd, a]
  | .addi rd a _ => some [rd, a]
  | .slti rd a _ => some [rd, a]
  | .sltiu rd a _ => some [rd, a]
  | .xori rd a _ => some [rd, a]
  | .ori rd a _ => some [rd, a]
  | .andi rd a _ => some [rd, a]
  | .slli rd a _ => some [rd, a]
  | .srli rd a _ => some [rd, a]
  | .srai rd a _ => some [rd, a]
  | .lui rd _ => some [rd]
  | .auipc rd _ => some [rd]
  | .fadd _ rd a b _ => some [rd, a, b]
  | .fsub _ rd a b _ => some [rd, a, b]
  | .fmul _ rd a b _ => some [rd, a, b]
  | .fdiv _ rd a b _ => some [rd, a, b]
  | .fmadd _ rd a b _ => some [rd, a, b]
  | .fsqrt _ rd a _ => some [rd, a]
  | .fmin _ rd a b => some [rd, a, b]
  | .fmax _ rd a b => some [rd, a, b]
  | .fcmp _ rd a b _ => some [rd, a, b]
  | .fcvt _ rd a _ _ => some [rd, a]
  | .fclass _ rd a => some [rd, a]
  | .beq a b _ => some [a, b]
  | .bne a b _ => some [a, b]
  | .blt a b _ => some [a, b]
  | .bge a b _ => some [a, b]
  | .bltu a b _ => some [a, b]
  | .bgeu a b _ => some [a, b]
  | .fldB rd a _ => some [rd, a]
  | .fldH rd a _ => some [rd, a]
  | .fldW rd a _ => some [rd, a]
  | .fldD rd a _ => some [rd, a]
  | .fldQ rd a _ => some [rd, rd + 1, a]
  | .vand _ _ _ _ _ => some []
  | .vor _ _ _ _ _ => some []
  | .vxor _ _ _ _ _ => some []
  | .vsll _ _ _ _ _ => some []
  | .vsrl _ _ _ _ _ => some []
  | .vsra _ _ _ _ _ => some []
  | .vsel _ _ _ _ _ => some []
  | .vshuf _ _ _ _ _ => some []
  | .vslide _ _ _ _ _ => some []
  | .vadd _ _ _ _ _ => some []
  | .vsub _ _ _ _ _ => some []
  | .vmul _ _ _ _ _ => some []
  | .vmadd _ _ _ _ _ => some []
  | .vnmsub _ _ _ _ _ => some []
  | .vmin _ _ _ _ _ => some []
  | .vmax _ _ _ _ _ => some []
  | .vdiv _ _ _ _ _ => some []
  | .vcmpEq _ _ _ _ _ => some []
  | .vcmpNe _ _ _ _ _ => some []
  | .vcmpLt _ _ _ _ _ => some []
  | .vcmpLe _ _ _ _ _ => some []
  | .vcmpGt _ _ _ _ _ => some []
  | .vcmpGe _ _ _ _ _ => some []
  | .vabs _ _ _ _ => some []
  | .vsqrt _ _ _ _ => some []
  | .vexp2 _ _ _ _ => some []
  | .vrcp _ _ _ _ => some []
  | .vrsqrt _ _ _ _ => some []
  | .vredSum _ _ _ _ => some []
  | .vredMax _ _ _ _ => some []
  | .vredMin _ _ _ _ => some []
  | .vcvt _ _ _ _ _ _ => some []
  | .vbcast _ a _ _ => some [a]
  | .vext rd _ _ => some [rd]
  | .vins _ a _ => some [a]
  | .mand _ _ _ => some []
  | .mor _ _ _ => some []
  | .mxor _ _ _ => some []
  | .mnot _ _ _ => some []
  | .mpop rd _ _ => some [rd]
  | .mfirst rd _ _ => some [rd]
  | .mget rd _ _ => some [rd]
  | .mset _ a _ => some [a]
  | .bmany _ _ => some []
  | .bmnone _ _ => some []
  | _ => none

/-- The destination registers of an outstanding load. -/
def loadRegs (o : Outstanding) : List Nat := if o.acc.kind = .load 4 then [o.acc.dreg, o.acc.dreg + 1] else [o.acc.dreg]

/-- Whether an instruction may issue behind the outstanding loads (R247): of those classes, naming no port and no destination register of such a load. -/
def mayIssue (s : State) (i : Instr) : Bool :=
  s.ctx.loads.isEmpty ||
  match passRegs i with
  | some l => l.all (fun r => decide (r < 28) && (r == 0 || s.ctx.loads.all (fun o => !((loadRegs o).contains r))))
  | none => false

/-- What an instruction behind outstanding loads comes to: one that would trap, wait or leave the ring waits until they have returned (R181, R248). -/
def issued (s t : State) : State :=
  if s.ctx.loads.isEmpty ∨ (t.live ∧ t.coreNo = s.coreNo ∧ t.running = s.running ∧ t.ctx.wait = .ready) then t else s.await (.again 0)

/-- The slot of the core in view whose vector access is in the middle of its lanes, if there is one: no other context of the core executes meanwhile (R361). -/
def midLanes (s : State) : Option Nat := (List.range 4).find? (fun k => match s.resident k with | some c => c.wait.midLanes | none => false)

/-- Whether the running context may execute: it is resident, its gang runs, and what it waits for holds. -/
def canRun (s : State) : Bool :=
  match s.resident s.running with
  | some c => (Wait.holds s s.running c.wait || Wait.polls c.wait) && (!s.async || s.midLanes.all (· == s.running))
  | none => false

/-- What a fetched word is executed as: the instruction it decodes to, or ILLOP where this core or a pending prefix does not admit it (R289, R290, R314). -/
def admitted (s : State) (w : Nat) : Instr :=
  match decode w with
  | .error _ => .illop w
  | .ok i => if absentOn s.coreNo w ∨ (s.pend ∧ ¬ qualifiable w) then .illop w else i

/-- The word that the running context executes: the one that it holds already, or what it fetches at PC; none where the fetch fails, or a jump's target word its landing-pad check. -/
def fetchedWord (s : State) : Option Nat × State :=
  match s.ctx.word with
  | some w => (if w < 2 ^ 32 then some w else none, s)
  | none => match s.fetch with
    | (.word w, s') => (some w, s')
    | _ => (none, s)

/-- The instruction that the running context executes. -/
def fetched (s : State) : Instr × State :=
  match s.fetchedWord with
  | (some w, s') => (s.admitted w, s')
  | (none, s') => (.instructionFetchFailure, s')

/-- An instruction that waits has been issued and is not fetched again (R169): its context keeps the word. s is the state in which it was fetched. -/
def keepWord (s : State) (t : State) : State :=
  if t.live ∧ t.coreNo = s.coreNo ∧ t.running = s.running ∧ t.ctx.wait ≠ .ready ∧ t.ctx.pc = s.ctx.pc ∧ t.ctx.word = none then t.setCtx { t.ctx with word := s.fetchedWord.1 } else t

end State

end Sys2Proof.Machine
end

