-- ==== Sys2Proof/Machine/Place.lean ====
section
/-! DEFINITION. Placing one instruction where the next step fetches it: it stands for the load of a flight's image and the start of a task (log 4). -/

namespace Sys2Proof.Machine

namespace State

/-- The core that the word is placed on: memory core 0 for a MEMCORE word, else core 0. -/
def placeCore (w : Nat) : Nat := if majorOf w = 0x16 then 16384 else 0

/-- Store the word at the PC of slot 0 of its core, in a code region of one page that its interface has cached as executable: the core and the frame are O1's, the context is ready with no prefix pending, and nothing is scheduled before it. -/
def placeWord (s : State) (_nbits w : Nat) : State :=
  let n := placeCore w
  let pc : BitVec 57 := 0x40000000
  let frame := 0x200000
  let t : Trans := { owner := 1, va := 0x40000000, size := 4096, pa := frame, read := true, write := false, exec := true, repl := false, stop := s.time + 1000000, dirty := false }
  let s := s.focus n 0
  let s := { s with live := true, schedule := [.run n 0], postponed := [],
                    ctx := { s.ctx with pc := pc, stat := word (wbits s.ctx.stat 12 0), wait := .ready, word := none, flight := 0 },
                    core := { s.core with cbase := word 0x40000000, clim := 4096, l1 := [], last := 0 },
                    host := { s.host with held := [] }, poison := [] }
  let s := (s.setEntry (entryOfCore n) Entry.boot).setEntry (entryKey 4 (frame / 2097152)) Entry.boot
  let s := s.setIface (ifaceOf n) { s.getIface (ifaceOf n) with leaf := [t] }
  (s.setTag frame 0).setBytes frame (toBytes 4 w)

end State

end Sys2Proof.Machine
end

