-- ==== Sys2Proof/Machine/Turn.lean ====
section
/-! DEFINITION. Which context executes next, and its instruction (R168, R169, R247). -/

namespace Sys2Proof.Machine

/-- The running context executes its next instruction; nothing where none may. An instruction that must not pass outstanding loads waits for them (R247). -/
def runNext (s : State) : Host.Outcome State Fault Refusal :=
  if s.canRun then
    let r := s.fetched
    if r.2.mayIssue r.1 then
      match exec r.1 r.2 with
      | .next t => .next (s.keepWord (r.2.afterHome r.1 (r.2.issued t)))
      | o => o
    else .next (s.keepWord (r.2.await (.again 0)))
  else .next s

namespace State

/-! ## The resident ring (R168, R169) -/

/-- An instruction that waits and is tried now goes on: it does not find that it must wait as before. -/
def goesOn (s : State) (k : Nat) : Bool :=
  match runNext (s.switchTo s.coreNo k) with
  | .next t => !(t.live && t.coreNo == s.coreNo && t.running == k && Wait.polls t.ctx.wait)
  | _ => true

/-- The first slot in ring order whose condition holds (R168), one whose instruction has to find that out being tried; where none does, one of these looks in vain, in its turn. -/
def nextWaiting (s : State) : Option Nat :=
  let holds (k : Nat) : Bool := match s.resident k with | some c => Wait.holds s k c.wait | none => false
  let polls (k : Nat) : Bool := match s.resident k with | some c => Wait.polls c.wait | none => false
  match s.ringOrder.find? (fun k => holds k || (polls k && s.goesOn k)) with
  | some k => some k
  | none => (s.ringOrder.find? (fun k => polls k && !(s.core.polled.contains k))).or (s.ringOrder.find? polls)

/-- The slot to run (R168): the context that ran last goes on while it is ready. -/
def nextSlot (s : State) : Option Nat :=
  if s.async ∧ s.midLanes.isSome then s.midLanes
  else match s.resident s.core.last with
  | some c => if s.core.stays = true ∧ c.wait = .ready then some s.core.last else s.nextWaiting
  | none => s.nextWaiting

/-- The next slot on another core than the one in view, cores in rising order after it, then around (log 4). -/
def elsewhere (s : State) : Option (Nat × Nat) :=
  let busy := (s.cores.filter (fun e => e.1 != s.coreNo && e.2.slots.toList.any (fun sl => match sl with | .busy _ => true | _ => false))).map (·.1)
  (busy.filter (s.coreNo < ·) ++ busy.filter (· < s.coreNo)).findSome? (fun n => (State.nextSlot (s.focus n 0)).map (fun k => (n, k)))

/-- The next core and slot to run: the core in view goes on; every 16th cycle another core comes first (log 4). -/
def nextPlace (s : State) : Option (Nat × Nat) :=
  let here := s.nextSlot.map (fun k => (s.coreNo, k))
  if s.cycle % 16 = 0 then match s.elsewhere with | some p => some p | none => here
  else match here with | some p => some p | none => s.elsewhere

/-- What the step does after its tick: the schedule's next turn; an event that waits where it arrived, every 8th cycle or where no context can go on; or the next context. -/
def nextTurn (s : State) : Option Turn × State :=
  match s.schedule with
  | t :: rest => (some t, { s with schedule := rest })
  | [] =>
    match s.postponed, s.nextPlace with
    | (i, a) :: rest, none => (some (.event i a), { s with postponed := rest })
    | (i, a) :: rest, some (n, k) => if s.cycle % 8 = 0 then (some (.event i a), { s with postponed := rest }) else (some (.run n k), s)
    | [], some (n, k) => (some (.run n k), s)
    | [], none => (none, s)

end State

end Sys2Proof.Machine
end

