-- ==== Sys2Proof/Machine/Step.lean ====
section
/-! DEFINITION. One step of the machine (log 4): time passes; then the event, context or wait that the schedule names, or else the next ready context of the core in view executes its next instruction; or nothing runs, and the agents go on alone. -/

namespace Sys2Proof.Machine

/-- The turn of a step, after the tick. -/
def takeTurn : Option Turn × State → Host.Outcome State Fault Refusal
  | (some (.event i arg), s) => exec i { s with arg := arg }
  | (some (.run n k), s) =>
    match runNext (s.switchTo n k) with
    | .next t => .next (s.turnEnd n k t)
    | o => o
  | (some (.elapse n), s) => .next (s.elapse n)
  | (none, s) => .next s

def step (s : State) : Host.Outcome State Fault Refusal := takeTurn s.tick.nextTurn

/-- The state with an instruction stored where the next step fetches (log 4). -/
def State.withFetchWord (s : State) (nbits w : Nat) : State := s.placeWord nbits w

end Sys2Proof.Machine
end

