-- ==== Sys2Proof/Safety.lean ====
section
/-! DEFINITION. What counts as a safe run, and the words in which the statements are made: what an instruction leaves when its only effects are those the spec names, and tables of instructions of one shape with their results. -/

namespace Sys2Proof.Machine

/-- k steps from a state all answer a next state. -/
def Safe (s : State) (k : Nat) : Prop := ∃ t, Sys2Proof.core.run k s = .next t

end Sys2Proof.Machine

namespace Sys2Proof.Spec

open Sys2Proof.Machine

/-- What exec answers. -/
abbrev Answers (i : Instr) (s t : State) : Prop := exec i s = .next t

/-- After an instruction whose only effects are a result in rd, nothing at x0, and the next PC: every other part of the state is as it was. -/
def retire (s : State) (rd : Nat) (v : Word) : State :=
  { s with ctx := { s.ctx with x := if rd = 0 then s.ctx.x else s.ctx.x.setIfInBounds rd v, pc := s.ctx.pc + 4, wait := .ready, word := none } }

/-- The same with exceptions ORed into STAT's accrued flags, NV the highest of bits 12 to 8. -/
def retireFlags (s : State) (rd : Nat) (v : Word) (fl : Flags) : State :=
  { s with ctx := { s.ctx with x := if rd = 0 then s.ctx.x else s.ctx.x.setIfInBounds rd v, pc := s.ctx.pc + 4, wait := .ready, word := none, stat := s.ctx.stat ||| word (fl % 32 * 256) } }

/-- After an instruction that writes a PC and nothing else. -/
def goTo (s : State) (pc : BitVec 57) : State := { s with ctx := { s.ctx with pc := pc, wait := .ready, word := none } }

/-- After a vector instruction that writes the register vd, ORs exceptions into STAT and spends a pending prefix. -/
def retireVec (s : State) (vd : Nat) (lanes : List Nat) (fl : Flags) : State :=
  { s with ctx := { s.ctx with v := s.ctx.v.setIfInBounds vd (ofLanes lanes), pc := s.ctx.pc + 4, wait := .ready, word := none,
                               stat := word (wbits (s.ctx.stat ||| word (fl % 32 * 256)) 12 0) } }

/-- After a mask instruction; m0 discards. -/
def retireMask (s : State) (md : Nat) (v : BitVec 16) : State :=
  { s with ctx := { s.ctx with m := if md = 0 then s.ctx.m else s.ctx.m.setIfInBounds md v, pc := s.ctx.pc + 4, wait := .ready, word := none } }

/-- The results of the register-register instructions, the operands a and b (R318). -/
def binaryOps : List ((Nat → Nat → Nat → Instr) × (Word → Word → Word)) :=
  [(.add, fun a b => a + b), (.sub, fun a b => a - b), (.and, fun a b => a &&& b), (.or, fun a b => a ||| b), (.xor, fun a b => a ^^^ b),
   (.sll, fun a b => a <<< (b.toNat % 64)), (.srl, fun a b => a >>> (b.toNat % 64)), (.sra, fun a b => a.sshiftRight (b.toNat % 64)),
   (.slt, fun a b => if a.toInt < b.toInt then 1 else 0), (.sltu, fun a b => if a.toNat < b.toNat then 1 else 0),
   (.min, fun a b => if a.toInt ≤ b.toInt then a else b), (.max, fun a b => if a.toInt ≤ b.toInt then b else a),
   (.minu, fun a b => if a.toNat ≤ b.toNat then a else b), (.maxu, fun a b => if a.toNat ≤ b.toNat then b else a),
   (.mul, fun a b => BitVec.ofNat 64 (a.toNat * b.toNat)), (.mulh, fun a b => BitVec.ofInt 64 (a.toInt * b.toInt / 2 ^ 64)), (.mulhu, fun a b => BitVec.ofNat 64 (a.toNat * b.toNat / 2 ^ 64)),
   (.rotl, fun a b => a.rotateLeft (b.toNat % 64)), (.rotr, fun a b => a.rotateRight (b.toNat % 64))]

/-- The results of division and remainder, their two defined cases first (R319). -/
def divisionOps : List ((Nat → Nat → Nat → Instr) × (Word → Word → Word)) :=
  [(.div, fun a b => if b.toNat = 0 then 0xFFFFFFFFFFFFFFFF else if a.toInt = -2 ^ 63 ∧ b.toInt = -1 then a else BitVec.ofInt 64 (Int.tdiv a.toInt b.toInt)),
   (.divu, fun a b => if b.toNat = 0 then 0xFFFFFFFFFFFFFFFF else BitVec.ofNat 64 (a.toNat / b.toNat)),
   (.rem, fun a b => if b.toNat = 0 then a else if a.toInt = -2 ^ 63 ∧ b.toInt = -1 then 0 else BitVec.ofInt 64 (a.toInt - b.toInt * Int.tdiv a.toInt b.toInt)),
   (.remu, fun a b => if b.toNat = 0 then a else BitVec.ofNat 64 (a.toNat - b.toNat * (a.toNat / b.toNat)))]

/-- The results of the instructions of one source (R320): CLZ and CTZ count to the first 1 from the top and from the bottom. -/
def unaryOps : List ((Nat → Nat → Instr) × (Word → Word)) :=
  [(.clz, fun a => BitVec.ofNat 64 ((List.range 64).findIdx fun j => a.getLsbD (63 - j))), (.ctz, fun a => BitVec.ofNat 64 ((List.range 64).findIdx fun j => a.getLsbD j)),
   (.popc, fun a => BitVec.ofNat 64 ((List.range 64).countP fun j => a.getLsbD j)), (.sextw, fun a => (a.setWidth 32).signExtend 64), (.zextw, fun a => (a.setWidth 32).setWidth 64)]

/-- The results of the immediate instructions, i the sign-extended immediate and n its low six bits (R321). -/
def immediateOps : List ((Nat → Nat → Nat → Instr) × (Word → Word → Nat → Word)) :=
  [(.addi, fun a i _ => a + i), (.andi, fun a i _ => a &&& i), (.ori, fun a i _ => a ||| i), (.xori, fun a i _ => a ^^^ i),
   (.slti, fun a i _ => if a.toInt < i.toInt then 1 else 0), (.sltiu, fun a i _ => if a.toNat < i.toNat then 1 else 0),
   (.slli, fun a _ n => a <<< n), (.srli, fun a _ n => a >>> n), (.srai, fun a _ n => a.sshiftRight n)]

/-- The scalar floating-point instructions of two sources that round, with their operation in a format and a rounding mode (R325). -/
def roundedOps : List ((Nat → Nat → Nat → Nat → Nat → Instr) × (Fmt → Nat → Bool → Nat → Nat → Nat × Flags)) :=
  [(.fadd, Fmt.add), (.fsub, Fmt.sub), (.fmul, Fmt.mul), (.fdiv, Fmt.div)]

/-- The branches with their conditions (R331). -/
def branchOps : List ((Nat → Nat → Nat → Instr) × (Word → Word → Prop)) :=
  [(.beq, fun a b => a = b), (.bne, fun a b => a ≠ b), (.blt, fun a b => a.toInt < b.toInt), (.bge, fun a b => b.toInt ≤ a.toInt),
   (.bltu, fun a b => a.toNat < b.toNat), (.bgeu, fun a b => b.toNat ≤ a.toNat)]

/-- The local loads: their width in bytes, and how the value is extended (R338). -/
def loadOps : List ((Nat → Nat → Nat → Instr) × Nat × (Nat → Word)) :=
  [(.lb, 1, fun v => (BitVec.ofNat 8 v).signExtend 64), (.lh, 2, fun v => (BitVec.ofNat 16 v).signExtend 64), (.lw, 4, fun v => (BitVec.ofNat 32 v).signExtend 64),
   (.ld, 8, BitVec.ofNat 64), (.lbu, 1, BitVec.ofNat 64), (.lhu, 2, BitVec.ofNat 64), (.lwu, 4, BitVec.ofNat 64)]

/-- The local stores with their width in bytes (R338). -/
def storeOps : List ((Nat → Nat → Nat → Instr) × Nat) := [(.sb, 1), (.sh, 2), (.sw, 4), (.sd, 8)]

/-- The far loads and stores of one address form, with their width code (R341). -/
def farLoadOps : List ((Nat → Nat → Nat → Instr) × Nat) := [(.fldB, 0), (.fldH, 1), (.fldW, 2), (.fldD, 3), (.fldQ, 4)]
def farStoreOps : List ((Nat → Nat → Nat → Instr) × Nat) := [(.fstB, 0), (.fstH, 1), (.fstW, 2), (.fstD, 3), (.fstQ, 4)]

/-- The atomics with their operand's bytes, and what each leaves of the old value o, the operand b and AMOCAS's compare value c (R348). -/
def atomicOps : List ((Nat → Nat → Nat → Nat → Nat → Nat → Instr) × Nat × (Nat → Nat → Nat → Nat)) :=
  let s (v : Nat) : Int := (BitVec.ofNat 64 v).toInt
  [(.amoadd, 8, fun o b _ => (o + b) % 2 ^ 64), (.amoswap, 8, fun _ b _ => b), (.amocas, 8, fun o b c => if o = c then b else o),
   (.amomin, 8, fun o b _ => if s b < s o then b else o), (.amomax, 8, fun o b _ => if s o < s b then b else o),
   (.amominu, 8, fun o b _ => if b < o then b else o), (.amomaxu, 8, fun o b _ => if o < b then b else o),
   (.amoand, 8, fun o b _ => o &&& b), (.amoor, 8, fun o b _ => o ||| b), (.amoxor, 8, fun o b _ => o ^^^ b),
   (.amofadd, 4, fun o b _ => (fp32.add 0 false o (b % 2 ^ 32)).1)]

/-- The running context may send a request to a package: its owner has a usable port there, R72 holds no new request, and its die has a request identifier free (R69, R71, R72, R76). -/
abbrev CanSend (s : State) (dpkg rid : Nat) : Prop :=
  s.usablePorts s.owner dpkg ≠ [] ∧ s.edgeHolds s.owner dpkg = false ∧ s.freeRid (State.requestDie s.coreNo) s.coreNo = some rid

/-- After the running context has sent a request of a kind through a port: the transaction that R68 lays out has left, and the die's table holds the request, with the slot that waits, 8 more for a store (R68, R69, R345). -/
def requestSent (s : State) (acc : Access) (slot kind dpkg town size op : Nat) (data : List Byte) (p rid : Nat) : State :=
  let r : Request := { die := State.requestDie s.coreNo, rid := rid, acc := acc, slot := slot, dpkg := dpkg, issue := s.time, parked := false, via := s.usablePorts s.owner dpkg, key := none }
  State.emit { s with fabric := { s.fabric with requests := s.fabric.requests ++ [r] } } p s.time
    { w0 := BitVec.ofNat 64 (kind * 2 ^ 59 + dpkg * 2 ^ 43 + s.pkgNum * 2 ^ 30 + s.coreNo % 16384 * 2 ^ 16 + rid * 16), w1 := BitVec.ofNat 64 (town * 2 ^ 48 + s.owner * 2 ^ 32),
      w2 := BitVec.ofNat 64 s.time, w3 := BitVec.ofNat 64 (size * 2 ^ 61 + op * 2 ^ 57 + acc.va), data := data }

/-- The code with which a target word is refused at the issuing side: NOOWNER 2, NOROUTE 6 or PORTSHARE 7 (R71, R76, R345). -/
def EdgeRefuses (s : State) (t : Word) (code : Nat) : Prop :=
  (State.targetPkg t = s.pkgNum ∧ s.targetOwner t ≠ s.owner ∧ code = 2) ∨
  (State.targetPkg t ≠ s.pkgNum ∧ ((s.groupPorts (State.targetPkg t) = [] ∧ code = 6) ∨ (s.groupPorts (State.targetPkg t) ≠ [] ∧ s.usablePorts s.owner (State.targetPkg t) = [] ∧ code = 7)))

/-- The refusal of an access of the running context logged at the issuing side (R177, R182). -/
abbrev edgeLogged (s : State) (t : Word) (va code : Nat) : State := s.logTo s.coreNo (s.targetOwner t) s.owner va sramBase code

/-- Whether a cell operation, CMK 0, CEMPTY 1, CFILL 2, CTAG 3 and CREVERT 4, refuses a word of tag t with bit 63 wq (R268). -/
def cellRefused (op t wq : Nat) : Bool :=
  match op with
  | 0 => t == 3 || (t == 1 && wq == 1)
  | 1 => t == 3
  | 2 => t == 2
  | 3 => false
  | _ => t != 3

/-- The cell operations, each with its number. -/
def cellOps : List ((Nat → Nat → Nat → Instr) × Nat) := [(.cmk, 0), (.cempty, 1), (.cfill, 2), (.ctag, 3), (.crevert, 4)]

/-- Byte i of what a far store of a width code writes: of rs2, or from byte 8 of the register after it (R343). -/
def storedByte (s : State) (rs2 i : Nat) : Byte := if i < 8 then (s.rx rs2).extractLsb' (8 * i) 8 else (s.rx (rs2 + 1)).extractLsb' (8 * (i - 8)) 8

/-- A context after an instruction whose only effects on it are a result in rd and the next PC. -/
def retired (c : Ctx) (rd : Nat) (v : Word) : Ctx := { c with x := if rd = 0 then c.x else c.x.setIfInBounds rd v, pc := c.pc + 4, wait := .ready, word := none }

/-- A context after a far load of a width code: b, h and w sign-extended, q a pair (R342). -/
def loaded (c : Ctx) (w rd : Nat) (lo hi : Word) : Ctx :=
  match w with
  | 0 => retired c rd ((lo.setWidth 8).signExtend 64)
  | 1 => retired c rd ((lo.setWidth 16).signExtend 64)
  | 2 => retired c rd ((lo.setWidth 32).signExtend 64)
  | 3 => retired c rd lo
  | _ => retired { c with x := if rd = 0 then c.x else c.x.setIfInBounds rd lo } (rd + 1) hi

/-- After a vector instruction that gives each active lane of vd a value with its exceptions: the other lanes keep theirs (R358). -/
def vecDone (s : State) (vd me mk : Nat) (f : Nat → Nat × Flags) : State :=
  retireVec s vd ((List.range 16).map fun i => if s.activeLane me mk i then (f i).1 else (s.vreg vd).getD i 0)
    (unionFlags ((List.range 16).map fun i => if s.activeLane me mk i then (f i).2 else 0))

/-- Lane i of an elementwise result: the operation on each w-bit element of va, vb and the old vd (R356, R362). -/
def eachElem (s : State) (vd va vb w : Nat) (f : Nat → Nat → Nat → Nat × Flags) (i : Nat) : Nat × Flags :=
  let e (r j : Nat) : Nat := (s.vreg r).getD i 0 / 2 ^ (w * j) % 2 ^ w
  let r := (List.range (32 / w)).map fun j => f (e va j) (e vb j) (e vd j)
  (ofElems w (r.map (·.1)), unionFlags (r.map (·.2)))

/-- Vector arithmetic: the operation on floating-point and on integer elements (R362, R363). -/
def vecArithOps : List ((Nat → Nat → Nat → Nat → Nat → Instr) × (Fmt → Nat → Bool → Nat → Nat → Nat → Nat × Flags) × (Int → Int → Int → Int)) :=
  [(.vadd, fun f rm sat a b _ => f.add rm sat a b, fun a b _ => a + b), (.vsub, fun f rm sat a b _ => f.sub rm sat a b, fun a b _ => a - b),
   (.vmul, fun f rm sat a b _ => f.mul rm sat a b, fun a b _ => a * b), (.vmadd, fun f rm sat a b c => f.fma rm sat a b c, fun a b c => a * b + c),
   (.vnmsub, fun f rm sat a b c => f.fnms rm sat a b c, fun a b c => c - a * b),
   (.vmin, fun f _ sat a b _ => f.minmax false sat a b, fun a b _ => min a b), (.vmax, fun f _ sat a b _ => f.minmax true sat a b, fun a b _ => max a b)]

/-- The bitwise operations and the shifts of a w-bit element by a count (R367). -/
def vecBitOps : List ((Nat → Nat → Nat → Nat → Nat → Instr) × (Nat → Nat → Nat)) := [(.vand, fun a b => a &&& b), (.vor, fun a b => a ||| b), (.vxor, fun a b => a ^^^ b)]
def vecShiftOps : List ((Nat → Nat → Nat → Nat → Nat → Instr) × (Nat → Nat → Nat → Nat)) :=
  [(.vsll, fun w a n => a * 2 ^ n % 2 ^ w), (.vsrl, fun _ a n => a / 2 ^ n), (.vsra, fun w a n => ((toInt w a / 2 ^ n) % 2 ^ w).toNat)]

/-- The approximated functions with their numbers (R364). -/
def approxOps : List ((Nat → Nat → Nat → Nat → Instr) × Nat) := [(.vsqrt, 9), (.vexp2, 10), (.vrcp, 11), (.vrsqrt, 12)]

/-- The number that finite FP32 bits stand for (R298). -/
def fp32Value (v : Nat) : ℚ :=
  let e : Nat := v / 2 ^ 23 % 256
  (if 2 ^ 31 ≤ v then -1 else 1) * (if e = 0 then ((v % 2 ^ 23 : Nat) : ℚ) * 2 ^ (-149 : ℤ) else ((2 ^ 23 + v % 2 ^ 23 : Nat) : ℚ) * 2 ^ ((e : ℤ) - 150))

/-- What R364 promises of VSQRT (9), VEXP2 (10), VRCP (11) or VRSQRT (12) of the FP32 operand a: a result with its flags, exact in the special cases, else a normal number within the stated error, with NX alone. -/
def approxMeets (f6 : Nat) (sat : Bool) (a : Nat) (r : Nat × Flags) : Prop :=
  let x := fp32Value a
  let sign : Nat := if 2 ^ 31 ≤ a then 2 ^ 31 else 0
  let big : Nat := if sat then 0x7F7FFFFF else 0x7F800000
  let general (near : Prop) : Prop := r.2 = fNX ∧ 2 ^ 23 ≤ r.1 % 2 ^ 31 ∧ r.1 % 2 ^ 31 < 0x7F800000 ∧ r.1 / 2 ^ 31 * 2 ^ 31 = (if f6 = 11 then sign else 0) ∧ near
  (0x7F800000 < a % 2 ^ 31 → r = (0x7FC00000, if a / 2 ^ 22 % 2 = 0 then fNV else 0)) ∧
  (a = 0x7F800000 → r = (if f6 = 9 ∨ f6 = 10 then big else 0, 0)) ∧
  (a = 0xFF800000 → r = if f6 = 10 then (0, 0) else if f6 = 11 then (0x80000000, 0) else (0x7FC00000, fNV)) ∧
  (a % 2 ^ 31 < 0x7F800000 →
    (x = 0 → r = if f6 = 9 then (a, 0) else if f6 = 10 then (0x3F800000, 0) else (sign + big, fDZ)) ∧
    (x < 0 → f6 = 9 ∨ f6 = 12 → r = (0x7FC00000, fNV)) ∧
    (f6 = 9 → 0 < x → general (fp32Value (r.1 - 1) ^ 2 < x ∧ x < fp32Value (r.1 + 1) ^ 2)) ∧
    (f6 = 10 → x ≠ 0 →
      (∀ n : ℤ, x = n → -126 ≤ n → n ≤ 127 → r = ((n + 127).toNat * 2 ^ 23, 0)) ∧
      (128 ≤ x → r = (big, fOF + fNX)) ∧ (x < -126 → r = (0, fUF + fNX)) ∧
      ((∀ n : ℤ, x ≠ n) → -126 < x → x < 128 → general (|(fp32Value r.1 : ℝ) - (2 : ℝ) ^ (x : ℝ)| ≤ 2 ^ (-22 : ℤ) * (2 : ℝ) ^ (x : ℝ)))) ∧
    (f6 = 11 → x ≠ 0 →
      (∀ n : ℤ, |x| = 2 ^ n → -126 ≤ -n → -n ≤ 127 → r = (sign + (127 - n).toNat * 2 ^ 23, 0)) ∧
      (|1 / x| < 2 ^ (-126 : ℤ) → r = (sign, fUF + fNX)) ∧ (fp32Value 0x7F7FFFFF < |1 / x| → r = (sign + big, fOF + fNX)) ∧
      ((∀ n : ℤ, |x| ≠ 2 ^ n) → 2 ^ (-126 : ℤ) ≤ |1 / x| → |1 / x| ≤ fp32Value 0x7F7FFFFF → general (|fp32Value r.1 * x - 1| ≤ 2 ^ (-22 : ℤ)))) ∧
    (f6 = 12 → 0 < x →
      (∀ n : ℤ, x = 2 ^ (2 * n) → r = ((127 - n).toNat * 2 ^ 23, 0)) ∧
      ((∀ n : ℤ, x ≠ 2 ^ (2 * n)) → general ((1 - 2 ^ (-22 : ℤ)) ^ 2 ≤ fp32Value r.1 ^ 2 * x ∧ fp32Value r.1 ^ 2 * x ≤ (1 + 2 ^ (-22 : ℤ)) ^ 2))))

/-- The comparisons, eq 0 to ge 5 (R365). -/
def vecCmpOps : List ((Nat → Nat → Nat → Nat → Nat → Instr) × (Int → Int → Prop)) :=
  [(.vcmpEq, fun a b => a = b), (.vcmpNe, fun a b => a ≠ b), (.vcmpLt, fun a b => a < b), (.vcmpLe, fun a b => a ≤ b), (.vcmpGt, fun a b => a > b), (.vcmpGe, fun a b => a ≥ b)]
def vecCmpFloat : List ((Nat → Nat → Nat → Nat → Nat → Instr) × (Nat → Nat → Bool × Flags)) :=
  [(.vcmpEq, fun a b => fp32.compare 0 a b), (.vcmpNe, fun a b => (!(fp32.compare 0 a b).1, (fp32.compare 0 a b).2)), (.vcmpLt, fun a b => fp32.compare 1 a b),
   (.vcmpLe, fun a b => fp32.compare 2 a b), (.vcmpGt, fun a b => fp32.compare 1 b a), (.vcmpGe, fun a b => fp32.compare 2 b a)]

/-- Element e of row i of the tile at a store key, in an element format (R374, R297); a BX4 element takes the scale of its block's header, and is a NaN where the block is invalid (R304). -/
def tileValue (s : State) (k fmt : Nat) (headers : List Word) (i e : Nat) : Machine.Num :=
  match fmtOf fmt with
  | some f => f.read (s.natAt (k + 128 * i + e * (widthOf fmt / 8)) (widthOf fmt / 8))
  | none => (bx4Value ((s.byteAt (k + 128 * i + e / 2)).toNat / 16 ^ (e % 2) % 16) (headers.getD (8 * i + e / 32) 0).toNat).getD (.nan false)

/-- What a floating-point MMUL leaves of an accumulator element: block by block of 32, ascending, the block's exact sum is rounded to FP32 and added, both to nearest even (R310, R381). -/
def mmulElement (sat : Bool) (old kt : Nat) (a b : Nat → Machine.Num) : Nat :=
  (List.range (kt / 32)).foldl (fun acc j => (fp32.add 0 sat acc (fp32.write 0 sat (blockSum ((List.range 32).map fun e => product (a (32 * j + e)) (b (32 * j + e))))).1).1) old

/-- The same for INT8, its sum wrapping or held to the bounds after each block (R311). -/
def mmulInteger (sat : Bool) (old : Nat) (a b : Nat → Byte) : Nat :=
  (List.range 4).foldl (fun acc j => fromInt 32 sat (toInt 32 acc + ((List.range 32).map fun e => (a (32 * j + e)).toInt * (b (32 * j + e)).toInt).sum)) old

/-- An accumulator element as MSTORE converts it to a format (R383, R309). -/
def stored (m : MatCmd) (v : Nat) : Nat :=
  if m.fmt = 0 then (convFloat fp32 fp32 m.rnd m.sat v).1 else (convElem (if m.fmt = 6 ∨ m.fmt = 7 then 7 else 0) m.fmt m.rnd m.sat v).1

/-- An engine is performing the command at the head of its queue, untagged and on its own package, and nothing stops or halts it. -/
abbrev Performing (s : State) (u : Nat) (c : CopyCmd) : Prop :=
  (s.engineQueue u).head? = some c ∧ c.started = true ∧ c.res = none ∧ c.rid = none ∧ c.target = none ∧ c.tags = false ∧ s.denied.contains (engineUnit u) = false ∧ s.enginesHalt u = false

/-- Its next n bytes to read lie in one page, at ks, and nothing holds or stops the read; c1 and s1 are the command and the state once the page is translated (R234, R389). -/
abbrev ReadSpot (s : State) (u : Nat) (c : CopyCmd) (a n ks : Nat) (c1 : CopyCmd) (s1 : State) : Prop :=
  a % 4096 + n ≤ 4096 ∧ s.engineSpot u c a n false = (.at ks, c1, s1) ∧ s1.hostOwnsRun ks n = none

/-- The same for the next n bytes to write, at kd, no earlier write being on its way. -/
abbrev WriteSpot (s : State) (u : Nat) (c : CopyCmd) (d n kd : Nat) (c2 : CopyCmd) (s2 : State) : Prop :=
  s.engineSpot u c d n true = (.at kd, c2, s2) ∧ s2.pageAsks c2 d kd = [] ∧ s2.destStop kd n false = none ∧ s2.arrived = [] ∧ (storage kd = .hbm ∨ storage kd = .sram) ∧ s2.engineQueue u ≠ []

/-- The bytes stand at a key, or each 4-byte word of them is added to the word there, as FP32 (1) or as INT32 (2), and no other byte changes (R312, R393). -/
def Moved (s t : State) (k add : Nat) (bytes : List Byte) : Prop :=
  (add = 0 → ∀ j, t.serialByte j = if k ≤ j ∧ j < k + bytes.length then bytes.getD (j - k) 0 else s.serialByte j) ∧
  (add ≠ 0 → (∀ i, i < bytes.length / 4 → t.serialNat (k + 4 * i) 4 =
      let old := s.serialNat (k + 4 * i) 4
      let new := ofBytes ((bytes.drop (4 * i)).take 4)
      if add = 1 then (fp32.add 0 false old new).1 else (old + new) % 2 ^ 32) ∧
    ∀ j, j < k ∨ k + bytes.length ≤ j → t.serialByte j = s.serialByte j)

/-- The head of the queue stands n bytes further on: in the row under way, or before the next. -/
def Advanced (t : State) (u : Nat) (c : CopyCmd) (n rowLen : Nat) : Prop :=
  ∃ q, (t.engineQueue u).head? = some q ∧ if rowLen ≤ c.off + n then q.row = c.row + 1 ∧ q.off = 0 else q.row = c.row ∧ q.off = c.off + n

/-- The reductions: the identity in FP32 and in INT32, and the combining step in each (R366). -/
def redOps : List ((Nat → Nat → Nat → Nat → Instr) × (Nat × Nat) × (Nat → Bool → Nat → Nat → Nat × Flags) × (Int → Int → Int)) :=
  [(.vredSum, (0, 0), fp32.add, fun a b => a + b), (.vredMax, (0xFF800000, 0x80000000), fun _ sat a b => fp32.minmax true sat a b, max),
   (.vredMin, (0x7F800000, 0x7FFFFFFF), fun _ sat a b => fp32.minmax false sat a b, min)]

/-- A context runs in a ring slot of the core in view. -/
abbrev InRing (s : State) : Prop := s.live = true ∧ s.running < 4

/-- The same, with no store of the core or in flight outstanding, and accesses performed at once (log 4). -/
abbrev Quiet (s : State) : Prop :=
  InRing s ∧ s.async = false ∧ s.core.combining = [] ∧ s.inflight = [] ∧ s.arrived = [] ∧ s.fabric.requests = []

/-- A context's STAT after a pending prefix is spent: its low 13 bits (R282, R314). -/
abbrev spent (c : Ctx) : Ctx := { c with stat := BitVec.ofNat 64 (c.stat.toNat % 2 ^ 13) }

/-- The instar key for the running context at a slot of its die's part of the work area. -/
abbrev ownKey (s : State) (n : Nat) : Key := { owner := s.owner, die := s.workDie, slot := n }

/-- The next entry of the owner's ready ring of a die and priority can be written, or the ring is full, so that the item is held (R161, R166); t is the state in which the page has been translated. -/
abbrev RingReady (s : State) (die prio : Nat) (t : State) : Prop :=
  (State.ringNext (s.queued s.owner die prio) = none ∧ t = s) ∨
    ∃ n x, State.ringNext (s.queued s.owner die prio) = some n ∧ s.lookUp die s.owner (State.ringVa die prio n) .write = (.ok x, t)

/-- What an instruction whose register fields may name ports does (R278, R169): with a word for each source field and room for its result it completes in one step; reading a port, it else waits on its source ports taking nothing; reading none, it waits for room. -/
def PortForm (s : State) (i : Instr) (srcs : List Nat) (d : Nat) (done : State) : Prop :=
  (s.canTake srcs = true → s.canPut d = true → Answers i s done) ∧
  ((s.canTake srcs = false ∨ (State.portMask srcs ≠ 0 ∧ s.canPut d = false)) → ∃ since, Answers i s { s with ctx := { s.ctx with wait := .port (srcs.filter (28 ≤ ·)) d since } }) ∧
  (State.portMask srcs = 0 → s.canPut d = false → Answers i s { s with ctx := { s.ctx with wait := .again 2 } })

/-- A source register that is no port. -/
abbrev NoPort (r : Nat) : Prop := r < 28

end Sys2Proof.Spec
end

