-- ==== Sys2Proof/Certificates/Slice0/Obligations.lean ====
section
/-! DEFINITION. The statements for the provers, each with the rules that it rests on; a statement that rests on a choice of the model names its log entry. -/

open Sys2Proof Sys2Proof.Machine Sys2Proof.Spec

/-- A step runs the instruction that the fetch at PC decodes to (R289, R290, R314, R168, R247). -/
def Obligations.StepRunsDecodedInstruction : Prop :=
  ∀ (s u v : State) (n k w : Nat) (i : Instr),
    let p := u.switchTo n k
    s.tick.nextTurn = (some (.run n k), u) → p.canRun = true → ((p.ctx.word = none ∧ p.fetch = (.word w, v)) ∨ (p.ctx.word = some w ∧ w < 2 ^ 32 ∧ v = p)) →
    decode w = .ok i → absentOn p.coreNo w = false → (p.pend = false ∨ qualifiable w = true) →
    (∀ t, v.mayIssue i = true → exec i v = .next t → step s = .next (u.turnEnd n k (p.keepWord (v.afterHome i (v.issued t))))) ∧
    (v.mayIssue i = false → step s = .next (u.turnEnd n k (p.keepWord (v.await (.again 0))))) ∧
    (∀ t, v.ctx.loads = [] → exec i v = .next t → State.waitsForHome i = false → t.core.polled = [] → (∀ c, u.slotOf n k = .busy c → State.Wait.polls c.wait = false) →
      (t.ctx.wait = .ready ∨ t.live = false) → t.denied = [] → (∀ j c, t.slotOf n j = .busy c → ∀ l rd since, c.wait ≠ .port l rd since) → step s = .next t)

/-- A step whose schedule names an event runs that event with its argument (R266, R239). -/
def Obligations.StepTakesScheduledEvent : Prop :=
  ∀ (s : State) (i : Instr) (a : Arg) (n : Nat) (l : List Turn),
    (s.tick.schedule = .event i a :: l → step s = exec i { s.tick with schedule := l, arg := a }) ∧
    (s.tick.schedule = .elapse n :: l → step s = .next (State.elapse { s.tick with schedule := l } n))

/-- A fetch reads the four little-endian bytes at PC; outside the code region its context takes FETCHBOUND (R289, R291, R292). -/
def Obligations.FetchReadsCodeBytes : Prop :=
  let bytes (t : State) (k : Nat) : Nat := (t.byteAt k).toNat + 256 * (t.byteAt (k + 1)).toNat + 65536 * (t.byteAt (k + 2)).toNat + 16777216 * (t.byteAt (k + 3)).toNat
  (∀ (s u t : State) (k : Nat) (repl : Bool), s.inCode s.ctx.pc.toNat 4 = true → s.codeHit s.ctx.pc.toNat = (none, u) →
      u.locate u.coreNo u.owner s.ctx.pc.toNat 4 .exec = (.at k repl, t) →
      t.hostOwns k = none → t.poisoned k 4 = false → t.tagAt k = 0 → s.fetch.1 = .word (bytes t k)) ∧
    (∀ (s t : State) (e : Sector), s.inCode s.ctx.pc.toNat 4 = true → s.codeHit s.ctx.pc.toNat = (some e, t) → t.poisoned (e.pa + (s.ctx.pc.toNat - e.va)) 4 = false →
      s.fetch = (.word (bytes t (e.pa + (s.ctx.pc.toNat - e.va))), t)) ∧
    ∀ s : State, s.inCode s.ctx.pc.toNat 4 = false → s.ctx.word = none → s.fetch = (.bound, s) ∧ Answers .instructionFetchFailure s (s.trapAt 0x02 0 s.core.cbase s.ctx.pc)

/-- Words that the spec writes out decode to the instructions they stand for (R355, R418, R314). -/
def Obligations.WorkedEncodingsDecode : Prop :=
  decode 0x01013283 = .ok (.ld 5 2 16) ∧ decode 0x00613423 = .ok (.sd 6 2 8) ∧ decode 0x0005B507 = .ok (.fldD 10 11 0) ∧
    decode 0x087332AB = .ok (.amoadd 5 6 7 2 0 3) ∧ decode 0x0120000F = .ok (.fenceRel 4) ∧ decode 0x0085100F = .ok (.barInstruction 2 10) ∧
    decode 0x0073229B = .ok (.cfill 5 6 7) ∧ decode 0x0005433B = .ok (.reclaim 6 10) ∧ decode 0x000042F3 = .ok (.time 5) ∧ decode 0x00900393 = .ok (.addi 7 0 9) ∧
    (∀ i, decode 0x00007283 ≠ .ok i) ∧ (∀ i, decode 0x0100000F ≠ .ok i)

/-- Decoding the word of any well-formed instruction gives that instruction back (R285, R286, R287, R288). -/
def Obligations.DecodeInvertsEncode : Prop :=
  ∀ i : Instr, i.wf = true → i.hasWord = true → decode (encode i) = .ok i

/-- A 32-bit word that decodes is the word of the well-formed instruction that it decodes to (R285, R286, R287, R288, R289). -/
def Obligations.EncodeInvertsDecode : Prop :=
  ∀ (w : Nat) (i : Instr), w < 2 ^ 32 → decode w = .ok i → i.wf = true ∧ i.hasWord = true ∧ encode i = w

/-- The register-register instructions, division and remainder among them, write their result and nothing else (R318, R319). -/
def Obligations.RegisterRegisterResults : Prop :=
  ∀ p ∈ binaryOps ++ divisionOps, ∀ (rd a b : Nat) (s : State), NoPort rd → NoPort a → NoPort b →
    Answers (p.1 rd a b) s (retire s rd (p.2 (s.rx a) (s.rx b)))

/-- CLZ, CTZ, POPC, SEXTW and ZEXTW write the count or extension of their source (R320). -/
def Obligations.UnaryResults : Prop :=
  ∀ (rd a : Nat) (s : State), NoPort rd → NoPort a →
    (∃ n, Answers (.clz rd a) s (retire s rd (BitVec.ofNat 64 n)) ∧ n ≤ 64 ∧ (s.rx a).toNat < 2 ^ (64 - n) ∧ (n < 64 → 2 ^ (63 - n) ≤ (s.rx a).toNat)) ∧
    (∃ n, Answers (.ctz rd a) s (retire s rd (BitVec.ofNat 64 n)) ∧ n ≤ 64 ∧ (∀ j, j < n → (s.rx a).getLsbD j = false) ∧ (n < 64 → (s.rx a).getLsbD n = true)) ∧
    Answers (.popc rd a) s (retire s rd (BitVec.ofNat 64 ((List.range 64).countP (fun j => (s.rx a).getLsbD j)))) ∧
    Answers (.sextw rd a) s (retire s rd (((s.rx a).setWidth 32).signExtend 64)) ∧
    Answers (.zextw rd a) s (retire s rd (((s.rx a).setWidth 32).setWidth 64))

/-- The immediate instructions, LUI and AUIPC write their result and nothing else (R321, R322). -/
def Obligations.ImmediateResults : Prop :=
  (∀ p ∈ immediateOps, ∀ (rd a imm : Nat) (s : State), NoPort rd → NoPort a → imm < 4096 →
    Answers (p.1 rd a imm) s (retire s rd (p.2 (s.rx a) ((BitVec.ofNat 12 imm).signExtend 64) (imm % 64)))  ) ∧
    ∀ (rd imm : Nat) (s : State), NoPort rd → imm < 2 ^ 20 →
      Answers (.lui rd imm) s (retire s rd ((BitVec.ofNat 32 (imm * 4096)).signExtend 64)) ∧
      Answers (.auipc rd imm) s (retire s rd ((s.ctx.pc + ((BitVec.ofNat 32 (imm * 4096)).signExtend 64).setWidth 57).setWidth 64))

/-- A source that names a port takes its head word, in field order, or waits taking nothing; a port destination sends the result or waits for room (R178, R278, R318, R319, R320, R321, R322, R325, R331, R175, R169). -/
def Obligations.PortOperandsAreTaken : Prop :=
  (∀ (rd a b imm off w rm : Nat) (s : State),
    let x := (s.take a).1
    let u := (s.take a).2
    let y := (u.take b).1
    let v := (u.take b).2
    let sent (t : State) (r : Word) : State := (t.put rd r).next
    let flagged (t : State) (r : Nat × Flags) : State := sent { t with ctx := { t.ctx with stat := t.ctx.stat ||| word (r.2 % 32 * 256) } } (BitVec.ofNat 64 r.1)
    let f := if w = 0 then fp32 else fp64
    let arg (z : Word) : Nat := if w = 0 then z.toNat % 2 ^ 32 else z.toNat
    let mode := if rm = 7 then wbits s.ctx.stat 6 4 else rm
    (∀ p ∈ binaryOps ++ divisionOps, PortForm s (p.1 rd a b) [a, b] rd (sent v (p.2 x y))) ∧
    (∀ p ∈ unaryOps, PortForm s (p.1 rd a) [a] rd (sent u (p.2 x))) ∧
    (imm < 4096 → ∀ p ∈ immediateOps, PortForm s (p.1 rd a imm) [a] rd (sent u (p.2 x ((BitVec.ofNat 12 imm).signExtend 64) (imm % 64)))) ∧
    (imm < 2 ^ 20 → PortForm s (.lui rd imm) [] rd (sent s ((BitVec.ofNat 32 (imm * 4096)).signExtend 64)) ∧
      PortForm s (.auipc rd imm) [] rd (sent s ((s.ctx.pc + ((BitVec.ofNat 32 (imm * 4096)).signExtend 64).setWidth 57).setWidth 64))) ∧
    (off < 2 ^ 11 → ∀ p ∈ branchOps, (p.2 x y → PortForm s (p.1 a b off) [a, b] 0 (goTo v (s.ctx.pc + (BitVec.ofNat 13 (4 * off)).signExtend 57))) ∧
      (¬ p.2 x y → PortForm s (p.1 a b off) [a, b] 0 (goTo v (s.ctx.pc + 4)))) ∧
    (w < 2 → (∀ p ∈ roundedOps, PortForm s (p.1 w rd a b rm) [a, b] rd (flagged v (p.2 f mode false (arg x) (arg y)))) ∧
      (rd < 28 → PortForm s (.fmadd w rd a b rm) [a, b] rd (flagged v (f.fma mode false (arg x) (arg y) (arg (s.rx rd))))) ∧
      PortForm s (.fsqrt w rd a rm) [a] rd (flagged u (f.sqrt mode false (arg x))) ∧ PortForm s (.fclass w rd a) [a] rd (sent u (BitVec.ofNat 64 (2 ^ f.classify (arg x)))) ∧
      PortForm s (.fmin w rd a b) [a, b] rd (flagged v (f.minmax false false (arg x) (arg y))) ∧ PortForm s (.fmax w rd a b) [a, b] rd (flagged v (f.minmax true false (arg x) (arg y))) ∧
      ∀ c, PortForm s (.fcmp w rd a b c) [a, b] rd (flagged v (if (f.compare c (arg x) (arg y)).1 then 1 else 0, (f.compare c (arg x) (arg y)).2)) ∧
        PortForm s (.fcvt w rd a c rm) [a] rd (flagged u (fcvtResult w c mode x)))) ∧
  (∀ (q : Nat) (w : PortWord) (ws : List PortWord) (s : State), q < 4 → s.heldWords = [] → s.rxOf q = w :: ws →
      (s.take (28 + q)).1 = w.value ∧ (s.take (28 + q)).2.rxOf q = ws ∧ (s.take (28 + q)).2.core.closed.toList.getD q false = w.closing ∧
      (s.take (28 + q)).2.ctx = s.ctx ∧ ∀ r, r < 4 → r ≠ q → (s.take (28 + q)).2.rxOf r = s.rxOf r) ∧
  ∀ (q : Nat) (v : Word) (s : State),
    let e := s.ctx.pdest.toList.getD q 0
    let p := e.toNat % 4
    s.destBad e false = false → wbits e 60 48 = s.pkgNum → s.put (28 + q) v = { s with core := { s.core with tx := s.core.tx.setIfInBounds p (s.core.tx.toList.getD p 0 + 1) }, net := s.net ++ [{ core := s.coreNo, txport := p, kind := wbits e 62 61, unit := wbits e 17 4, town := if wbits e 47 32 = 0 then s.owner else wbits e 47 32, port := p, value := v, closing := false, spilled := 0 }] }

/-- Register-register instructions on registers leave flags, other registers, special registers and memory alone (R317, R318, R319). -/
def Obligations.ScalarIntegerFrame : Prop :=
  ∀ p ∈ binaryOps ++ divisionOps, ∀ (rd a b : Nat) (s t : State), NoPort rd → NoPort a → NoPort b → exec (p.1 rd a b) s = .next t →
    (∀ r, r < 28 → r ≠ rd → t.rx r = s.rx r) ∧ t.rx rd = (if rd = 0 then 0 else p.2 (s.rx a) (s.rx b)) ∧
    t.ctx.v = s.ctx.v ∧ t.ctx.m = s.ctx.m ∧ t.ctx.stat = s.ctx.stat ∧ t.ctx.pdest = s.ctx.pdest ∧ t.ctx.rtb = s.ctx.rtb ∧ t.ctx.rstack = s.ctx.rstack ∧ t.ctx.evc = s.ctx.evc ∧ t.ctx.evcell = s.ctx.evcell ∧
    t.core = s.core ∧ (∀ k, t.byteAt k = s.byteAt k) ∧ (∀ k, t.tagAt k = s.tagAt k)

/-- Scalar floating-point instructions write their result and OR their exceptions into STAT (R323, R324, R325, R326, R327, R328, R329, R308). -/
def Obligations.ScalarFloatResults : Prop :=
  ∀ (w rd a b rm : Nat) (s : State), w < 2 → NoPort rd → NoPort a → NoPort b →
    let f := if w = 0 then fp32 else fp64
    let x (r : Nat) : Nat := if w = 0 then (s.rx r).toNat % 2 ^ 32 else (s.rx r).toNat
    let mode := if rm = 7 then wbits s.ctx.stat 6 4 else rm
    let done (r : Nat × Flags) : State := retireFlags s rd (BitVec.ofNat 64 r.1) r.2
    (∀ p ∈ roundedOps, Answers (p.1 w rd a b rm) s (done (p.2 f mode false (x a) (x b)))) ∧
    Answers (.fsqrt w rd a rm) s (done (f.sqrt mode false (x a))) ∧
    Answers (.fmadd w rd a b rm) s (done (f.fma mode false (x a) (x b) (x rd))) ∧
    Answers (.fmin w rd a b) s (done (f.minmax false false (x a) (x b))) ∧ Answers (.fmax w rd a b) s (done (f.minmax true false (x a) (x b))) ∧
    (∀ c, Answers (.fcmp w rd a b c) s (done (if (f.compare c (x a) (x b)).1 then 1 else 0, (f.compare c (x a) (x b)).2)) ∧ Answers (.fcvt w rd a c rm) s (done (fcvtResult w c mode (s.rx a)))) ∧
    ∃ n, n < 10 ∧ n = f.classify (x a) ∧ Answers (.fclass w rd a) s (retire s rd (BitVec.ofNat 64 (2 ^ n)))

/-- A branch goes to PC plus its offset where its condition holds, else to the next instruction (R331). -/
def Obligations.BranchesGoWhereTheConditionSays : Prop :=
  ∀ p ∈ branchOps, ∀ (a b off : Nat) (s : State), NoPort a → NoPort b → off < 2 ^ 11 →
    (p.2 (s.rx a) (s.rx b) → Answers (p.1 a b off) s (goTo s (s.ctx.pc + (BitVec.ofNat 13 (4 * off)).signExtend 57))) ∧
    (¬ p.2 (s.rx a) (s.rx b) → Answers (p.1 a b off) s (goTo s (s.ctx.pc + 4)))

/-- JAL links through the return stack, RET goes back, and both trap at its ends (R332, R333, R335, R182). -/
def Obligations.CallsAndReturns : Prop :=
  ∀ (rd off : Nat) (s : State), NoPort rd → off < 2 ^ 19 →
    let t := s.ctx.pc + (BitVec.ofNat 21 (4 * off)).signExtend 57
    let l : Word := (s.ctx.pc + 4).setWidth 64
    Answers (.jal 0 off) s (goTo s t) ∧
    (0 < rd → s.ctx.rstack.length < 16 → Answers (.jal rd off) s { s with ctx := { s.ctx with x := s.ctx.x.setIfInBounds rd l, rstack := l :: s.ctx.rstack, rdead := s.ctx.rdead.drop 1, pc := t, wait := .ready, word := none } }) ∧
    (0 < rd → 16 ≤ s.ctx.rstack.length → Answers (.jal rd off) s (s.trap 0x0E 16)) ∧
    (∀ a rest, s.ctx.rstack = a :: rest → Answers .ret s { s with ctx := { s.ctx with rstack := rest, rdead := a :: s.ctx.rdead, pc := a.setWidth 57, wait := .ready, word := none } }) ∧
    (s.ctx.rstack = [] → Answers .ret s (s.trap 0x0E 0))

/-- JT and CALLT go to the table entry's target where a landing pad of the table's label stands (R293, R294, R332, R334). -/
def Obligations.JumpTablesLand : Prop :=
  ∀ (rd a imm h e w : Nat) (s s1 s2 s3 : State), 0 < rd → NoPort rd →
    let table : BitVec 57 := BitVec.ofNat 57 (s.ctx.pc.toNat / 8 * 8 + 8 * (imm12 imm).toNat)
    let entry := (table + 8 + BitVec.ofNat 57 (4 * (s.rx a).toNat)).toNat
    let target := table + BitVec.ofNat 57 (4 * (sext (word e) 32).toNat)
    s.readCode table.toNat 8 = (.word h, s1) → 
    ((s.rx a).toNat < bits h 31 0 → bits h 63 52 = 0 → s1.readCode entry 4 = (.word e, s2) → s2.readCode target.toNat 4 = (.word w, s3) → w = 0x6B + 4096 * bits h 51 32 →
      Answers (.jt a imm) s ((s3.setPc target).holding w) ∧
      (s2.ctx.rstack.length < 16 → s3.ctx.rstack.length < 16 →
        Answers (.callt rd a imm) s ((((s3.setCtx { s3.ctx with rstack := (s3.ctx.pc + 4).setWidth 64 :: s3.ctx.rstack, rdead := s3.ctx.rdead.drop 1 }).wx rd ((s3.ctx.pc + 4).setWidth 64)).setPc target).holding w))) ∧
    (bits h 31 0 ≤ (s.rx a).toNat → Answers (.jt a imm) s (s1.trap 0x03 (s.rx a)) ∧ Answers (.callt rd a imm) s (s1.trap 0x03 (s.rx a)))

/-- LPAD does nothing, FMT sets the pending prefix, and BMANY and BMNONE branch on a mask (R294, R314, R372). -/
def Obligations.PadsPrefixesAndMaskBranches : Prop :=
  ∀ (l b k off : Nat) (s : State), b < 256 → k < 8 → off < 2 ^ 11 →
    let dest := s.ctx.pc + (BitVec.ofNat 13 (4 * off)).signExtend 57
    Answers (.lpad l) s (goTo s (s.ctx.pc + 4)) ∧
    Answers (.fmt b) s { s with ctx := { s.ctx with pc := s.ctx.pc + 4, wait := .ready, word := none, stat := BitVec.ofNat 64 (2 ^ 63 + b * 2 ^ 48 + s.ctx.stat.toNat % 2 ^ 13) } } ∧
    (s.mreg k ≠ 0 → Answers (.bmany k off) s (goTo s dest) ∧ Answers (.bmnone k off) s (goTo s (s.ctx.pc + 4))) ∧
    (s.mreg k = 0 → Answers (.bmany k off) s (goTo s (s.ctx.pc + 4)) ∧ Answers (.bmnone k off) s (goTo s dest))

/-- A local load of the scratchpad writes the bytes at its address, extended to 64 bits, and nothing else (R338, R339, R340, R195, R267, R297). -/
def Obligations.LocalLoadsRead : Prop :=
  ∀ p ∈ loadOps, ∀ (rd a imm : Nat) (s : State),
    let n := p.2.1
    let A := (s.rx a + (BitVec.ofNat 12 imm).signExtend 64).toNat
    let k := sramKey s.coreNo A
    A % n = 0 → A < 0x200000 → s.regionOf A = .scratch → s.splitHolds A = false → s.matHolds s.coreNo A n false = false → s.poisoned k n = false →
    (s.tagAt k = 0 ∨ isMc s.coreNo = true) →
    Answers (p.1 rd a imm) s (retire s rd (p.2.2 (s.natAt k n)))

/-- A local store writes exactly its bytes, and leaves every other byte, register and tag alone (R338, R339, R195, R246, R255). -/
def Obligations.LocalStoresWrite : Prop :=
  ∀ p ∈ storeOps, ∀ (b a imm : Nat) (s : State),
    let n := p.2
    let A := (s.rx a + (BitVec.ofNat 12 imm).signExtend 64).toNat
    let k := sramKey s.coreNo A
    A % n = 0 → A < 0x200000 → s.regionOf A = .scratch → s.splitHolds A = false → s.matHolds s.coreNo A n true = false → isMc s.coreNo = false → s.tagAt k = 0 →
    ∃ t, Answers (p.1 b a imm) s t ∧ (∀ i, i < n → t.byteAt (k + i) = (s.rx b).extractLsb' (8 * i) 8) ∧ (∀ j, j < k ∨ k + n ≤ j → t.byteAt j = s.byteAt j) ∧
      t.tags = s.tags ∧ t.core = s.core ∧ t.ctx = { s.ctx with pc := s.ctx.pc + 4, wait := .ready, word := none }

/-- A local load after a local store of the same width and address reads what was stored (R246, R338, R361). -/
def Obligations.LocalLoadAfterStore : Prop :=
  ∀ p ∈ [(Instr.sb, Instr.lbu, 1), (Instr.sh, Instr.lhu, 2), (Instr.sw, Instr.lwu, 4), (Instr.sd, Instr.ld, 8)], ∀ (b a rd imm : Nat) (s : State),
    let A := (s.rx a + (BitVec.ofNat 12 imm).signExtend 64).toNat
    let k := sramKey s.coreNo A
    A % p.2.2 = 0 → A < 0x200000 → s.regionOf A = .scratch → s.splitHolds A = false → s.matHolds s.coreNo A p.2.2 true = false → isMc s.coreNo = false → s.tagAt k = 0 → s.poisoned k p.2.2 = false →
    0 < rd → NoPort rd →
    ∃ t u, Answers (p.1 b a imm) s t ∧ Answers (p.2.1 rd a imm) t u ∧ u.rx rd = BitVec.ofNat 64 ((s.rx b).toNat % 2 ^ (8 * p.2.2))

/-- Every step keeps memory in its canonical form, addresses rising and no zero byte listed (the model's form of memory, log 2) (R203, R241, R246, R271, R141, R265, R375, R383). -/
def Obligations.MemoryWritersKeepTheCanonicalForm : Prop :=
  (∀ s t : State, Memory.wf s.mem = true → step s = .next t → Memory.wf t.mem = true) ∧ Memory.wf State.reset.mem = true ∧
  ∀ s : State, Memory.wf s.mem = true →
    (∀ p ∈ storeOps, ∀ (b a imm : Nat), let A := (s.rx a + (BitVec.ofNat 12 imm).signExtend 64).toNat
      A % p.2 = 0 → A < 0x200000 → s.regionOf A = .scratch → s.splitHolds A = false → s.matHolds s.coreNo A p.2 true = false → (s.tagAt (sramKey s.coreNo A) = 0 ∨ isMc s.coreNo = true) →
      ∃ t, Answers (p.1 b a imm) s t ∧ Memory.wf t.mem = true) ∧
    ∀ i ∈ [Instr.storeVisible, .matrixCommandStart, .matrixCommandComplete, .scrubComplete, .coldReset, .powerLoss, .thermalTrip],
      ∃ t, Answers i s t ∧ Memory.wf t.mem = true

/-- Misaligned, refused and ungranted accesses take their exceptions in order; cell operands with reserved bits are refused (R339, R195, R181, R341, R345, R250, R343, R352, R353). -/
def Obligations.AccessesTrapInOrder : Prop :=
  ∀ (s : State) (f : Nat → Nat → Nat → Instr) (n w r a imm rt : Nat),
    let v := s.rx a + (BitVec.ofNat 12 imm).signExtend 64
    let va := v.toNat % 2 ^ 57
    let cell := (s.rx a).toNat % 2 ^ 57
    ((f, n) ∈ loadOps.map (fun p => (p.1, p.2.1)) ++ storeOps →
      (v.toNat % n ≠ 0 → Answers (f r a imm) s (s.trapAddr 0x05 v (BitVec.ofNat 64 n))) ∧
      (v.toNat % n = 0 → s.splitHolds v.toNat = true → Answers (f r a imm) s (s.await (.again 0))) ∧
      (v.toNat % n = 0 → s.splitHolds v.toNat = false → (0x200000 ≤ v.toNat ∨ s.regionOf v.toNat = .cache ∨ s.regionOf v.toNat = .refused) → Answers (f r a imm) s (s.trapAddr 0x06 v (BitVec.ofNat 64 (v.toNat % 0x200000))))) ∧
    ((f, w) ∈ farLoadOps ++ farStoreOps → va % 2 ^ w ≠ 0 → Answers (f r a imm) s (s.trapAddr 0x05 (BitVec.ofNat 64 va) (BitVec.ofNat 64 (2 ^ w)))) ∧
    (s.hasGrant s.owner 5 = false → Answers (.fldP w r a rt) s (s.trap 0x07 5) ∧ Answers (.fstP w r a rt) s (s.trap 0x07 5)) ∧
    (cell % 8 ≠ 0 → ∀ p ∈ cellOps, Answers (p.1 r a rt) s (s.trapAddr 0x05 (BitVec.ofNat 64 cell) 8)) ∧
    (cell % 8 = 0 → (wbits (s.rx rt) 61 57 ≠ 0 ∨ wbits (s.rx rt) 4 0 ≠ 0) →
      Answers (.cmk r a rt) s (retire s r 0x8000000000000000) ∧ Answers (.crevert r a rt) s (retire s r 0x8000000000000000))

/-- A far load at its home writes the bytes there to its registers; FLD.P of another package sends its request and waits; a prefetch changes no register (R341, R342, R345, R346, R198, R200, R267, R68, R69, R71, R76). -/
def Obligations.FarLoadsReturn : Prop :=
  (∀ (w rd a rt : Nat) (s : State),
    let va := (s.rx a).toNat % 2 ^ 57
    let g := s.rx rt
    let pkg := State.targetPkg g
    w < 5 → s.hasGrant s.owner 5 = true → va % 2 ^ w = 0 →
    (∀ rid, pkg ≠ s.pkgNum → CanSend s pkg rid → ∃ p ∈ s.usablePorts s.owner pkg,
      Answers (.fldP w rd a rt) s ((requestSent s (s.access (.load w) va (2 ^ w) rd 0 0) s.running 0 pkg (s.targetOwner g) w 0 [] p rid).await (.remote rid))) ∧
    (pkg ≠ s.pkgNum → s.usablePorts s.owner pkg ≠ [] → (s.edgeHolds s.owner pkg = true ∨ s.freeRid (State.requestDie s.coreNo) s.coreNo = none) → Answers (.fldP w rd a rt) s (s.await (.again 0))) ∧
    (∀ c, EdgeRefuses s g c → Answers (.fldP w rd a rt) s ((edgeLogged s g va c).trapAddr 0x0C (BitVec.ofNat 64 va) (BitVec.ofNat 64 c)))) ∧
  ∀ p ∈ farLoadOps, ∀ (i : Instr) (rd a imm rt k : Nat) (repl : Bool) (s t : State),
    let va := (s.rx a + (BitVec.ofNat 12 imm).signExtend 64).toNat % 2 ^ 57
    let n := 2 ^ p.2
    (i = p.1 rd a imm ∨ (i = .fldP p.2 rd a rt ∧ imm = 0 ∧ s.hasGrant s.owner 5 = true ∧ State.targetPkg (s.rx rt) = s.pkgNum ∧ s.targetOwner (s.rx rt) = s.owner)) →
    (InRing s → s.async = true → s.core.combining = [] → va % n = 0 → s.ctx.loads.length < 4 →
      let q := s.withVia (s.access (.load p.2) va n rd 0 0)
      q.2.ctx = s.ctx ∧ (q.1 = s.access (.load p.2) va n rd 0 0 ∨ ∃ x, q.1 = { s.access (.load p.2) va n rd 0 0 with via := some x }) ∧
      Answers i s (State.next (q.2.setCtx { s.ctx with loads := s.ctx.loads ++ [{ acc := q.1, got := none, before := { x := s.ctx.x, v := s.ctx.v, m := s.ctx.m, stat := s.ctx.stat, pc := s.ctx.pc } }] }))) ∧
    (InRing s → s.async = false → s.core.combining = [] → s.l1Find s.coreNo s.owner va = none → s.poolMates s.coreNo = [] → va % n = 0 →
    (s.locate s.coreNo s.owner va n .read = (.at k repl, t) → t.ownPending s.coreNo k true = false → t.hostOwns k = none → t.poisoned k n = false → t.tagOver k n = 0 →
      ∃ u, Answers i s u ∧ u.mem = t.mem ∧ u.tags = t.tags ∧
        u.ctx = loaded t.ctx p.2 rd (BitVec.ofNat 64 (t.natAt k (min 8 n))) (BitVec.ofNat 64 (t.natAt (k + 8) 8))) ∧
    (s.locate s.coreNo s.owner va 1 .read = (.at k repl, t) → t.hostOwns k = none →
      ∃ u, Answers (.fpf a imm) s u ∧ u.mem = (if State.inWindow va then s.mem else t.mem) ∧ u.ctx.x = (if State.inWindow va then s.ctx.x else t.ctx.x) ∧ u.ctx.pc = (if State.inWindow va then s.ctx.pc else t.ctx.pc) + 4))

/-- A far store enters the combining entry of its sector, and memory does not change yet; FST.P of another package sends its bytes at issue (R343, R203, R341, R345, R68, R69, R71, R76). -/
def Obligations.FarStoresEnterCombining : Prop :=
  (∀ (w b a rt : Nat) (s : State),
    let va := (s.rx a).toNat % 2 ^ 57
    let g := s.rx rt
    let pkg := State.targetPkg g
    w < 5 → s.hasGrant s.owner 5 = true → va % 2 ^ w = 0 →
    (∀ rid, pkg ≠ s.pkgNum → CanSend s pkg rid → ∃ p ∈ s.usablePorts s.owner pkg,
      Answers (.fstP w b a rt) s (requestSent s (s.access .store va (2 ^ w) 0 0 0) (8 + s.running) 1 pkg (s.targetOwner g) w 0 ((List.range (2 ^ w)).map (storedByte s b)) p rid).next) ∧
    (pkg ≠ s.pkgNum → s.usablePorts s.owner pkg ≠ [] → (s.edgeHolds s.owner pkg = true ∨ s.freeRid (State.requestDie s.coreNo) s.coreNo = none) → Answers (.fstP w b a rt) s (s.await (.again 0))) ∧
    (∀ c, EdgeRefuses s g c → Answers (.fstP w b a rt) s ((edgeLogged s g va c).report s.owner 0x46 (BitVec.ofNat 64 va) (BitVec.ofNat 64 c)).next)) ∧
  ∀ p ∈ farStoreOps, ∀ (i : Instr) (b a imm rt : Nat) (s : State),
    let va := (s.rx a + (BitVec.ofNat 12 imm).signExtend 64).toNat % 2 ^ 57
    let n := 2 ^ p.2
    let t := s.dropSector s.coreNo s.owner va
    let e : Combine := { slot := s.running, va := sectorStart va, bytes := (List.range n).map (fun i => (va - sectorStart va + i, storedByte s b i)), opened := t.cycle, owner := t.owner, first := va, pairs := if n = 16 then (List.range 16).map (fun i => (va - sectorStart va + i, va - sectorStart va)) else [] }
    (i = p.1 b a imm ∨ (i = .fstP p.2 b a rt ∧ imm = 0 ∧ s.hasGrant s.owner 5 = true ∧ State.targetPkg (s.rx rt) = s.pkgNum ∧ s.targetOwner (s.rx rt) = s.owner)) →
    InRing s → va % n = 0 → s.core.combining.length < 8 → (∀ e ∈ s.core.combining, ¬ (e.slot = s.running ∧ e.va = sectorStart va)) →
    Answers i s { t with core := { t.core with combining := s.core.combining ++ [e] }, ctx := { s.ctx with pc := s.ctx.pc + 4, wait := .ready, word := none } } ∧ ∀ j, t.byteAt j = s.byteAt j

/-- An atomic returns the old value in rd and leaves its operation's result at the home; one of another package sends its request and waits (R348, R347, R349, R256, R355, R345, R68, R69, R71, R76). -/
def Obligations.AtomicsReturnOldAndWrite : Prop :=
  ∀ (op : Nat) (p), atomicOps[op]? = some p → ∀ (rd a b ord pf scope k : Nat) (repl : Bool) (s t : State),
    let va := (s.rx a).toNat % 2 ^ 57
    let n := p.2.1
    let s1 := if s.coreNo < 16384 then s.dropSector s.coreNo s.owner va else s
    let g := s.rx (a + 1)
    let pkg := State.targetPkg g
    let own := s.access (.atomic op) va n rd (s.rx b) (s.rx rd)
    Quiet s → (ord = 0 ∨ s.hasGrant s.owner scope = true) → va % n = 0 →
    (∀ rid, s.hasGrant s.owner 5 = true → pkg ≠ s.pkgNum → CanSend s pkg rid → ∃ q ∈ s.usablePorts s.owner pkg,
      Answers (p.1 rd a b ord 1 scope) s ((requestSent s own s.running 2 pkg (s.targetOwner g) (if n = 4 then 2 else 3) op (toBytes 8 (s.rx b).toNat ++ toBytes 8 (s.rx rd).toNat) q rid).await (.remote rid))) ∧
    (∀ c, s.hasGrant s.owner 5 = true → EdgeRefuses s g c → Answers (p.1 rd a b ord 1 scope) s ((edgeLogged s g va c).trapAddr 0x0C (BitVec.ofNat 64 va) (BitVec.ofNat 64 c))) ∧
    (s.hasGrant s.owner 5 = false → Answers (p.1 rd a b ord 1 scope) s (s.trap 0x07 5)) ∧
    ((pf = 0 ∨ (pf = 1 ∧ s.hasGrant s.owner 5 = true ∧ pkg = s.pkgNum ∧ s.targetOwner g = s.owner)) →
    s1.locate s.coreNo s.owner va n .write = (.at k repl, t) → storage k ≠ .pooled → t.inflight = [] → t.arrived = [] → t.leaseEnd k = 0 → t.hostHolds k = none → t.poisoned k n = false → t.tagAt k = 0 →
    ∃ u, Answers (p.1 rd a b ord pf scope) s u ∧ u.ctx = retired t.ctx rd (BitVec.ofNat 64 (t.natAt k n)) ∧
      u.natAt k n = p.2.2 (t.natAt k n) (s.rx b).toNat (s.rx rd).toNat % 2 ^ (8 * n) ∧ ∀ j, j < k ∨ k + n ≤ j → u.byteAt j = t.byteAt j)

/-- A cell operation answers refusal, bit 63 and the old tag in rd, and the word takes its new tag and contents (R268, R352, R353, R266, R264). -/
def Obligations.CellOperationsAnswer : Prop :=
  ∀ p ∈ cellOps, ∀ (rd a b k h : Nat) (repl r2 : Bool) (s s0 s1 t : State),
    let va := (s.rx a).toNat % 2 ^ 57
    let op := p.2
    let tag := (t.tagAt k).toNat
    let wq := if tag = 1 ∨ tag = 3 then t.natAt k 8 / 2 ^ 63 else 0
    s.async = false → s.core.combining = [] → va % 8 = 0 → ((op = 0 ∨ op = 4) → wbits (s.rx b) 61 57 = 0 ∧ wbits (s.rx b) 4 0 = 0) →
    (if op = 0 then s.ctx.wait ≠ .again 8 ∧ s.locate s.coreNo s.owner (wbits (s.rx b) 56 5 * 32) 8 .write = (.at h r2, s0) ∧ s0.ownPending s0.coreNo h false = false ∧ s0.hostHolds h = none ∧ s0.plainWord h = true ∧
        s1 = s0.putFlight (wbits (s.rx b) 56 5 * 32) h ∧ s1.unseen (h + 4) 4 = false ∧ s1.core.combining = [] ∧ s1.async = false ∧ s1.coreNo = s.coreNo ∧ s1.owner = s.owner else s1 = s) →
    (if s1.coreNo < 16384 then s1.dropSector s.coreNo s.owner va else s1).locate s.coreNo s.owner va 8 (if op = 3 then .read else .write) = (.at k repl, t) → (storage k = .hbm ∨ storage k = .sram) → k % 8 = 0 → tagged k = true →
    t.inflight = [] → t.arrived = [] → t.leaseEnd k = 0 → t.hostHolds k = none → t.poisoned k 8 = false → (op = 4 → tag = 3 → wq = 0) →
    ∃ u, Answers (p.1 rd a b) s u ∧ u.ctx = retired t.ctx rd (BitVec.ofNat 64 (bit (cellRefused op tag wq) * 2 ^ 63 + 4 * wq + tag)) ∧
      (if cellRefused op tag wq = true ∨ op = 3 ∨ (op = 1 ∧ tag = 1) then (u.tagAt k).toNat = tag ∧ u.natAt k 8 = t.natAt k 8
       else if op = 1 then u.tagAt k = 1
       else u.tagAt k = (if op = 2 then 0 else 2) ∧ (¬ (op = 2 ∧ wq = 1) → u.natAt k 8 = (s.rx b).toNat))

/-- A fence passes when no store is outstanding, a release waits for a store its scope covers, and SCOPE guards both (R250, R251, R252, R253). -/
def Obligations.FencesWaitForCoveredStores : Prop :=
  ∀ (scope : Nat) (s : State),
    (s.hasGrant s.owner scope = true → s.core.combining = [] → s.inflight = [] → s.arrived = [] → s.fabric.requests = [] →
      Answers (.fenceAcq scope) s (goTo s (s.ctx.pc + 4)) ∧ Answers (.fenceRel scope) s (goTo s (s.ctx.pc + 4)) ∧ Answers (.fenceAr scope) s (goTo s (s.ctx.pc + 4))) ∧
    (s.hasGrant s.owner scope = true → s.core.combining = [] → (∃ f ∈ s.inflight, f.home = s.coreNo ∧ f.slot = s.running ∧ f.inst = none ∧ State.covers scope f.key = true) →
      Answers (.fenceRel scope) s (s.await (.again 4)) ∧ Answers (.fenceAr scope) s (s.await (.again 4))) ∧
    (s.hasGrant s.owner scope = false →
      Answers (.fenceAcq scope) s (s.trap 0x07 (BitVec.ofNat 64 scope)) ∧ Answers (.fenceRel scope) s (s.trap 0x07 (BitVec.ofNat 64 scope)) ∧ Answers (.fenceAr scope) s (s.trap 0x07 (BitVec.ofNat 64 scope)))

/-- BAR of zero or one participant goes on; the first of more opens an episode and waits; the last completes it (R351, R254). -/
def Obligations.BarriersCountToTheFirstN : Prop :=
  ∀ (scope a : Nat) (s : State), (scope = 1 ∨ scope = 2 ∨ scope = 3 ∨ scope = 4 ∨ scope = 6) → s.hasGrant s.owner scope = true → s.ctx.wait = .ready → Quiet s →
    let n := min (s.rx a).toNat (State.barMax scope)
    let open? := s.findBar scope (s.barName scope) (State.barPlace s.coreNo scope)
    (n = 0 → Answers (.barInstruction scope a) s (goTo s (s.ctx.pc + 4))) ∧
    (n = 1 → open? = none → ∃ t, Answers (.barInstruction scope a) s t ∧ t.ctx = { s.ctx with pc := s.ctx.pc + 4, wait := .ready, word := none } ∧ t.mem = s.mem) ∧
    (1 < n → open? = none → ∃ t b, Answers (.barInstruction scope a) s t ∧ t.ctx = { s.ctx with wait := .bar b.id scope } ∧ t.barriers = s.barriers ++ [b] ∧ b.count = 1 ∧ b.n = n ∧ b.members = [(s.coreNo, s.running)]) ∧
    (0 < n → ∀ b, open? = some b → b.n = b.count + 1 → ∃ t, Answers (.barInstruction scope a) s t ∧ t.ctx = { s.ctx with pc := s.ctx.pc + 4, wait := .ready, word := none } ∧
      (∀ x ∈ t.barriers, x.id ≠ b.id) ∧ ∀ m ∈ b.members, m.1 ≠ s.coreNo → ∀ c, s.slotOf m.1 m.2 = .busy c → t.slotOf m.1 m.2 = .busy { c with wait := .barDone })

/-- A vector load gives each active lane the four bytes at its address and leaves the other lanes; a format that is none takes ILLOP (R359, R360, R361, R358, R356, R357, R314). -/
def Obligations.VectorLoadsRead : Prop :=
  ∀ (vd r b me mk : Nat) (s : State) (i : Instr) (addr : Nat → Word),
    (i, addr) ∈ [(Instr.vld vd r me mk, fun l => s.rx r + BitVec.ofNat 64 (4 * l)), (Instr.vlds vd r b me mk, fun l => s.rx r + BitVec.ofNat 64 l * s.rx b), (Instr.vldx vd r b me mk, fun l => s.rx r + BitVec.ofNat 64 ((s.vreg b).getD l 0))] →
    let good : Prop := ∀ l, l < 16 → s.activeLane me mk l = true → (addr l).toNat % 4 = 0 ∧ (addr l).toNat < 0x200000 ∧ s.regionOf (addr l).toNat = .scratch ∧ s.splitHolds (addr l).toNat = false ∧
      s.matHolds s.coreNo (addr l).toNat 4 false = false ∧ s.poisoned (sramKey s.coreNo (addr l).toNat) 4 = false ∧ s.tagAt (sramKey s.coreNo (addr l).toNat) = 0
    let lanes := (List.range 16).filter (fun l => s.activeLane me mk l)
    (s.async = false → s.effFmt ≤ 7 → good → Answers i s (vecDone s vd me mk fun l => (s.natAt (sramKey s.coreNo (addr l).toNat) 4, 0))) ∧
    (s.async = true → ∀ n l, (((∀ m, s.ctx.wait ≠ .lanes m) ∧ s.effFmt ≤ 7 ∧ n = 0 ∧ good) ∨ s.ctx.wait = .lanes n) → lanes[n]? = some l → (addr l).toNat % 4 = 0 → s.regionOf (addr l).toNat = .scratch →
      let c : Ctx := { s.ctx with v := s.ctx.v.setIfInBounds vd (ofLanes ((s.vreg vd).set l (s.natAt (sramKey s.coreNo (addr l).toNat) 4))) }
      Answers i s { s with ctx := if n + 1 < lanes.length then { c with wait := .lanes (n + 1) } else spent (retired c 0 0) }) ∧
    (s.async = true → s.effFmt ≤ 7 → (∀ m, s.ctx.wait ≠ .lanes m) → lanes = [] → Answers i s { s with ctx := spent (retired s.ctx 0 0) }) ∧
    (8 ≤ s.effFmt → (∀ m, s.ctx.wait ≠ .lanes m) → Answers i s (s.trap 0x01 (BitVec.ofNat 64 (encode i))))

/-- A vector store writes each active lane at its address, the highest lane last, and no other byte; a format that is none takes ILLOP (R359, R360, R361, R358, R357, R314). -/
def Obligations.VectorStoresWrite : Prop :=
  ∀ (vd r b me mk : Nat) (s : State) (i : Instr) (addr : Nat → Word),
    (i, addr) ∈ [(Instr.vst vd r me mk, fun l => s.rx r + BitVec.ofNat 64 (4 * l)), (Instr.vsts vd r b me mk, fun l => s.rx r + BitVec.ofNat 64 l * s.rx b), (Instr.vstx vd r b me mk, fun l => s.rx r + BitVec.ofNat 64 ((s.vreg b).getD l 0))] →
    let good : Prop := ∀ l, l < 16 → s.activeLane me mk l = true → (addr l).toNat % 4 = 0 ∧ (addr l).toNat < 0x200000 ∧ s.regionOf (addr l).toNat = .scratch ∧ s.splitHolds (addr l).toNat = false ∧
      s.matHolds s.coreNo (addr l).toNat 4 true = false ∧ s.tagAt (sramKey s.coreNo (addr l).toNat) = 0
    let lanes := (List.range 16).filter (fun l => s.activeLane me mk l)
    (s.async = true → ∀ n l, (((∀ m, s.ctx.wait ≠ .lanes m) ∧ s.effFmt ≤ 7 ∧ n = 0 ∧ good) ∨ s.ctx.wait = .lanes n) → lanes[n]? = some l → s.regionOf (addr l).toNat = .scratch →
      let k := sramKey s.coreNo (addr l).toNat
      ∃ t, Answers i s t ∧ t.tags = s.tags ∧ t.core = s.core ∧ t.ctx = (if n + 1 < lanes.length then { s.ctx with wait := .lanes (n + 1) } else spent (retired s.ctx 0 0)) ∧
        t.natAt k 4 = (s.vreg vd).getD l 0 ∧ ∀ j, j < k ∨ k + 4 ≤ j → t.byteAt j = s.byteAt j) ∧
    (s.async = true → s.effFmt ≤ 7 → (∀ m, s.ctx.wait ≠ .lanes m) → lanes = [] → Answers i s { s with ctx := spent (retired s.ctx 0 0) }) ∧
    (s.async = false → s.effFmt ≤ 7 → good → ∃ t, Answers i s t ∧ t.tags = s.tags ∧ t.core = s.core ∧ t.ctx = { s.ctx with pc := s.ctx.pc + 4, wait := .ready, word := none, stat := BitVec.ofNat 64 (s.ctx.stat.toNat % 2 ^ 13) } ∧
      (∀ l, l < 16 → s.activeLane me mk l = true → (∀ h, l < h → h < 16 → s.activeLane me mk h = true → addr h ≠ addr l) →
        t.natAt (sramKey s.coreNo (addr l).toNat) 4 = (s.vreg vd).getD l 0) ∧
      (∀ j, (∀ l, l < 16 → s.activeLane me mk l = true → ¬ (sramKey s.coreNo (addr l).toNat ≤ j ∧ j < sramKey s.coreNo (addr l).toNat + 4)) → t.byteAt j = s.byteAt j)) ∧
    (8 ≤ s.effFmt → (∀ m, s.ctx.wait ≠ .lanes m) → Answers i s (s.trap 0x01 (BitVec.ofNat 64 (encode i))))

/-- Vector arithmetic gives each element of an active lane its result; approximations keep R364's bound, whichever value the model picks (log 9) (R362, R363, R364, R357, R358). -/
def Obligations.VectorArithmeticResults : Prop :=
  ∃ approx : Nat → Bool → Nat → Nat × Flags, (∀ p ∈ approxOps, ∀ sat a, a < 2 ^ 32 → approxMeets p.2 sat a (approx p.2 sat a)) ∧
  ∀ (vd va vb me mk : Nat) (s : State),
    let w := widthOf s.effFmt
    (s.effFmt ∈ [0, 1, 2, 6, 7] →
      (∀ p ∈ vecArithOps, Answers (p.1 vd va vb me mk) s (vecDone s vd me mk (eachElem s vd va vb w fun a b c =>
        match fmtOf s.effFmt with
        | some f => p.2.1 f s.effRnd s.effSat a b c
        | none => (fromInt w s.effSat (p.2.2 (toInt w a) (toInt w b) (toInt w c)), 0)))) ∧
      Answers (.vabs vd va me mk) s (vecDone s vd me mk (eachElem s vd va va w fun a _ _ =>
        match fmtOf s.effFmt with
        | some f => State.fpAbs f s.effSat a
        | none => ((toInt w a).natAbs % 2 ^ w, 0)))) ∧
    (s.effFmt = 0 →
      Answers (.vdiv vd va vb me mk) s (vecDone s vd me mk (eachElem s vd va vb 32 fun a b _ => fp32.div s.effRnd s.effSat a b)) ∧
      ∀ p ∈ approxOps, Answers (p.1 vd va me mk) s (vecDone s vd me mk (eachElem s vd va va 32 fun a _ _ => approx p.2 s.effSat a))) ∧
    (s.effFmt ∉ [0, 1, 2, 6, 7] → ∀ i ∈ Instr.vabs vd va me mk :: vecArithOps.map (fun p => p.1 vd va vb me mk), Answers i s (s.trap 0x01 (BitVec.ofNat 64 (encode i)))) ∧
    (s.effFmt ≠ 0 → ∀ i ∈ Instr.vdiv vd va vb me mk :: approxOps.map (fun p => p.1 vd va me mk), Answers i s (s.trap 0x01 (BitVec.ofNat 64 (encode i))))

/-- Bitwise operations, shifts and lane moves give active lanes their result, and VEXT and VINS move one lane (R367, R368, R369, R357). -/
def Obligations.VectorBitsAndMoves : Prop :=
  ∀ (vd va vb me mk r lane : Nat) (s : State), s.effFmt ≤ 7 → vd < 32 → NoPort r → lane < 16 →
    (∀ p ∈ vecBitOps, Answers (p.1 vd va vb me mk) s (vecDone s vd me mk fun i => (p.2 ((s.vreg va).getD i 0) ((s.vreg vb).getD i 0), 0))) ∧
    (s.effFmt ≠ 5 → ∀ p ∈ vecShiftOps, Answers (p.1 vd va vb me mk) s (vecDone s vd me mk (eachElem s vd va vb (widthOf s.effFmt) fun a b _ => (p.2 (widthOf s.effFmt) a (b % widthOf s.effFmt), 0)))) ∧
    Answers (.vsel vd va vb me mk) s (vecDone s vd 0 0 fun i => (if s.activeLane me mk i then (s.vreg va).getD i 0 else (s.vreg vb).getD i 0, 0)) ∧
    Answers (.vshuf vd va vb me mk) s (vecDone s vd me mk fun i => ((s.vreg va).getD ((s.vreg vb).getD i 0 % 16) 0, 0)) ∧
    (vb < 16 → Answers (.vslide vd va vb me mk) s (vecDone s vd me mk fun i => (if i < vb then 0 else (s.vreg va).getD (i - vb) 0, 0)) ∧
      Answers (.vslide vd va (16 + vb) me mk) s (vecDone s vd me mk fun i => (if 15 < i + vb then 0 else (s.vreg va).getD (i + vb) 0, 0))) ∧
    Answers (.vbcast vd r me mk) s (vecDone s vd me mk fun _ => ((s.rx r).toNat % 2 ^ 32, 0)) ∧
    Answers (.vext r va lane) s { s with ctx := { retired s.ctx r ((BitVec.ofNat 32 ((s.vreg va).getD lane 0)).signExtend 64) with stat := BitVec.ofNat 64 (s.ctx.stat.toNat % 2 ^ 13) } } ∧
    Answers (.vins vd r lane) s (retireVec s vd ((s.vreg vd).set lane ((s.rx r).toNat % 2 ^ 32)) 0)

/-- VCVT converts the elements of its part and keeps the others; a bad part takes ILLOP (R370, R356, R309, R357). -/
def Obligations.ConversionsPlaceElements : Prop :=
  ∀ (vd va src p me mk : Nat) (s : State), vd < 32 → s.effFmt ∈ [0, 1, 2, 3, 4, 6, 7] → src ∈ [0, 1, 2, 3, 4, 6, 7] →
    let d := s.effFmt
    let ks := 32 / widthOf src
    let kd := 32 / widthOf d
    let elem (u : State) (c r j : Nat) : Nat := (u.vreg r).getD (j / (32 / widthOf c)) 0 / 2 ^ (widthOf c * (j % (32 / widthOf c))) % 2 ^ widthOf c
    (p < max (kd / ks) (ks / kd) → ∃ t, Answers (.vcvt vd va src p me mk) s t ∧ t.ctx.x = s.ctx.x ∧ t.ctx.m = s.ctx.m ∧ t.ctx.pc = s.ctx.pc + 4 ∧ t.mem = s.mem ∧ (∀ r, r ≠ vd → t.vreg r = s.vreg r) ∧
      ∀ j, j < 16 * kd → elem t d vd j =
        if s.activeLane me mk (j / kd) = true then
          (if ks ≤ kd then (if p * 16 * ks ≤ j ∧ j < (p + 1) * 16 * ks then (convElem src d s.effRnd s.effSat (elem s src va (j - p * 16 * ks))).1 % 2 ^ widthOf d else elem s d vd j)
           else (convElem src d s.effRnd s.effSat (elem s src va (p * 16 * kd + j))).1 % 2 ^ widthOf d)
        else elem s d vd j) ∧
    (max (kd / ks) (ks / kd) ≤ p → Answers (.vcvt vd va src p me mk) s (s.trap 0x01 (BitVec.ofNat 64 (encode (.vcvt vd va src p me mk)))))

/-- VCMP writes a mask bit per lane, VRED a tree reduction, each with its flags, and the mask instructions their word of bits (R365, R366, R371, R277, R357). -/
def Obligations.ComparisonsReductionsAndMasks : Prop :=
  ∀ (d a b vd va vb me mk r : Nat) (s : State), d < 8 → vd < 32 → NoPort r →
    (s.effFmt = 7 → ∀ p ∈ vecCmpOps, ∃ m : BitVec 16, (∀ i, i < 16 → (m.getLsbD i = true ↔ s.activeLane me mk i = true ∧ p.2 (BitVec.ofNat 32 ((s.vreg va).getD i 0)).toInt (BitVec.ofNat 32 ((s.vreg vb).getD i 0)).toInt)) ∧
      Answers (p.1 d va vb me mk) s { retireMask s d m with ctx := { (retireMask s d m).ctx with stat := BitVec.ofNat 64 (s.ctx.stat.toNat % 2 ^ 13) } }) ∧
    (s.effFmt = 0 → ∀ p ∈ vecCmpFloat, ∃ m : BitVec 16, (∀ i, i < 16 → (m.getLsbD i = true ↔ s.activeLane me mk i = true ∧ (p.2 ((s.vreg va).getD i 0) ((s.vreg vb).getD i 0)).1 = true)) ∧
      let fl := unionFlags ((List.range 16).map fun i => if s.activeLane me mk i then (p.2 ((s.vreg va).getD i 0) ((s.vreg vb).getD i 0)).2 else 0)
      Answers (p.1 d va vb me mk) s { retireMask s d m with ctx := { (retireMask s d m).ctx with stat := word (wbits (s.ctx.stat ||| word (fl % 32 * 256)) 12 0) } }) ∧
    (s.effFmt = 0 ∨ s.effFmt = 7 → ∀ p ∈ redOps,
      let f (a b : Nat) : Nat × Flags := if s.effFmt = 0 then p.2.2.1 s.effRnd s.effSat a b else (fromInt 32 s.effSat (p.2.2.2 (toInt 32 a) (toInt 32 b)), 0)
      let t1 (i : Nat) : Nat := if s.activeLane me mk i then (s.vreg va).getD i 0 else if s.effFmt = 0 then p.2.1.1 else p.2.1.2
      let t2 (i : Nat) : Nat := (f (t1 (2 * i)) (t1 (2 * i + 1))).1
      let t4 (i : Nat) : Nat := (f (t2 (2 * i)) (t2 (2 * i + 1))).1
      let t8 (i : Nat) : Nat := (f (t4 (2 * i)) (t4 (2 * i + 1))).1
      let flags (n : Nat) (t : Nat → Nat) : List Flags := (List.range n).map fun i => (f (t (2 * i)) (t (2 * i + 1))).2
      Answers (p.1 vd va me mk) s (retireVec s vd ((f (t8 0) (t8 1)).1 :: List.replicate 15 0) (unionFlags (flags 8 t1 ++ flags 4 t2 ++ flags 2 t4 ++ flags 1 t8)))) ∧
    (s.effFmt ≠ 0 → s.effFmt ≠ 7 → ∀ i ∈ vecCmpOps.map (fun p => p.1 d va vb me mk) ++ redOps.map (fun p => p.1 vd va me mk), Answers i s (s.trap 0x01 (BitVec.ofNat 64 (encode i)))) ∧
    Answers (.mand d a b) s (retireMask s d (s.mreg a &&& s.mreg b)) ∧ Answers (.mor d a b) s (retireMask s d (s.mreg a ||| s.mreg b)) ∧
    Answers (.mxor d a b) s (retireMask s d (s.mreg a ^^^ s.mreg b)) ∧ Answers (.mnot d a b) s (retireMask s d (~~~ s.mreg a)) ∧
    Answers (.mset d r b) s (retireMask s d ((s.rx r).setWidth 16)) ∧
    Answers (.mpop r a b) s (retire s r (BitVec.ofNat 64 ((List.range 16).countP (fun i => (s.mreg a).getLsbD i)))) ∧
    (∃ n, Answers (.mfirst r a b) s (retire s r (BitVec.ofNat 64 n)) ∧ n ≤ 16 ∧ (∀ j, j < n → (s.mreg a).getLsbD j = false) ∧ (n < 16 → (s.mreg a).getLsbD n = true)) ∧
    Answers (.mget r a b) s (retire s r ((s.mreg a).setWidth 64))

/-- Vector instructions leave inactive lanes, other vector registers, scalar and mask registers and memory alone (R358, R362, R367, R317). -/
def Obligations.VectorFrame : Prop :=
  ∀ (vd va vb me mk : Nat) (s t : State) (i : Instr), vd < 32 →
    i ∈ (vecArithOps.map (fun p => p.1 vd va vb me mk) ++ vecBitOps.map (fun p => p.1 vd va vb me mk) ++ vecShiftOps.map (fun p => p.1 vd va vb me mk) ++ approxOps.map (fun p => p.1 vd va me mk) ++
      [.vabs vd va me mk, .vdiv vd va vb me mk, .vshuf vd va vb me mk, .vslide vd va vb me mk]) →
    InRing s → exec i s = .next t → t.live = true → t.ctx.pc = s.ctx.pc + 4 →
    (∀ l, l < 16 → s.activeLane me mk l = false → (t.vreg vd).getD l 0 = (s.vreg vd).getD l 0) ∧ (∀ r, r ≠ vd → t.vreg r = s.vreg r) ∧
    t.ctx.x = s.ctx.x ∧ t.ctx.m = s.ctx.m ∧ t.core = s.core ∧ (∀ k, t.byteAt k = s.byteAt k) ∧ t.ctx.stat.toNat % 256 = s.ctx.stat.toNat % 256 ∧
    (∀ j, 8 ≤ j → j < 13 → s.ctx.stat.getLsbD j = true → t.ctx.stat.getLsbD j = true) ∧ t.ctx.stat.toNat < 2 ^ 13

/-- MCLAIM takes a range of free slots whole or not at all, MREL gives back its own, MSTAT reports (R378, R379, R384). -/
def Obligations.MatrixClaims : Prop :=
  ∀ (rd sa cnt sel : Nat) (s : State), NoPort rd →
    let range := fun n => sa ≤ n ∧ n ≤ sa + cnt
    (s.unitHeld s.coreNo = true → (s.getEntry (State.entryKey 2 (State.quadOf s.coreNo))).scrub = false →
      ((∀ n, range n → s.claimOf s.coreNo n = 4 ∨ s.claimOf s.coreNo n = s.coreNo % 4) →
        ∃ t, Answers (.mclaim rd sa cnt) s t ∧ t.ctx = spent (retired s.ctx rd 0) ∧ (∀ n, range n → t.claimOf t.coreNo n = s.coreNo % 4) ∧ (∀ n, ¬ range n → t.claimOf t.coreNo n = s.claimOf s.coreNo n)) ∧
      ((∃ n, range n ∧ s.claimOf s.coreNo n ≠ 4 ∧ s.claimOf s.coreNo n ≠ s.coreNo % 4) → Answers (.mclaim rd sa cnt) s { s with ctx := spent (retired s.ctx rd 1) }) ∧
      ((∀ m ∈ s.core.matq, ¬ range m.slotA ∧ ¬ range m.slotB) →
        ∃ t, Answers (.mrel sa cnt) s t ∧ t.ctx = spent (retired s.ctx 0 0) ∧
          ∀ n, t.claimOf t.coreNo n = if range n ∧ s.claimOf s.coreNo n = s.coreNo % 4 then 4 else s.claimOf s.coreNo n)) ∧
    (s.unitHeld s.coreNo = false → Answers (.mclaim rd sa cnt) s (s.trap 0x0F 1) ∧ Answers (.mrel sa cnt) s (s.trap 0x0F 1)) ∧
    Answers (.mstat rd sel) s { s with ctx := spent (retired s.ctx rd (s.mstatWord sel)) }

/-- A matrix command that its checks accept joins the end of the queue with its slots, accumulator, address and format (R375, R380, R381, R383). -/
def Obligations.MatrixCommandsQueue : Prop :=
  ∀ (ac sa sb r k : Nat) (s t : State),
    let a := (s.rx r).toNat
    let plain (n : Nat) : Prop := a % 64 = 0 ∧ s.splitSpan s.coreNo a n = false ∧ a + n ≤ scratchSize s.coreNo s.core ∧ ∀ j, j < n / 8 → s.tagAt (sramKey s.coreNo (a + 8 * j)) = 0
    let adds (i : Instr) (u : State) (op x y acc addr : Nat) : Prop := ∃ v m, Answers i s v ∧ v.core.matq = u.core.matq ++ [m] ∧ v.ctx = spent (retired u.ctx 0 0) ∧
      m.op = op ∧ m.slotA = x ∧ m.slotB = y ∧ m.acc = acc ∧ m.addr = addr ∧ m.fmt = s.effFmt ∧ m.rnd = s.effRnd ∧ m.sat = s.effSat ∧ m.started = false
    s.unitHeld s.coreNo = true → (s.getEntry (State.entryKey 2 (State.quadOf s.coreNo))).scrub = false → s.core.matq.length < 4 →
    (s.claims s.coreNo sa = true → plain 4096 → adds (.mload sa r) s 2 sa 64 8 a) ∧
    (s.claims s.coreNo sa = true → a % 4096 = 0 → State.inWindow (a % 2 ^ 57) = false → (∃ x, s.translate (ifaceOf s.coreNo) s.owner (a % 2 ^ 57) .read = (.ok (k, x), t)) → t.scrubbing k = false → t.weightRefusal t.coreNo k = none →
      t.core.matq.length < 4 → t.effFmt = s.effFmt → t.effRnd = s.effRnd → t.effSat = s.effSat → adds (.mldw sa r) t 3 sa 64 8 k) ∧
    (s.claims s.coreNo sa = true → s.claims s.coreNo sb = true → s.effFmt ∈ [0, 1, 2, 3, 4, 6] → adds (.mmul ac sa sb) s 4 sa sb ac 0) ∧
    adds (.mzero ac) s 5 64 64 ac 0 ∧
    (s.effFmt ∈ [0, 1, 2, 3, 4, 6, 7] → plain (128 * widthOf s.effFmt) → adds (.mstore ac r) s 6 64 64 ac a)

/-- Matrix loads fill their slot when they start; MZERO, MMUL and MSTORE have their effect when they complete (the times are the model's choice, log 26) (R311, R310, R374, R375, R380, R381, R383, R309, R304). -/
def Obligations.MatrixCommandsActInPlace : Prop :=
  ∀ (s : State) (core : Nat), s.arg.a = core →
    let acc (m : MatCmd) (i j : Nat) : Nat := accKey core m.acc (128 * i + 4 * j)
    (∀ before m rest, State.nextMat (s.getCore core).matq = some (before, m, rest) → State.matClear (s.getCore core).matq = true → s.enginesHalt core = false →
      let fills (k : Nat) : Prop := ∃ t, Answers .matrixCommandStart s t ∧ (∀ j, j < 4096 → t.byteAt (slotKey (core / 4) m.slotA j) = s.byteAt (k + j)) ∧
        ∀ j, ¬ (slotKey (core / 4) m.slotA 0 ≤ j ∧ j < slotKey (core / 4) m.slotA 0 + 4096) → t.byteAt j = s.byteAt j
      (m.op = 2 → fills (sramKey core m.addr)) ∧
      (m.op = 3 → m.recheck = false → s.time ≤ m.stop + s.clock.skb → s.weightRefusal core m.addr = none → s.scrubbing m.addr = false → s.bankFree m.addr 200 = true → fills m.addr)) ∧
    (∀ m, (s.getCore core).matq.find? (fun m => m.started) = some m →
      (m.op = 5 → ∃ t, Answers .matrixCommandComplete s t ∧ ∀ j, t.byteAt j = if accKey core m.acc 0 ≤ j ∧ j < accKey core m.acc 4096 then 0 else s.byteAt j) ∧
      (m.op = 4 → m.fmt ≤ 6 → ∃ t, Answers .matrixCommandComplete s t ∧
        (∀ i j, i < 32 → j < 32 → t.natAt (acc m i j) 4 =
          let a := slotKey (core / 4) m.slotA 0
          let b := slotKey (core / 4) m.slotB 0
          if m.fmt = 6 then mmulInteger m.sat (s.natAt (acc m i j) 4) (fun e => s.byteAt (a + 128 * i + e)) (fun e => s.byteAt (b + 128 * j + e))
          else mmulElement m.sat (s.natAt (acc m i j) 4) (1024 / widthOf m.fmt) (tileValue s a m.fmt m.headers i) (tileValue s b m.fmt (m.headers.drop 256) j)) ∧
        ∀ j, ¬ (accKey core m.acc 0 ≤ j ∧ j < accKey core m.acc 4096) → t.byteAt j = s.byteAt j) ∧
      (m.op = 6 → m.fmt ∈ [0, 1, 2, 3, 4, 6, 7] → m.addr % 64 = 0 →
        let w := widthOf m.fmt / 8
        let place (i j : Nat) : Nat := sramKey core (m.addr + (32 * i + j) * w)
        ∃ t, Answers .matrixCommandComplete s t ∧ (∀ i j, i < 32 → j < 32 → t.natAt (place i j) w = stored m (s.natAt (acc m i j) 4) % 2 ^ (8 * w)) ∧
          (∀ k, place 0 0 ≤ k → k < place 32 0 → t.tagAt k = 0) ∧ ∀ k, ¬ (place 0 0 ≤ k ∧ k < place 32 0) → t.byteAt k = s.byteAt k ∧ t.tagAt k = s.tagAt k))

/-- CPY and CPYS queue a command and count it, its engine moves its bytes row by row, CPYW waits for the count and clears the error, CSTAT reports (R387, R388, R389, R390, R391, R234, R257). -/
def Obligations.CopiesAreQueuedAndCounted : Prop :=
  (∀ (s : State) (u : Nat) (c : CopyCmd), Answers .engineCommandComplete s (s.engineRun s.arg.a 4096) ∧ s.engineRun u 4096 = (s.engineStep u).engineRun u 4095 ∧
    (Performing s u c → c.kind = 0 → c.add = 0 →
      (c.rows ≤ c.row → s.engineStep u = State.releaseLines (s.setHead u { c with res := some (BitVec.ofNat 64 ((c.row * c.rowb + c.off) % 2 ^ 48 * 2 ^ 8)) })) ∧
      (let a := CopyCmd.wrap (c.src + c.row * c.sstride + c.off)
       let d := CopyCmd.wrap (c.dst + c.row * c.dstride + c.off)
       let n := min (c.rowb - c.off) (4096 - d % 4096)
       ∀ ks kd c1 s1 c2 s2, c.row < c.rows → 0 < n → ReadSpot s u c a n ks c1 s1 → WriteSpot s1 u c1 d n kd c2 s2 → s2.sourceStop ks n false true = none → c2 = { c with pages := c2.pages } →
        Moved s2 (s.engineStep u) kd 0 (s2.bytesAt ks n) ∧ Advanced (s.engineStep u) u c n c.rowb))) ∧
  ∀ (rc d r n rd : Nat) (s : State), InRing s → s.core.combining = [] →
    let status := (BitVec.ofNat 64 (s.ctx.copyErr.toNat / 256 * 256 + min s.ctx.copyCount 255) : Word)
    let rows := (s.rx n).toNat / 2 ^ 32
    let rowb := (s.rx n).toNat % 2 ^ 32
    let adds (i : Instr) (f : CopyCmd → Prop) : Prop := ∃ t c, Answers i s t ∧ f c ∧ t.core.copyq = s.core.copyq ++ [c] ∧ c.owner = s.owner ∧ c.started = false ∧ c.res = none ∧
      c.dst = (s.rx d).toNat % 2 ^ 57 ∧ c.src = (s.rx r).toNat % 2 ^ 57 ∧ c.cell = (s.rx rc).toNat % 2 ^ 57 ∧ t.ctx = { s.ctx with copyCount := s.ctx.copyCount + 1, pc := s.ctx.pc + 4, wait := .ready, word := none } ∧ ∀ k, t.byteAt k = s.byteAt k
    (s.core.copyq.length < 4 → (s.rx rc).toNat % 8 = 0 → 0 < (s.rx n).toNat → (s.rx n).toNat < 2 ^ 48 → adds (.cpy rc d r n 0) (fun c => c.rowb = (s.rx n).toNat ∧ c.rows = 1)) ∧
    (s.core.copyq.length < 4 → (s.rx rc).toNat % 8 = 0 → 0 < rows → rows ≤ 65536 → 0 < rowb → rowb ≤ 2 ^ 24 → rows * rowb < 2 ^ 48 →
      adds (.cpys rc d r n 0) (fun c => c.rowb = rowb ∧ c.rows = rows ∧ c.dstride = ((s.rx (n + 1)).extractLsb' 32 32).toInt ∧ c.sstride = ((s.rx (n + 1)).extractLsb' 0 32).toInt)) ∧
    ((s.rx n = 0 ∨ 2 ^ 48 ≤ (s.rx n).toNat) → Answers (.cpy rc d r n 0) s (s.trap 0x10 1)) ∧
    ((s.rx r).toNat < s.ctx.copyCount → Answers (.cpyw rd r) s (s.await (.again 0))) ∧
    (s.ctx.copyCount ≤ (s.rx r).toNat → Answers (.cpyw rd r) s { s with ctx := { retired s.ctx rd status with copyErr := 0 } }) ∧
    Answers (.cstat rd) s (retire s rd status)

/-- A memory-core instruction starts its command, whose engine pushes, gathers or sums its bytes; once it has ended visibly, rd takes its result word (R392, R393, R394, R395, R396, R390, R312). -/
def Obligations.MemoryCoreCommandsAnswer : Prop :=
  (∀ (s : State) (u : Nat) (c : CopyCmd), Performing s u c → isMc u = true →
    let rest (a : Nat) (len : Nat) : Nat := min (len - c.off) (4096 - a % 4096)
    (c.kind = 1 → c.row < c.rows →
      let d := CopyCmd.wrap (c.dst + c.off)
      let n := rest d c.rowb
      let ks := sramKey u (c.src + c.off)
      ∀ kd c2 s2, 0 < n → s.hostOwnsRun ks n = none → WriteSpot s u c d n kd c2 s2 → s2.sourceStop ks n false true = none → c2 = { c with pages := c2.pages } →
        Moved s2 (s.engineStep u) kd c.add (s2.bytesAt ks n) ∧ Advanced (s.engineStep u) u c n c.rowb) ∧
    (c.kind = 2 → c.row < c.rows →
      let a := CopyCmd.wrap (c.src + c.index.getD c.row 0 * c.sstride + c.sums.length)
      let d := CopyCmd.wrap (c.dst + c.row * c.dstride + c.off)
      let n := min (c.rowb - c.sums.length) (4096 - a % 4096)
      (∀ ks c1 s1, c.sums.length < c.rowb → ReadSpot s u c a n ks c1 s1 → s1.sourceStop ks n false true = none → s1.engineQueue u ≠ [] → c1 = { c with pages := c1.pages } →
        ∃ q, ((s.engineStep u).engineQueue u).head? = some q ∧ q.sums = c.sums ++ (s1.bytesAt ks n).map (·.toNat) ∧ q.row = c.row ∧ q.off = c.off) ∧
      ∀ kd c2 s2, c.rowb ≤ c.sums.length → 0 < rest d c.rowb → WriteSpot s u c d (rest d c.rowb) kd c2 s2 → c2 = { c with pages := c2.pages } →
        Moved s2 (s.engineStep u) kd c.add (((c.sums.map (BitVec.ofNat 8)).drop c.off).take (rest d c.rowb)) ∧ Advanced (s.engineStep u) u c (rest d c.rowb) c.rowb) ∧
    (c.kind = 3 →
      let a := CopyCmd.wrap (c.src + c.index.getD c.row 0 * c.sstride + c.off)
      let d := CopyCmd.wrap (c.dst + c.off)
      let w := widthOf c.sfmt / 8
      (∀ ks c1 s1, c.row < c.rows → 0 < rest a c.rowb → ReadSpot s u c a (rest a c.rowb) ks c1 s1 → s1.sourceStop ks (rest a c.rowb) false true = none → s1.engineQueue u ≠ [] → c1 = { c with pages := c1.pages } →
        Advanced (s.engineStep u) u c (rest a c.rowb) c.rowb ∧ ∃ q, ((s.engineStep u).engineQueue u).head? = some q ∧ q.sums.length = c.sums.length ∧ ∀ e, e < c.sums.length → q.sums.getD e 0 =
          if c.off / w ≤ e ∧ e < c.off / w + rest a c.rowb / w then
            let v := s1.natAt (ks + (e - c.off / w) * w) w
            let x := match fmtOf c.sfmt with | some f => if c.sfmt = 0 then v else (convFloat f fp32 0 false v).1 | none => v
            match c.weights[c.row]? with | some g => (fp32.fma 0 false g x (c.sums.getD e 0)).1 | none => (fp32.add 0 false (c.sums.getD e 0) x).1
          else c.sums.getD e 0) ∧
      ∀ kd c2 s2, c.row = c.rows → 0 < rest d (4 * c.sums.length) → WriteSpot s u c d (rest d (4 * c.sums.length)) kd c2 s2 → c2 = { c with pages := c2.pages } →
        Moved s2 (s.engineStep u) kd c.add (((c.sums.map (toBytes 4)).flatten.drop c.off).take (rest d (4 * c.sums.length))) ∧ Advanced (s.engineStep u) u c (rest d (4 * c.sums.length)) (4 * c.sums.length)) ∧
    ((if c.kind = 3 then c.rows + 1 else c.rows) ≤ c.row → c.kind = 1 ∨ c.kind = 2 ∨ c.kind = 3 →
      s.engineStep u = State.releaseLines (s.setHead u { c with res := some (BitVec.ofNat 64 ((if c.kind = 1 then c.row * c.rowb + c.off else min c.row c.rows) % 2 ^ 48 * 2 ^ 8)) }))) ∧
  ∀ (rd a b c x : Nat) (s : State) (i : Instr), i ∈ [.mpush rd a b c x, .mgath rd a, .mpool rd a x] → InRing s → s.core.combining = [] →
    let param : Word := BitVec.ofNat 64 (2 ^ 63 + 10 * 2 ^ 56)
    let refused (addr : Nat) : State := retire (s.report s.owner 0x48 (BitVec.ofNat 64 addr) param) rd param
    (∀ q l w, s.core.copyq = q :: l → q.res = some w → q.visible ≤ s.time → (∀ a ∈ s.arrived, a.core ≠ engineCore s.coreNo) → s.coreNo < 17500 → ∃ t, Answers i s t ∧ t.ctx = retired s.ctx rd w ∧ t.core.copyq = l ∧ t.mem = s.mem) ∧
    (s.core.copyq = [] →
      (((s.rx c).toNat % 2 ^ 32 < 4 ∨ 262144 < (s.rx c).toNat % 2 ^ 32 ∨ (s.rx c).toNat % 2 ^ 32 % 4 ≠ 0) → Answers (.mpush rd a b c x) s (refused ((s.rx a).toNat % 2 ^ 57))) ∧
      ((s.rx a).toNat % 64 ≠ 0 → Answers (.mgath rd a) s (refused 0) ∧ Answers (.mpool rd a x) s (refused 0)) ∧
      (4 ≤ (s.rx c).toNat → (s.rx c).toNat ≤ 262144 → (s.rx c).toNat % 4 = 0 → (s.rx a).toNat % 4 = 0 → (s.rx b).toNat % 4 = 0 → (s.rx b).toNat + (s.rx c).toNat ≤ 0x40000 →
        ∃ t q, Answers (.mpush rd a b c x) s t ∧ t.core.copyq = [q] ∧ q.dst = (s.rx a).toNat % 2 ^ 57 ∧ q.src = (s.rx b).toNat ∧ q.rowb = (s.rx c).toNat ∧ q.add = x ∧ q.target = none ∧ q.started = false ∧ t.ctx = { s.ctx with wait := .again 0 }))

/-- SPAWN of a good task packet stamps its flight and queues it when it depends on nothing; of a posted instar it resumes it (R397, R398, R399, R166). -/
def Obligations.SpawnMakesWorkReady : Prop :=
  ∀ (rd a b h : Nat) (repl : Bool) (ws : List Word) (s t u w : State), NoPort rd → Quiet s →
    let deps := wbits (ws.getD 1 0) 63 48
    let prio := wbits (ws.getD 1 0) 39 38
    (4 ≤ (s.rx b).toNat → Answers (.spawn rd a b) s (retire s rd 5)) ∧
    ((s.rx b) = 0 → State.badHandle (s.rx a) = false → s.readPacket s.coreNo s.owner (s.rx a).toNat = (.ok ws, t) → State.malformed ws t.core.clim = false →
      t.locate t.coreNo t.owner (s.rx a).toNat 8 .write = (.at h repl, u) → u.inflight = [] → u.arrived = [] → u.hostHolds h = none → storage h ≠ .pooled → u.workWaits u.coreNo u.running = false → u.tagAt h = 0 → u.natAt (h + 4) 4 = 0 → InRing u →
      (if deps = 0 then RingReady u u.workDie prio w else w = u) → w.arrived = [] → w.leaseEnd (h + 4) = 0 → InRing w →
      ∃ f, f.natAt (h + 4) 4 = w.ctx.flight % 2 ^ 32 ∧ f.ctx = w.ctx ∧ f.rings = w.rings ∧
        Answers (.spawn rd a b) s (retire (if deps = 0 then State.pushRing f w.owner w.workDie prio (.task (s.rx a).toNat w.ctx.flight prio none) else f) rd (if deps = 0 then 0 else 1))) ∧
    (∀ i, s.rx b = 1 → (s.rx a).toNat % 2 ^ 28 = 0 → (State.keyOf (s.rx a)).owner = s.owner → s.getInstar (State.keyOf (s.rx a)) = some i → i.state = .posted → i.tethered = none → s.workWaits s.coreNo s.running = false →
      RingReady s (State.keyOf (s.rx a)).die i.prio t →
      ∃ v, Answers (.spawn rd a b) s v ∧ v.ctx = retired t.ctx rd 0 ∧ v.getInstar (State.keyOf (s.rx a)) = some { i with state := .ready } ∧
        v.ring (State.keyOf (s.rx a)).owner (State.keyOf (s.rx a)).die i.prio = t.ring (State.keyOf (s.rx a)).owner (State.keyOf (s.rx a)).die i.prio ++ [.instar (State.keyOf (s.rx a)).slot (State.keyOf (s.rx a)).die i.flight])

/-- YIELD and SUSP leave the ring slot empty and the registers in a ready instar with PC past them (R163, R164, R170, R180, R400, R161). -/
def Obligations.LeavingTheRingSavesTheContext : Prop :=
  ∀ (rd a n : Nat) (s t w : State), InRing s → s.core.combining = [] → s.coreNo < 16384 → s.findRoom = (.at n, t) → t.workWaits t.coreNo t.running = false → RingReady t t.workDie t.ctx.prio w →
    let saved (i : Instar) : Prop := i.state = .ready ∧ i.pc = s.ctx.pc + 4 ∧ i.regs = s.ctx.x ∧ i.rstack = s.ctx.rstack ∧ i.stat = s.ctx.stat ∧ i.rtb = s.ctx.rtb ∧ i.pdest = s.ctx.pdest ∧ i.evc = s.ctx.evc ∧ i.evcell = s.ctx.evcell ∧ i.prio = s.ctx.prio ∧ i.flight = s.ctx.flight
    let gone (u : State) : Prop := u.live = false ∧ u.core.slots.toList.getD s.running (.empty 9) = .empty 0 ∧ u.core.pages.toList.getD s.running 9 = s.core.pages.toList.getD 4 9 ∧ u.core.pages.toList.getD 4 9 = s.core.pages.toList.getD s.running 9
    (∃ u i, Answers .yield s u ∧ gone u ∧ u.getInstar (ownKey s n) = some i ∧ saved i ∧ i.why = 1 ∧ i.long = true) ∧
    (∀ l, l = (List.range 27).countP (fun j => (s.rx a).getLsbD j) → (s.rx a).toNat < 2 ^ 27 → l ≤ 16 →
      ∃ u i, Answers (.susp rd a 0) s u ∧ gone u ∧ u.getInstar (ownKey s n) = some i ∧ saved i ∧ i.why = 0 ∧ i.dreg = rd ∧ i.mask = (s.rx a).toNat ∧ (i.long = true ↔ 5 < l))

/-- HALT and DONE of a packet without successors end the context once its engines and stores are done (R159, R336, R401). -/
def Obligations.EndingFreesTheSlot : Prop :=
  ∀ (a : Nat) (ws : List Word) (s t : State), Quiet s → wbits s.ctx.evc 63 63 = 0 →
    (s.enginesDone = true → ∃ u, Answers .halt s u ∧ u.live = false ∧ u.core.slots.toList.getD s.running (.empty 9) = .empty 0 ∧ u.mem = s.mem ∧ ∀ k, k ≠ s.running → u.core.slots.toList.getD k (.empty 9) = s.core.slots.toList.getD k (.empty 9)) ∧
    (s.enginesDone = true → State.badHandle (s.rx a) = false → s.readPacket s.coreNo s.owner (s.rx a).toNat = (.ok ws, t) → State.malformed ws t.core.clim = false → wbits (ws.getD 1 0) 47 43 = 0 → wbits t.ctx.evc 63 63 = 0 → t.running = s.running →
      ∃ u, Answers (.done a) s u ∧ u.live = false ∧ u.core.slots.toList.getD s.running (.empty 9) = .empty 0 ∧ u.mem = t.mem) ∧
    (s.enginesDone = false → Answers .halt s (s.await (.again 0)) ∧ Answers (.done a) s (s.await (.again 0)))

/-- MSEND sends through its table entry and counts; MSENDC sends the count; MWAIT and MPEEK report the queues (R175, R178, R403, R404, R405). -/
def Obligations.MessagesSendAndArrive : Prop :=
  ∀ (a b rd : Nat) (s : State), NoPort a → NoPort b → NoPort rd →
    let k := sramKey s.coreNo (s.ctx.rtb.toNat + 8 * ((s.rx a).toNat % 64))
    let e := s.wordAt k
    let p := e.toNat % 4
    let sent (t : State) (closing : Bool) (v : Word) (n : Nat) : Prop :=
      t.net = s.net ++ [{ core := s.coreNo, txport := p, kind := wbits e 62 61, unit := wbits e 17 4, town := if wbits e 47 32 = 0 then s.owner else wbits e 47 32, port := p, value := v, closing := closing, spilled := 0 }] ∧
      wbits (t.wordAt k) 31 18 = n ∧ t.core.tx.toList.getD p 0 = s.core.tx.toList.getD p 0 + 1 ∧ t.ctx = { s.ctx with pc := s.ctx.pc + 4, wait := .ready, word := none } ∧ ∀ j, j < k ∨ k + 8 ≤ j → t.byteAt j = s.byteAt j
    (s.splitSpan s.coreNo s.ctx.rtb.toNat 512 = false → s.ctx.rtb.toNat + 512 ≤ scratchSize s.coreNo s.core → s.destBad e true = false → wbits e 60 48 = s.pkgNum → s.txRoom p = true →
      (∃ t, Answers (.msend a b) s t ∧ sent t false (s.rx b) (min (wbits e 31 18 + 1) 0x3FFF)) ∧ (∃ t, Answers (.msendc a) s t ∧ sent t true (BitVec.ofNat 64 (wbits e 31 18)) 0)) ∧
    (s.ctx.wait = .ready → s.rx b = 0 → Answers (.mwait rd a b) s (retire s rd (BitVec.ofNat 64 ((s.rx a).toNat % 16 &&& s.nonempty)))) ∧
    (s.ctx.wait = .ready → (s.rx a).toNat % 16 &&& s.nonempty ≠ 0 → Answers (.mwait rd a b) s (retire s rd (BitVec.ofNat 64 ((s.rx a).toNat % 16 &&& s.nonempty)))) ∧
    (s.ctx.wait = .ready → (s.rx a).toNat % 16 &&& s.nonempty = 0 → s.rx b = BitVec.allOnes 64 → Answers (.mwait rd a b) s (s.await (.mwait ((s.rx a).toNat % 16) none))) ∧
    (∀ q, q < 4 → (q ∈ [0, 1, 2, 3] ∧ ((s.nonempty / 2 ^ q) % 2 = 1 ↔ s.rxOf q ≠ []))) ∧
    Answers (.mpeek rd a) s (retire s rd (s.portStatus ((s.rx a).toNat % 4)))

/-- GETS reads each state register, SETS writes those that are writable as their fields say, and TIME reads the time base (R279, R280, R282, R283, R284, R196, R19, R171, R213, R204, R205). -/
def Obligations.StateRegistersReadAndWrite : Prop :=
  ∀ (rd r : Nat) (s : State), NoPort rd → NoPort r →
    let v := s.rx r
    let upd (c : Ctx) : State := { s with ctx := { c with pc := s.ctx.pc + 4, wait := .ready, word := none } }
    (∀ p ∈ [(0x000, s.ctx.stat), (0x004, s.ctx.scla), (0x005, s.ctx.sclb), (0x006, s.ctx.ela), (0x007, s.ctx.elb), (0x008, s.ctx.ssha), (0x009, s.ctx.sshb), (0x00A, s.ctx.pdest[0]), (0x00B, s.ctx.pdest[1]), (0x00C, s.ctx.pdest[2]), (0x00D, s.ctx.pdest[3]), (0x00E, s.ctx.rtb),
        (0x00F, BitVec.ofNat 64 s.time), (0x010, BitVec.ofNat 64 s.clock.skb), (0x012, BitVec.ofNat 64 s.owner), (0x013, s.ctx.evc), (0x014, s.core.cbase), (0x015, BitVec.ofNat 64 s.core.clim),
        (0x001, BitVec.ofNat 64 ((0x17B + s.core.pages.toList.getD s.running 0) * 2 ^ 12 + s.running)),
        (0x011, let t := (s.time + 2000 * s.workDie) % 32000
          BitVec.ofNat 64 (2000 * s.workDie * 2 ^ 32 + t / 1000 * 2 ^ 16 + (1000 - t % 1000))), (0x002, BitVec.ofNat 64 (s.core.mwt * 2 ^ 28 + s.core.cbanks)), (0x003, if s.core.pool then 1 else 0)],
      Answers (.gets rd p.1) s (retire s rd p.2)) ∧
    Answers (.time rd) s (retire s rd (BitVec.ofNat 64 s.time)) ∧
    (let a := (v.setWidth 57).setWidth 64
     Answers (.sets r 0x004) s (upd { s.ctx with scla := a }) ∧ Answers (.sets r 0x005) s (upd { s.ctx with sclb := a }) ∧ Answers (.sets r 0x006) s (upd { s.ctx with ela := a }) ∧ Answers (.sets r 0x007) s (upd { s.ctx with elb := a })) ∧
    Answers (.sets r 0x008) s (upd { s.ctx with ssha := v &&& 31 }) ∧ Answers (.sets r 0x009) s (upd { s.ctx with sshb := v &&& 31 }) ∧
    Answers (.sets r 0x00A) s (upd { s.ctx with pdest := s.ctx.pdest.set 0 (v &&& 0xFFFFFFFF0003FFF3) }) ∧ Answers (.sets r 0x00B) s (upd { s.ctx with pdest := s.ctx.pdest.set 1 (v &&& 0xFFFFFFFF0003FFF3) }) ∧
    Answers (.sets r 0x00C) s (upd { s.ctx with pdest := s.ctx.pdest.set 2 (v &&& 0xFFFFFFFF0003FFF3) }) ∧ Answers (.sets r 0x00D) s (upd { s.ctx with pdest := s.ctx.pdest.set 3 (v &&& 0xFFFFFFFF0003FFF3) }) ∧
    Answers (.sets r 0x00E) s (upd { s.ctx with rtb := v &&& 0x1FFFF8 }) ∧
    (v.toNat % 16 < 8 → v.toNat / 16 % 8 < 5 → Answers (.sets r 0x000) s (upd { s.ctx with stat := (s.ctx.stat &&& 0x80FF000000000000) ||| (v &&& 0x1FFF) })) ∧
    ((8 ≤ v.toNat % 16 ∨ 5 ≤ v.toNat / 16 % 8) → Answers (.sets r 0x000) s (upd s.ctx)) ∧
    (∀ n, n ∈ [0x001, 0x00F, 0x010, 0x011, 0x012, 0x013, 0x014, 0x015] → Answers (.sets r n) s (upd s.ctx)) ∧
    (v.toNat % 2 = 1 → Answers (.sets r 0x003) s { upd s.ctx with core := { s.core with pool := true } }) ∧
    (v.toNat % 2 = 0 → Answers (.sets r 0x003) s { upd s.ctx with core := { s.core with pool := false, l1 := s.core.l1.filter (fun e => e.held == s.coreNo) } }) ∧
    (s.core.splitChange = none → s.core.splitWaits = [] → State.cbanksOf v = s.core.cbanks → Answers (.sets r 0x002) s { upd s.ctx with core := { s.core with mwt := v.toNat / 2 ^ 28 % 16, cbanks := s.core.cbanks } })

/-- TRAP, BKPT and an encoding that is no instruction freeze the context with its registers and tell its owner (R181, R182, R183, R184, R408, R289). -/
def Obligations.TakingAnException : Prop :=
  ∀ (r imm w n : Nat) (s t : State), InRing s → s.core.combining = [] → s.findRoom = (.at n, t) →
    ∀ (i : Instr) (cause : Nat) (detail : Word) (pc : BitVec 57), (i, cause, detail, pc) ∈ [(.trap r imm, 0x13, s.rx r + (BitVec.ofNat 12 imm).signExtend 64, s.ctx.pc + 4), (.bkpt, 0x14, 0, s.ctx.pc), (.illop w, 0x01, BitVec.ofNat 64 w, s.ctx.pc)] →
    ∃ u x, Answers i s u ∧ u.live = false ∧ u.core.slots.toList.getD s.running (.empty 9) = .empty 0 ∧ u.getInstar (ownKey s n) = some x ∧ x.why = 4 ∧ x.long = true ∧ x.pc = pc ∧ x.regs = s.ctx.x ∧ x.stat = s.ctx.stat ∧ x.rstack = s.ctx.rstack ∧ x.flight = s.ctx.flight ∧
      (x.state = .posted ∨ (x.state = .held ∧ ∃ p, (u.ownerRec s.owner).held.getLast? = some p ∧ p.cause = cause ∧ p.detail = detail ∧ p.key = some (ownKey s n) ∧ p.pc = s.ctx.pc.setWidth 64))

/-- An ownership instruction with nothing outstanding performs its operation and writes its status; contexts it stops then leave (the order: the model's, log 34) (R128, R406, R407, R136). -/
def Obligations.OwnershipOperationsAnswer : Prop :=
  ∀ (rd a b c op : Nat) (s t : State) (i : Instr) (x y z : Word) (st : Nat) (ws : List Word),
    (i, op, x, y, z) ∈ [(Instr.give rd a b c, 0, s.rx a, s.rx b, s.rx c), (.accept rd a, 1, s.rx a, 0, 0), (.lend rd a b c, 2, s.rx a, s.rx b, s.rx c), (.returnLoan rd a, 3, s.rx a, 0, 0), (.reclaim rd a, 4, s.rx a, 0, 0), (.ownq rd a b c, 5, s.rx a, s.rx b, s.rx c), (.salvage rd a, 6, s.rx a, 0, 0), (.pulse rd, 7, 0, 0, 0)] →
    Quiet s → (op = 0 → s.readsImage s.owner x y = false) → (op = 5 → z.toNat % 64 = 0 ∧ z.toNat + 64 ≤ scratchSize s.coreNo s.core ∧ s.splitSpan s.coreNo z.toNat 64 = false) → s.ownPerform s.coreNo op s.owner x y z [] = (some (st, ws), t) →
    let u := State.leaveAll { t with ctx := retired t.ctx rd (BitVec.ofNat 64 st) }
    (ws = [] ∨ st ≠ 0 → (u.live = false ∨ u.ctx.wait ≠ .again 4) → Answers i s u) ∧
    (st = 0 → t.leaving = [] → ∃ u, Answers i s u ∧ u.ctx = retired t.ctx rd 0 ∧ ∀ j, j < ws.length → ws.length ≤ 8 → u.wordAt (sramKey t.coreNo (z.toNat + 8 * j)) = ws.getD j 0)

/-- GIVE of a frame extent records an offer, ACCEPT moves it to the receiver under scrub, and no other entry changes (R129, R132, R133, R128). -/
def Obligations.HoldersMoveByOffer : Prop :=
  ∀ (rd a b c : Nat) (s : State), NoPort rd → 0 < rd → Quiet s → s.leaving = [] → s.silences 65536 = s → goodHandle (s.rx a) = true → hKind (s.rx a) = 4 →
    let k := hKey (s.rx a)
    let e := s.getEntry k
    let n := (s.rx b).toNat
    let to? := e.offer
    s.frozen e = false →
    (e.holder = s.owner → e.offop = 0 → e.lenders = [] → s.isLive n = true → n < 65536 → (s.ownerRec n).silent = false → (s.ownerRec n).heir ≠ s.owner →
      ∃ t, Answers (.give rd a b c) s t ∧ t.rx rd = 0 ∧ t.ctx.pc = s.ctx.pc + 4 ∧ t.getEntry k = { e with offop := 1, offer := n, offdl := 0 } ∧ ∀ j, j ≠ k → t.getEntry j = s.getEntry j) ∧
    (0 < e.offop → to? = s.owner → e.acc = false →
      ∃ t, Answers (.accept rd a) s t ∧ t.rx rd = 0 ∧ t.ctx.pc = s.ctx.pc + 4 ∧
        t.getEntry k = { e with holder := s.owner, offop := 0, offer := 0, offdl := 0, acc := false, scrub := true, prev := 0, lenders := if e.offop = 2 then e.lenders ++ [(e.holder, e.offdl)] else e.lenders } ∧
        ∀ j, j ≠ k → t.getEntry j = s.getEntry j) ∧
    ((e.offop = 0 ∨ to? ≠ s.owner) → ∃ t, Answers (.accept rd a) s t ∧ t.rx rd = 6 ∧ t.ctx.pc = s.ctx.pc + 4 ∧ ∀ j, t.getEntry j = s.getEntry j)

/-- At power-on every register holds its reset value, memory lists nothing in canonical form, and no context runs (R17, R28, R37, R39, R45, R92, R124, R196, R204, R231, R282, R283). -/
def Obligations.ResetValues : Prop :=
  State.reset.ctx.stat = 0 ∧ State.reset.ctx.ssha = 3 ∧ State.reset.ctx.sshb = 3 ∧ State.reset.core.cbanks = 12 ∧ State.reset.core.mwt = 0 ∧ State.reset.core.pool = false ∧ State.reset.bootstat = 0 ∧ State.reset.boot.bootctl = 0 ∧
    State.reset.thrstat = 0 ∧ State.reset.linkstat 0 = 0 ∧ State.reset.linkstat 1 = 0 ∧ State.reset.host.poolen = false ∧ State.reset.clock.skb = 48 ∧ State.reset.clock.inSync = false ∧ (∀ q, (State.reset.getQueue q).enable = false) ∧
    (∀ p, State.portUp (State.reset.getPort p) = false) ∧ State.reset.owners.map (·.1) = [1] ∧ State.reset.live = false ∧ State.reset.mem = [] ∧ Memory.wf State.reset.mem = true ∧ (∀ k, State.reset.byteAt k = 0) ∧ (∀ k, State.reset.tagAt k = 0)

/-- Cold reset boots a good slot or enters rescue, GO builds the map, and readiness, trip, power loss and sync do what they say (R16, R20, R25, R26, R27, R39, R46, R47, R233). -/
def Obligations.BootAndSync : Prop :=
  ∀ s : State,
    (∃ t, Answers .coldReset s t ∧ t.mem = s.outside ∧ (∀ k, (k < 2 ^ 50 ∨ (2 ^ 52 ≤ k ∧ k < 2 ^ 60)) → t.byteAt k = 0) ∧ t.live = false ∧ t.log = { s.log with base := s.log.next } ∧ (State.slotResult (s.slot s.firstSlot) = 1 → t.boot.stage = 7 ∧ t.boot.slot = s.firstSlot ∧ t.boot.rescue = false ∧ t.clock.on = true) ∧
      (State.slotResult (s.slot s.firstSlot) ≠ 1 → State.slotResult (s.slot (1 - s.firstSlot)) = 1 → t.boot.stage = 7 ∧ t.boot.slot = 1 - s.firstSlot ∧ t.boot.rescue = false) ∧
      (State.slotResult (s.slot s.firstSlot) ≠ 1 → State.slotResult (s.slot (1 - s.firstSlot)) ≠ 1 → t.boot.rescue = true)) ∧
    (s.boot.tripped = false → s.boot.rescue = false → s.boot.stage = 7 → wbits s.boot.bootctl 63 63 = 0 → wbits s.arg.w 61 40 = 0 → wbits s.arg.w 31 13 = 0 → wbits s.arg.w 39 32 = 0 →
      ∃ t, Answers .bootctlWrite s t ∧ t.boot.bootctl = s.arg.w ∧ (wbits s.arg.w 63 63 = 1 → t.boot.stage = 5 ∧ ∀ k, (t.getEntry k).holder = 1)) ∧
    (s.runs = true → s.boot.stage = 5 → s.clock.inSync = true → s.boot.slot < 2 → ∃ t, Answers .deviceReady s t ∧ t.boot.stage = 6 ∧ (t.slot s.boot.slot).active = true) ∧
    ((110 ≤ s.arg.a ∨ 10000 ≤ s.arg.b) → s.side.resetDue = false → ∃ t, Answers .thermalTrip s t ∧ t.boot.tripped = true ∧ t.mem = s.outside ∧ t.live = false ∧
      ∃ e ∈ t.log.entries, e.kind = 4 ∧ e.seq = s.log.next ∧ e.detail = if 110 ≤ s.arg.a then 1 else 2) ∧
    (s.arg.a < 110 → s.arg.b < 10000 → Answers .thermalTrip s s) ∧
    (s.flash.engine = [] → ∃ t, Answers .powerLoss s t ∧ t.mem = s.outside ∧ t.log.entries = [] ∧ t.boot = State.reset.boot ∧ t.flash.slots = s.flash.slots) ∧
    (s.clock.inSync = true → s.syncHolds = false → Answers .syncLoss s ((s.owners.map (·.1)).foldl (fun u o => u.report o 0x47 0 s.clock.offset)
      (State.logEntry { s with clock := { s.clock with inSync := false }, ifaces := s.ifaces.map (fun (e : Nat × Iface) => (e.1, { e.2 with leaf := [], walk := [] })) } 7 7 0 0 s.clock.offset))) ∧
    (s.runs = true → s.clock.inSync = false → 5 ≤ s.boot.stage → s.syncHolds = true → Answers .syncRegained s { s with clock := { s.clock with inSync := true } })

/-- Warnings, throttling, gating, soft errors and configuration writes change the bits they name (R13, R15, R17, R22, R24, R37, R52, R58, R89). -/
def Obligations.PowerGatingAndErrors : Prop :=
  ∀ s : State,
    let ms := s.time / 1000000
    let ten := s.time / 10000000
    (s.runs = true → Answers .inputUndervoltage s { s with power := { s.power with vin := true } } ∧
      ((400 < s.arg.a ∨ s.arg.b < 20) → 100000000 ≤ s.arg.c → Answers .coolantWarning s { s with power := { s.power with coolant := true } }) ∧
      (s.power.ms < ms → s.power.level < 3 → (95 ≤ s.arg.a ∨ 4500 < s.arg.b) →
        Answers .throttleRaise s { s with power := { s.power with tjmax := min s.arg.a 255, ms := ms, warm := true, raised := ms, level := s.power.level + 1, therm := s.power.therm || decide (95 ≤ s.arg.a), powlim := s.power.powlim || decide (4500 < s.arg.b) } }) ∧
      (s.power.ms < ms → s.arg.a < 95 → s.arg.b ≤ 4500 → Answers .throttleRaise s { s with power := { s.power with tjmax := s.arg.a, ms := ms, warm := s.power.warm || decide (90 ≤ s.arg.a) || decide (4275 < s.arg.b) } }) ∧
      (s.power.ten < ten → 10 * ten ≤ s.power.ms →
        (s.arg.a < 90 → s.arg.b ≤ 4275 → s.power.warm = false → s.power.raised < 10 * ten → Answers .throttleLower s { s with power := { s.power with ten := ten, warm := false, level := s.power.level - 1 } }) ∧
        ((90 ≤ s.arg.a ∨ 4275 < s.arg.b ∨ s.power.warm = true ∨ 10 * ten ≤ s.power.raised) → Answers .throttleLower s { s with power := { s.power with ten := ten, warm := false } })) ∧
      (s.arg.a = 0 → s.mayGate false s.arg.b = true → s.gating = [] → Answers .gatingSequence s { s with gating := [{ isDie := false, unit := s.arg.b, marked := false }] })) ∧
    (s.arg.a ≤ 400 → 20 ≤ s.arg.b → Answers .coolantWarning s s) ∧
    (s.arg.a = 0 → (∃ g ∈ s.gating, g.isDie = false ∧ g.unit = s.arg.b ∧ g.marked = false) → s.mayGate false s.arg.b = true → s.unitWrites (fun n => decide (n < 16384) && n / 4 == s.arg.b) = false → ∃ t, Answers .unitMarkedGated s t ∧ t.gating = s.gating.map (fun g => if g.isDie = false ∧ g.unit = s.arg.b then { g with marked := true } else g)) ∧
    (s.arg.a = 1 → ∃ t, Answers .wakeRequest s t ∧ (∀ g ∈ t.gating, ¬ (g.isDie = true ∧ g.unit = s.arg.b)) ∧ t.mem = s.mem) ∧
    (s.arg.b = 1 → ∃ t, Answers .softError s t ∧ s.arg.a / 8 ∈ t.poison ∧ t.mem = s.mem ∧ ∃ e ∈ t.log.entries, e.kind = 6 ∧ e.addr = BitVec.ofNat 64 (State.logAddr s.arg.a)) ∧
    (s.arg.b = 2 → ∃ t, Answers .softError s t ∧ t.tagAt s.arg.a = 0 ∧ t.mem = s.mem) ∧
    (s.arg.a < 2 → (s.cxlLink s.arg.a).up = true → Answers .cxlLinkRetrain s (s.setLink s.arg.a { s.cxlLink s.arg.a with retrain := true })) ∧
    (s.arg.a < 2 → ∃ t, Answers .configSpaceWrite s t ∧ (t.cxlLink s.arg.a).ats = (s.arg.b == 1) ∧ (t.cxlLink s.arg.a).pri = (s.arg.c == 1) ∧ (t.cxlLink s.arg.a).alloc = s.arg.d)

/-- Host register writes act on queues, the pooled window and the mailbox; violations are logged (a disable aborts what has not started: the model's, log 29) (R38, R41, R43, R44, R45, R46, R93, R94, R214). -/
def Obligations.HostRegisterAccesses : Prop :=
  ∀ s : State, s.boot.rescue = false → s.boot.tripped = false → s.boot.stage = 6 →
    let q := s.arg.a % 4096
    let r := s.getQueue q
    let free := (s.getEntry (State.entryKey 6 q)).scrub = false
    (free → s.arg.w.toNat < 2 ^ 32 → r.enable = true → r.halted = false → (s.arg.w.toNat + 2 ^ 32 - r.rdidx) % 2 ^ 32 ≤ 2 ^ r.ringlog → Answers .kick s ((s.setQueue q { r with wridx := s.arg.w.toNat }).touchQueue q)) ∧
    (free → s.arg.w.toNat < 2 ^ 32 → r.halted = true → (r.wridx + 2 ^ 32 - s.arg.w.toNat) % 2 ^ 32 ≤ 2 ^ r.ringlog → Answers .resume s ((s.setQueue q { r with rdidx := s.arg.w.toNat, halted := false, cause := 0, rereads := 0, retryAt := 0 }).touchQueue q)) ∧
    (free → s.canEnable q = true → ∃ t, Answers .queueEnable s t ∧ (t.getQueue q).enable = true ∧ (t.getQueue q).rdidx = 0 ∧ (t.getQueue q).wridx = 0 ∧ (t.getQueue q).cseq = 0 ∧ (t.getQueue q).dseq = 0 ∧ (t.getQueue q).halted = false ∧ ∀ p, p ≠ q → t.getQueue p = s.getQueue p) ∧
    (free → r.enable = true → ∃ t, Answers .queueDisable s t ∧ (t.getQueue q).enable = false ∧ ((t.getQueue q).drain = true ↔ r.packets ≠ []) ∧ (∀ p ∈ (t.getQueue q).packets, p.started = false → p.done = true) ∧ ∀ p, p ≠ q → t.getQueue p = s.getQueue p) ∧
    (wbits s.host.poolbase 51 28 + wbits s.host.poolsize 49 28 ≤ 2 ^ 24 → Answers .poolWindowEnable s { s with host := { s.host with poolen := true } }) ∧
    (s.inflight = [] → s.arrived = [] → Answers .poolWindowDisable s { s with host := { s.host with poolen := false } }) ∧
    (s.flash.busy = false → ∀ p ∈ [(Instr.mailboxErase, 1), (.mailboxWrite, 2), (.mailboxCommit, 3)], ∃ t c, Answers p.1 s t ∧ t.flash.busy = true ∧ t.flash.engine = s.flash.engine ++ [c] ∧ c.slot = s.arg.a % 2 ∧ c.cmd = p.2 ∧ c.off = s.flash.mboff ∧ c.sideband = none) ∧
    (∀ c, s.flash.engine = [c] → c.sideband = none → c.cmd = 1 → c.slot < 2 → c.slot ≠ s.boot.slot → s.side.resetDue = false →
      ∃ t, Answers .flashCommandDone s t ∧ t.slot c.slot = (if Config.flashError s.free = true then s.slot c.slot else FlashSlot.fresh) ∧ t.flash.result = (if Config.flashError s.free = true then 3 else 0) ∧ t.flash.busy = false ∧ t.flash.mbseq = s.flash.mbseq + 1 ∧ t.flash.engine = []) ∧
    (s.arg.b = 0 → s.arg.c = 0x40 → s.arg.d = 8 → s.host.poolen = false → wbits s.arg.w 63 52 = 0 → wbits s.arg.w 27 0 = 0 → Answers .registerWrite s { s with host := { s.host with poolbase := s.arg.w } }) ∧
    (s.scrubbedQueue s.arg.b s.arg.c = false → s.writeAny s.arg.a s.arg.b s.arg.c s.arg.d s.arg.w = none → Answers .registerWrite s (s.violation s.arg.a s.arg.b s.arg.c s.arg.d true)) ∧
    (s.readRegister s.arg.a s.arg.b s.arg.c s.arg.d = none → Answers .violatingRead s ((s.violation s.arg.a s.arg.b s.arg.c s.arg.d false).answer (.unsupported s.arg.a))) ∧
    Answers .tbaseLatchingRead s (State.answer { s with host := { s.host with tbaseHigh := BitVec.ofNat 32 (s.time / 2 ^ 32) } } (.register s.arg.a (BitVec.ofNat 64 (s.time % 2 ^ 32))))

/-- Link service, decoders, snoops, host accesses and translation services change and answer what they name (choices of the model: logs 38, 39) (R30, R33, R37, R48, R49, R50, R54, R55, R56, R57, R58). -/
def Obligations.HostAttachEvents : Prop :=
  ∀ s : State,
    let port := s.arg.b % 2
    let line := s.arg.a / 64 * 64
    (s.arg.a < 2 → ∃ t, Answers .cxlServiceLoss s t ∧ (t.cxlLink s.arg.a).cache = false ∧ (t.cxlLink s.arg.a).mem = false ∧ (s.arg.b ≠ 2 → (t.cxlLink s.arg.a).up = false) ∧ (t.cxlLink s.arg.a).prifail = true ∧ t.host.hdm.toList.getD s.arg.a none = none ∧ ∀ r ∈ t.host.pageReqs, r.port ≠ s.arg.a) ∧
    (s.arg.a < 2 → s.ready = true → 5 ≤ s.arg.b → s.arg.b < 16 → 4 ≤ s.arg.c → s.arg.c < 256 → s.arg.d = 1 → s.arg.e = 1 → ∃ t, Answers .cxlServiceRestore s t ∧ (t.cxlLink s.arg.a).up = true ∧ (t.cxlLink s.arg.a).cache = true ∧ (t.cxlLink s.arg.a).mem = true ∧ (t.cxlLink s.arg.a).ioonly = 0) ∧
    (let d : Hdm := { ways := s.arg.b, gran := s.arg.c, start := s.arg.d, size := s.arg.e }
     (s.arg.a < 2 → s.hdmGood s.arg.a d = true → Answers .hdmDecoderCommit s (State.answer { s with host := { s.host with hdm := s.host.hdm.setIfInBounds s.arg.a (some d) } } (.hdm s.arg.a true))) ∧
     (s.hdmGood s.arg.a d = false → Answers .hdmDecoderCommit s (s.answer (.hdm s.arg.a false)))) ∧
    (storage s.arg.a = .host → (s.cxlLink port).up = true → s.host.tracker = [] → s.engineHolds line 64 = false → (∀ f ∈ s.inflight, lineStart f.key ≠ lineStart line) → s.arg.bytes = [] → Answers .hostSnoop s (s.answer (.snoop port line [])) ∧ Answers .snoopEngineTimeout s (s.answer (.snoop port line []))) ∧
    (storage s.arg.a = .host → (s.cxlLink port).up = true → s.engineHolds line 64 = true → (∀ f ∈ s.inflight, lineStart f.key ≠ lineStart line) → (∀ r ∈ s.host.tracker, s.gated true r.2.2 = false) → s.arg.d ≠ 0 →
      (let y := s.yieldLine (lineStart line)
       s.arg.d + 2000 ≤ s.time + 1 → Answers .snoopEngineTimeout s (y.answerSnoop port s.arg.a (State.offsets s.arg.bytes) line) ∧
        (s.arg.bytes = [] → y.snoopEnd line ≤ y.time → ∃ t, Answers .snoopEngineTimeout s t ∧ t.mem = y.mem ∧
          t.out = .snoop port line (if y.host.dirty.any (fun d => decide (line ≤ d.1) && decide (d.1 < line + 64)) then (List.range 64).map (fun i => y.serialByte (line + i)) else []) :: y.out ∧
          (∀ d ∈ t.host.dirty, d.1 < lineStart line ∨ lineStart line + lineLen (lineStart line) ≤ d.1) ∧ ∀ r ∈ t.host.tracker, ¬ (r.1 = port ∧ r.2.1 = lineStart line))) ∧
      (s.time + 1 < s.arg.d + 2000 → Answers .hostSnoop s { s with postponed := s.postponed ++ [(.hostSnoop, s.arg)] } ∧ Answers .snoopEngineTimeout s { s with postponed := s.postponed ++ [(.snoopEngineTimeout, s.arg)] })) ∧
    (storage s.arg.a = .hbm → (s.cxlLink port).mem = true → s.decodes port s.arg.a = true → s.holder 4 (s.arg.a / 2097152) ≠ 1 → Answers .hostHbmWrite s ((s.hostViolation s.arg.a s.arg.bytes.length true).answer (.hostDone port s.arg.a)) ∧ Answers .hostHbmRead s ((s.hostViolation s.arg.a s.arg.d false).answer (.hostData port s.arg.a [] true))) ∧
    (storage s.arg.a = .hbm → (s.cxlLink port).mem = true → s.decodes port s.arg.a = true → s.holder 4 (s.arg.a / 2097152) = 1 → s.scrubbing s.arg.a = false → s.lineHeld s.arg.a = false → s.arrived = [] →
      ((s.markContended 20002 s.arg.a).leaseEnd s.arg.a = 0 → Answers .hostHbmWrite s (((State.rawWrite (s.markContended 20002 s.arg.a) 20002 0 s.arg.a (State.offsets s.arg.bytes)).setHeld port (lineStart s.arg.a) s.arg.c).answer (.hostDone port s.arg.a))) ∧
      (s.arg.c = 0 → Answers .hostHbmRead s (s.answer (.hostData port s.arg.a ((List.range s.arg.d).map (fun i => s.byteAt (s.arg.a + i))) (s.poisoned s.arg.a s.arg.d))))) ∧
    (s.arg.c = 0 → s.arg.bytes = [] → ∃ t, Answers .birspReceive s t ∧ (∀ h ∈ t.host.held, h.2.1 ≠ lineStart s.arg.a) ∧ (lineStart s.arg.a ∉ t.host.asked) ∧ t.mem = s.mem) ∧
    (s.inflight = [] → s.arrived = [] → ∃ t, Answers .atsInvalidate s t ∧ t.out = .atsDone (s.arg.a % 2) :: s.out ∧ ∀ e ∈ t.host.atsCache, ¬ (e.1 = s.arg.a % 2 ∧ (s.arg.c = 1 ∨ e.2 = s.arg.b))) ∧
    ((∃ l ∈ s.host.links.toList, l.ats = true) → ∃ t, Answers .atsDeny s t ∧ (State.hostPage s.arg.a, s.arg.b == 1) ∈ t.host.atsDenied) ∧
    (∀ w, s.net.find? (fun w => w.kind == 2 && w.spilled == 0) = some w → w.unit < 2 → Answers .pageRequestWord s ((State.txDone { s with net := s.net.erase w } w false).pageWord w.core w.txport w.unit w.value)) ∧
    (∀ r, s.host.pageReqs.find? (fun r => r.tag == s.arg.a && r.page == s.arg.b) = some r → s.arg.c = 0 →
      Answers .pageGroupResponse s (State.answerPage { s with host := { s.host with pageReqs := s.host.pageReqs.erase r, atsDenied := s.host.atsDenied.filter (fun p => p.1 != State.hostPage s.arg.b || (p.2 && !r.write)) } } r 0))

/-- A sideband command in sequence is executed once and answered, another by its place in the sequence (the forms R80 to R83 leave open: the model's, log 40) (R79, R80, R81, R82, R83, R84, R85, R86, R90). -/
def Obligations.SidebandCommands : Prop :=
  ∀ s : State,
    let q := s.arg.a % 65536
    let u : State := { s with side := { s.side with lastReq := q, answer := [] } }
    let tells (t : State) (cmd : Nat) (body : List Byte) : State := State.answer { t with side := { t.side with answer := State.sideMessage cmd 128 q 0 body } } (.sideband (State.sideMessage cmd 128 q 0 body))
    let b := s.arg.bytes
    (q = (s.side.lastReq + 1) % 65536 → s.arg.b = 0 → s.arg.c = 0 →
      (b = [] → s.arg.d = 0 → s.arg.e ≤ 8 → Answers .getstat s (tells u 1 (toBytes 4 s.bootstat ++ toBytes 4 s.thrstat ++ toBytes 4 (s.linkstat 0) ++ toBytes 4 (s.linkstat 1) ++ toBytes 8 s.time))) ∧
      (b.length = 5 → 1 ≤ ofBytes ((b.drop 4).take 1) → ofBytes ((b.drop 4).take 1) ≤ 32 →
        Answers .readlog s (tells u 2 ((s.log.entries.reverse.filter (fun e => decide (ofBytes (b.take 4) ≤ e.seq) && decide (e.seq < ofBytes (b.take 4) + ofBytes ((b.drop 4).take 1)))).flatMap (fun e => (State.logWords e).flatMap (fun w => toBytes 8 w.toNat))))) ∧
      (s.normal = true → b.length = 1 → ofBytes b < 144 → Answers .portstat s (tells u 3 (toBytes 8 (portstat (s.getPort (ofBytes b)))))) ∧
      (s.normal = true → b.length = 5 → ofBytes (b.drop 1) < kindLimit (ofBytes (b.take 1)) → ofBytes (b.take 1) ≠ 9 → Answers .mapread s (tells u 4 (((u.silences 65536).entryWords (State.entryKey (ofBytes (b.take 1)) (ofBytes (b.drop 1)))).flatMap (fun w => toBytes 8 w.toNat)))) ∧
      (6 ≤ b.length → b.length ≤ 1030 → ofBytes (b.take 1) ≤ 1 → 1 ≤ ofBytes ((b.drop 1).take 1) → ofBytes ((b.drop 1).take 1) ≤ 3 → (∀ c ∈ s.flash.engine, c.sideband = none) → ∃ t c, Answers .flash s t ∧ t.flash.engine = s.flash.engine ++ [c] ∧ c.sideband = some q ∧ c.bytes = b.drop 6 ∧ t.side.lastReq = q) ∧
      (b = [] → s.flash.engine = [] → Answers .reset s (tells u 6 []).coldReset) ∧
      (b.length = 2 → ∃ t, Answers .evack s t ∧ t.out = .sideband (State.sideMessage 8 128 q 0 []) :: s.out ∧ ∀ e ∈ t.side.events, e ∈ s.side.events ∧ 32768 ≤ (ofBytes b + 65536 - e.1 % 65536) % 65536)) ∧
    (q = (s.side.lastReq + 1) % 65536 → b.length ≤ 1079 → s.arg.d = 0 → 8 < s.arg.e → s.arg.e ≤ 256 →
      Answers .getstat s (State.answer { u with side := { u.side with answer := State.sideMessage (s.arg.e % 256) 128 q 2 [] } } (.sideband (State.sideMessage (s.arg.e % 256) 128 q 2 [])))) ∧
    (∀ type ∈ [0, 2], b.length ≤ 1087 → s.arg.d = 65536 + type → Answers .getstat s (s.answer (.pldmMessage (Config.pldmAnswer type (s.log.entries.reverse.flatMap (fun e => (State.logWords e).flatMap (fun w => toBytes 8 w.toNat))) b)))) ∧
    (∀ v, s.arg.d ≠ 0 → s.arg.d < 65536 → s.pldmSensor s.arg.d = some v → Answers .getstat s (s.answer (.pldm s.arg.d v))) ∧
    (∀ p ∈ [(Instr.getstat, 1), (.readlog, 2), (.portstat, 3), (.mapread, 4), (.flash, 5), (.reset, 6), (.evack, 8)], (p.1 = .getstat → s.arg.d = 0 ∧ s.arg.e ≤ 8) →
      (b.length ≤ 1079 → q = s.side.lastReq → s.side.answer ≠ [] → Answers p.1 s (s.answer (.sideband s.side.answer))) ∧
      (b.length ≤ 1079 → q ≠ s.side.lastReq → q ≠ (s.side.lastReq + 1) % 65536 → Answers p.1 s (s.answer (.sideband (State.sideMessage p.2 128 q 1 (toBytes 2 ((s.side.lastReq + 1) % 65536)))))) ∧
      (1079 < b.length → Answers p.1 s s)) ∧
    (s.arg.b = 0 → s.arg.c = 0 → b = [] → Answers .seqsync s (s.answer (.sideband (State.sideMessage 7 128 q 0 (toBytes 2 s.side.lastReq ++ toBytes 2 (s.side.nextEv - 1) ++ toBytes 2 ((s.side.events.head?.map (·.1)).getD 0)))))) ∧
    (∀ n e l, s.side.events = (n, e) :: l → (s.clock.on = false ∨ s.side.sentAt + 100000000 ≤ s.time) → Answers .eventResend s (State.answer { s with side := { s.side with sentAt := s.time } } (.sideband (State.eventMessage n e)))) ∧
    (s.clock.on = true → s.time < s.side.sentAt + 100000000 → Answers .eventResend s s) ∧
    (b.length ≤ 1087 → Answers .getVersion s (s.answer (.spdm (Config.spdmAnswer 0x84 b))) ∧ Answers .getCapabilities s (s.answer (.spdm (Config.spdmAnswer 0xE1 b))) ∧ Answers .negotiateAlgorithms s (s.answer (.spdm (Config.spdmAnswer 0xE3 b))) ∧
    Answers .getkey s (s.answer (.spdm (State.fit 1312 (Config.publicKey s.boot.digest))))) ∧
    (b.length = 32 → Answers .getreport s (s.answer (.spdm (s.attestation b ++ State.fit 2420 (Config.sign s.boot.digest (State.fit 32 (Config.sha3 (s.attestation b))))))))

/-- Flits are acknowledged, refused or replayed, and ports train, fall and retry as their states say (choices of the model: logs 11, 42) (R62, R63, R64, R66, R75, R78, R79, R20, R21). -/
def Obligations.FabricLinksKeepTheirPorts : Prop :=
  ∀ s : State,
    let p := s.arg.a
    let q := s.getPort p
    let lost (v : Port) (st : Nat) : State := v.held.foldl (fun (u : State) e => u.resend p e)
      ((s.setPort p v).setPortState p { v with state := st, downs := v.downs + 1, replay := [], held := [], part := [], naks := 0, txSeq := 0, rxSeq := 4095, acked := 4095, stops := [false, false, false, false], kept := false })
    (State.portUp q = true →
      (∃ t, Answers .flitReceive s t ∧ match fecDecode s.arg.bytes with
        | none => t = s.nak p
        | some (b, fixed) =>
          let h := ofBytes (b.take 4)
          let u := if fixed = true then s.setPort p { q with feccor := q.feccor + 1 } else s
          let v := u.applyHeader p (bits h 19 8) (bits h 7 7) [bits h 6 6 == 1, bits h 5 5 == 1, bits h 4 4 == 1, bits h 3 3 == 1]
          let w := (v.setPort p { v.getPort p with rxSeq := bits h 31 20, part := [] }).takeSlots p 64 ((v.getPort p).part ++ (b.drop 4).take 224)
          ((crc64 (b.take 228) ≠ ofBytes ((b.drop 228).take 8) ∨ 2 < h % 8) → t = u.nak p) ∧
          (crc64 (b.take 228) = ofBytes ((b.drop 228).take 8) → (h % 8 = 1 → t = v) ∧ (h % 8 = 2 → t = v.retrain p) ∧
            (h % 8 = 0 → bits h 31 20 = ((v.getPort p).rxSeq + 1) % 4096 → t = w.answer (.link p (flitBytes (w.getPort p).txSeq (bits h 31 20) 0 1 []))))) ∧
      (8 ≤ q.naks → Answers .nakLimitRetrain s (s.setPortState p { q with state := 1, naks := 0, kept := true })) ∧
      (q.replay ≠ [] → q.ackAt + 4000 ≤ s.time → Answers .ackTimeout s (s.setPortState p { q with state := 1, naks := 0, kept := true })) ∧
      (s.solo = false → s.runs = true →
        let u := s.setPort p { q with rtt := s.arg.b, delay := s.arg.b / 2 }
        let pod : Word := s.arg.w + BitVec.ofNat 64 (s.arg.b / 2)
        let first := max s.time pod.toNat
        ((s.boot.stage ≠ 5 ∨ s.clock.set = true) → Answers .sync s { u with clock := { s.clock with offset := BitVec.ofNat 64 s.time - pod, err := s.arg.c, lastSync := s.time } }) ∧
        (s.boot.stage = 5 → s.clock.set = false → Answers .sync s { u with time := first, clock := { s.clock with set := true, offset := BitVec.ofNat 64 (first - pod.toNat), err := s.arg.c, lastSync := first } }))) ∧
    (q.state = 1 → (q.kept = false ∨ s.time ≤ q.since + 1000000) →
      (s.arg.b % 4 = 3 → s.arg.c ≤ 1000 → s.inGroup p = true → Answers .retrainComplete s (((s.setPortState p { q with state := 2, lanes := 3, rtt := s.arg.c, kept := false, ackAt := s.time }).replayAll p).flushHeld p)) ∧
      (s.arg.b % 4 ≠ 0 → 1000 < s.arg.c → Answers .retrainComplete s (if q.kept = true then lost { q with lanes := s.arg.b % 4, rtt := s.arg.c } 5 else s.setPortState p { q with state := 5, lanes := s.arg.b % 4, rtt := s.arg.c, kept := false, ackAt := s.time }))) ∧
    (q.state = 1 → (q.kept = false ∨ q.since + 1000000 ≤ s.time) →
      Answers .portDown s (lost { q with lanes := 0 } 0)) ∧
    (q.state = 0 ∨ q.state = 5 → s.runs = true → 5 ≤ s.boot.stage → q.since + 100000000 ≤ s.time → Answers .portRetry s ((s.setPortState p { q with state := 1, kept := false }).trainDone p s.arg.b s.arg.c)) ∧
    Answers .syncSend s (s.fabric.ports.foldl (fun (u : State) e => let n := e.1; if State.portUp (u.getPort n) = true ∧ (u.getPort n).syncAt + 10000 ≤ u.time then
      (u.setPort n { u.getPort n with syncAt := u.time }).emit n u.time { w0 := BitVec.ofNat 64 (17 * 2 ^ 59 + u.pkgNum * 2 ^ 30), w1 := BitVec.ofNat 64 ((u.getPort n).rtt % 2 ^ 32), w2 := BitVec.ofNat 64 u.time - u.clock.offset, w3 := BitVec.ofNat 64 (u.clock.err % 2 ^ 32), data := [] } else u) s)

/-- Requests of other packages are served in time for a live owner with the grant, else refused; responses complete requests (the model's choices: logs 11, 14) (R68, R70, R71, R73, R74, R177, R254, R351). -/
def Obligations.FabricTransactionsAreServed : Prop :=
  ∀ s : State,
    let t := s.arg.txn
    let p := s.arg.b
    let came := s.entered s.arg
    (t.dpkg = s.pkgNum →
      (∀ x ∈ [(Instr.farRd, 0), (.farWr, 1), (.amo, 2), (.push, 4)], t.kind = x.2 → s.arg.a ≠ 144 →
        (s.inTime t p came = false → Answers x.1 s (s.answerTxn t 8 1 [])) ∧
        (s.inTime t p came = true → (s.isLive t.town = false ∨ s.hasGrant t.town 5 = false) → Answers x.1 s (s.answerTxn t 8 2 [])) ∧
        (s.inTime t p came = true → s.isLive t.town = true → s.hasGrant t.town 5 = true → Answers x.1 s (s.serve t (p / 36 % 4)) ∧
          ∀ lo hi u, x.2 = 0 → t.size < 4 → s.perform (State.edgeAccess t (p / 36 % 4) (.load t.size) (2 ^ t.size) (BitVec.ofNat 64 (ofBytes (t.data.take 8))) (BitVec.ofNat 64 (ofBytes ((t.data.drop 8).take 8)))) = (.value lo hi, u) →
            Answers x.1 s (u.answerTxn t 8 0 (toBytes 8 lo.toNat)))) ∧
      (wbits t.w3 21 20 = 0 → s.inTime t p came = true → s.isLive t.town = true → s.hasGrant t.town 5 = true → s.holder 1 (wbits t.w3 17 4) = t.town → ∃ w, Answers .msg s { s with net := s.net ++ [w] } ∧
        w.kind = 0 ∧ w.unit = wbits t.w3 17 4 ∧ w.port = wbits t.w3 1 0 ∧ w.value = BitVec.ofNat 64 (ofBytes (t.data.take 8)) ∧ w.town = t.town ∧ w.closing = (wbits t.w3 57 57 == 1)) ∧
      (t.w2 ≠ 0 → Answers .bar s (s.barArrive 5 t.town 0 (min t.w2.toNat (State.barMax 5)) []).2) ∧
      (∀ r, s.fabric.requests.find? (State.isFor t) = some r → Answers .rsp s (s.completeRequest r t.code t.data).flushAll) ∧
      (s.fabric.requests.find? (State.isFor t) = none → Answers .rsp s (State.logEntry { s with fabric := { s.fabric with late := s.fabric.late.filter (fun l => !(l.2.1 == t.rid && l.2.2 == t.score)) } } 8 5 p (BitVec.ofNat 64 t.va) (BitVec.ofNat 64 t.code))) ∧
      (let m : State := State.flushAll { s with fabric := { s.fabric with requests := s.fabric.requests.map (fun r => if State.isFor t r = true then { r with parked := true } else r) } }
       let waits := m.fabric.requests.find? (fun r => State.isFor t r && decide (r.slot < 8) && r.key.isNone)
       (waits = none → Answers .parked s m) ∧
       ∀ r ok u, waits = some r → m.leaveParked r = (ok, u) →
        Answers .parked s (if ok then u else { u with postponed := u.postponed ++ [(.parked, s.arg)] }) ∧
        ∀ n v, isMc r.acc.core = false → (m.focus r.acc.core r.slot).live = true → (m.focus r.acc.core r.slot).ctx.wait = .remote r.rid → (m.focus r.acc.core r.slot).findRoom = (.at n, v) →
          ok = true ∧ ∃ i, u.getInstar (ownKey v n) = some i ∧ i.state = .away r.rid ∧ i.why = 2 ∧ i.pc = v.ctx.pc + 4 ∧ i.regs = v.ctx.x) ∧
      (∀ r, s.fabric.requests.find? (fun r => State.isFor t r && r.parked) = some r → Answers .wake s (s.completeRequest r 0 t.data))) ∧
    (t.dpkg ≠ s.pkgNum → t.hops < 7 → ∀ q, s.transitPort t = some q → Answers .forwardTransaction s (s.emitWord q came { t with w0 := BitVec.ofNat 64 (t.w0.toNat + 2 ^ 56), w1 := BitVec.ofNat 64 (wbits t.w1 63 32 * 2 ^ 32 + (t.transit + (s.getPort p).delay) % 2 ^ 32) })) ∧
    (t.dpkg ≠ s.pkgNum → t.hops = 7 → classOf t.kind = 0 → Answers .forwardTransaction s (s.answerTxn t 8 8 [])) ∧
    (∀ r, s.fabric.requests.find? (fun r => !r.parked && decide (r.issue + 10000000 ≤ s.time)) = some r → Answers .farRequestTimeout s (s.completeRequest r 5 []).flushAll)

/-- Silence falls when four intervals have passed, and transfers, returns and scrubs happen when the resource is quiescent (choices of the model: logs 34, 35) (R128, R133, R135, R137, R141). -/
def Obligations.OwnershipEventsMoveHolders : Prop :=
  ∀ s : State,
    let o := s.arg.a
    let k := hKey s.arg.w
    let e := s.getEntry k
    (s.isLive o = true → (s.ownerRec o).pint ≠ 0 → (s.ownerRec o).silent = false → (s.ownerRec o).lastPulse + 4 * (s.ownerRec o).pint ≤ s.time →
      Answers .ownerSilence s { State.tellSilence { ((s.freezeEntries o).dropMarks o (fun _ => true)).setOwner o { s.ownerRec o with silent := true } with time := (s.ownerRec o).lastPulse + 4 * (s.ownerRec o).pint } o 0x40 with time := s.time }) ∧
    (hKind s.arg.w = 4 → goodHandle s.arg.w = true → e.acc = true → e.offop ≠ 0 → s.frozen e = false → s.silentDue e.holder = false → ∃ t, Answers .acceptedTransfer s t ∧
      t.getEntry k = { e with holder := e.offer, offop := 0, offer := 0, offdl := 0, acc := false, scrub := true, prev := 0, lenders := if e.offop = 2 then e.lenders ++ [(e.holder, e.offdl)] else e.lenders } ∧ ∀ j, j ≠ k → t.getEntry j = s.getEntry j) ∧
    (s.returning.contains (k, e.holder) = true → s.frozen e = false → s.silentDue e.holder = false → s.busyEntry k = false → Answers .returnTransfer s (s.doReturn k)) ∧
    (hKind s.arg.w = 4 → goodHandle s.arg.w = true → e.scrub = true → s.leaving = [] → s.heldOfFrame k ≠ [] → Answers .scrubComplete s ((s.heldOfFrame k).foldl (fun (u : State) h => u.askHost h.1 h.2.1 true) s)) ∧
    (hKind s.arg.w = 4 → goodHandle s.arg.w = true → e.scrub = true → s.leaving = [] → s.heldOfFrame k = [] → s.scrubReady k = true → ∃ t, Answers .scrubComplete s t ∧ t.getEntry k = { e with scrub := false } ∧
      ∀ j, t.byteAt j = if hIndex s.arg.w * 2097152 ≤ j ∧ j < (hIndex s.arg.w + 1) * 2097152 then 0 else s.byteAt j) ∧
    (let u := s.focus s.arg.a (s.arg.b % 4)
     ∀ op rd a b c image st v, u.live = true → u.ctx.wait = .own op rd a b c image → u.ownPerform u.coreNo op u.owner a b c image = (some (st, []), v) → (op = 5 → u.splitSpan u.coreNo c.toNat 64 = false) →
       s.arg.c ≠ 1 → Answers .ownershipOperationAtHome s (State.focus (State.leaveAll { v with ctx := retired v.ctx rd (BitVec.ofNat 64 st) }) s.coreNo s.running)) ∧
    (s.arg.c = 1 → Answers .ownershipOperationAtHome s ((s.ownTogether s.arg.a (s.arg.b % 4)).foldl (fun (v : State) e => v.asSlot e.1 e.2 State.ownArrive) s))

/-- A good packet is consumed in sequence, a started one begins its work, a completed one is recorded (starts without an engine: the model's choice, log 29) (R96, R97, R99, R102, R104, R105, R106, R107, R116, R117). -/
def Obligations.PacketsAreFetchedAndRecorded : Prop :=
  ∀ (s : State),
    let q := s.arg.a
    let fetched (u : State) (i : Instr) : Prop :=
      let r := u.getQueue q
      let k := r.ringbase + 64 * (r.rdidx % 2 ^ r.ringlog)
      let b := u.bytesAt k 64
      let ws := State.wordsOf 8 b
      (∃ l, u.ringRead (u.queueOwner q) k = (.bytes l, u) ∧ l = b) → bits (ofBytes (b.take 8)) 7 0 = 0x5A → bits (ofBytes (b.take 8)) 63 32 = (r.cseq + 1) % 2 ^ 32 → bits (ofBytes (b.take 8)) 15 13 = 0 →
      1 ≤ (r.wridx + 2 ^ 32 - r.rdidx) % 2 ^ 32 → crc16 (b.drop 8) = bits (ofBytes (b.take 8)) 31 16 → u.packetCause (u.queueOwner q) ws = none → wbits (ws.getD 1 0) 3 0 ≠ 1 →
      ∃ t p, Answers i s t ∧ (t.getQueue q).rdidx = (r.rdidx + 1) % 2 ^ 32 ∧ (t.getQueue q).cseq = (r.cseq + 1) % 2 ^ 32 ∧ (t.getQueue q).packets = r.packets ++ [p] ∧ p.type = wbits (ws.getD 1 0) 3 0 ∧ p.words = ws.drop 1 ∧ p.started = false
    (let u := s.touchQueue q
     (State.mayFetch (u.getQueue q) = true → (u.getQueue q).retryAt = 0 → fetched u .packetFetch) ∧
     (State.mayFetch (u.getQueue q) = true → (u.getQueue q).retryAt ≠ 0 → (u.getQueue q).retryAt ≤ u.time → fetched (u.setQueue q { u.getQueue q with rereads := (u.getQueue q).rereads + 1, retryAt := 0 }) .packetReread)) ∧
    (∀ before p, firstUnstarted [] (s.getQueue q).packets = some (before, p) → (s.getQueue q).enable = true → (s.getQueue q).halted = false → (((s.getQueue q).engine ≠ 255 ∧ s.engineNext (s.getQueue q).engine = some q) ∨ ((s.getQueue q).engine = 255 ∧ State.candidate (s.getQueue q) = false)) → mayStart before p = true →
      (∀ x ∈ [(Instr.nop, 0), (.launch, 1), (.waitAll, 2), (.waitAny, 3), (.signal, 4), (.copy, 5), (.seal, 6), (.unseal, 7), (.own, 8), (.fencePacket, 9)], p.type = x.2 → Answers x.1 s (s.startPacket q p)) ∧
      (p.type = 0 ∨ p.type = 9 → ∃ t, Answers (if p.type = 0 then .nop else .fencePacket) s t ∧ t.mem = s.mem ∧
        (t.getQueue q).packets = (s.getQueue q).packets.map (fun x => if x.seq = p.seq then { p with started := true, worked := true, status := 0, detail := 0, addr := 0, since := s.time, relAt := s.time } else x))) ∧
    ((s.getQueue q).haltDue = none → ∀ p, (s.getQueue q).packets = [p] → p.done = true → p.recorded = true → p.relAt ≤ s.time → p.status = 0 → ∃ t, Answers .packetComplete s t ∧ (t.getQueue q).dseq = p.seq ∧ (t.getQueue q).packets = [] ∧ (t.getQueue q).drain = false) ∧
    Answers .queueMadeResident s ((s.servedQueues.foldl (fun (u : State) n => u.touchQueue n) s).makeResident) ∧
    ((s.getQueue q).engine ≠ 255 → State.candidate (s.getQueue q) = false → Answers .queueEviction s (s.setQueue q { s.getQueue q with engine := 255, since := 0 }))

/-- Each packet type does its work: waits compare and time out, signals write, copies and launches go on, seals change extents (choices of the model: log 29) (R108, R109, R110, R111, R112, R113, R114, R115, R146). -/
def Obligations.PacketWorkIsDone : Prop :=
  ∀ (s : State) (before : List Packet) (p : Packet),
    let q := s.arg.a
    let o := s.packetOwner q
    let p' : Packet := { p with started := true, since := s.time, relAt := s.time }
    let u₀ := s.setPacket q p'
    let u := u₀.setQueue q { u₀.getQueue q with turn := u₀.nextStart }
    (firstUnstarted [] (s.getQueue q).packets = some (before, p) → (s.getQueue q).enable = true → (s.getQueue q).halted = false → (((s.getQueue q).engine ≠ 255 ∧ s.engineNext (s.getQueue q).engine = some q) ∨ ((s.getQueue q).engine = 255 ∧ State.candidate (s.getQueue q) = false)) → mayStart before p = true →
      (p.type = 1 → s.flights.list = [] → u.denied.contains (State.packetUnit q p.seq) = false → u.waiting (.agent (State.packetUnit q p.seq)) = false → ∀ l t, u.loadCheck (State.flightOf q (u.packetOwner q) p') (State.packetUnit q p.seq) = (.accepted l, t) → Answers .launch s (t.joinList { State.flightOf q (u.packetOwner q) p' with handles := l })) ∧
      (∀ w t, wbits (p.w 2) 63 60 = 1 → p.seen = 0 → p.held = 0 → p.asked = 0 → u.waitRead (State.packetUnit q p.seq) (u.packetOwner q) (p.w 4) = (.word (some w), t) → condHolds (wbits (p.w 3) 3 0) w (p.w 5) = true →
        (p.type = 2 → Answers .waitAll s (t.workDone q { p' with seen := 1, held := 1, asked := 0 } 0 0 0 t.time)) ∧ (p.type = 3 → Answers .waitAny s (t.workDone q { p' with seen := 1, held := 1, asked := 0 } 0 1 0 t.time))) ∧
      (p.type = 4 → ∀ v t, u.signalOp 0 (State.packetUnit q p.seq) (u.packetOwner q) (p.w 3) (wbits (p.w 2) 63 62) (p.w 4) = (.status 0, v, t) → Answers .signal s (t.workDone q p' 0 0 0 v)) ∧
      (p.type = 5 → ∃ t c, Answers .copy s t ∧ t.hubCopy.toList.getD (q % 4) [] = s.hubCopy.toList.getD (q % 4) [] ++ [(q, c)] ∧ c.dst = va57 (p.w 3) ∧ c.src = va57 (p.w 2) ∧ c.rowb = (p.w 4).toNat ∧ c.owner = u.packetOwner q) ∧
      ((State.sealRun p).all (fun e => u.holder 5 e == u.packetOwner q) = true → (p.type = 6 → Answers .seal s u) ∧ (p.type = 7 → Answers .unseal s u)) ∧
      (p.type = 8 → u.storesBefore q p' = true → (wbits (p.w 2) 2 0 = 7 ∨ u.silenceNow = false) → ∀ image t st ws v, u.ownImage q p' = (some image, t) → t.ownPerform 20000 (wbits (p.w 2) 2 0) 1 (p.w 3) (p.w 4) (p.w 5) image = (some (st, ws), v) → Answers .own s (v.workDone q p' 0 (BitVec.ofNat 64 st) 0 v.time))) ∧
    (working (s.getQueue q) (fun t => t == 2 || t == 3) = some p →
      (∀ w t, s.arg.b = 0 → p.type = 2 → wbits (p.w 2) 63 60 = 1 → p.seen = 0 → p.held = 0 → p.asked = 0 → s.waitRead (State.packetUnit q p.seq) o (p.w 4) = (.word (some w), t) → condHolds (wbits (p.w 3) 3 0) w (p.w 5) = true → Answers .waitPass s (t.workDone q { p with seen := 1, held := 1, asked := 0 } 0 0 0 t.time)) ∧
      (wbits (p.w 2) 47 0 ≠ 0 → (p.reading = false ∨ s.waiting (.agent (State.packetUnit q p.seq)) = true) → p.since + wbits (p.w 2) 47 0 ≤ s.time → Answers .waitTimeout s (s.workDone q p 1 0 0 s.time))) ∧
    (working (s.getQueue q) (fun t => t == 6 || t == 7) = some p → (∀ f ∈ s.flights.list, ¬ (f.owner = o ∧ State.placedNow f = true)) → (∀ e ∈ State.sealRun p, (s.getEntry (State.entryKey 5 e)).scrub = false) →
      ∃ t, Answers .sealExtentChange s t ∧ (∀ e ∈ State.sealRun p, (e ∈ t.sealedExt ↔ p.type = 6)) ∧ (∀ e, e ∉ State.sealRun p → (e ∈ t.sealedExt ↔ e ∈ s.sealedExt)) ∧ t.flights = s.flights)

/-- Passes place, ended flights close, stopped gangs are saved, and slots draw, start and resume work (R148, R152, R153, R155, R156, R158, R165, R167, R189, R24, R142). -/
def Obligations.FlightsAndSlotsGoOn : Prop :=
  ∀ s : State,
    let n := s.arg.a
    let k := s.arg.b % 4
    (s.flights.passes.contains n = true → (s.ownerRec n).silent = false → s.sealWaits n = false → s.silentDue n = false →
      let u := [3, 2, 1, 0].foldl (fun (v : State) p => v.refuseHeads n p (v.listOf n p).length) { s with flights := { s.flights with passes := s.flights.passes.filter (· != n) } }
      Answers .placementPass s (((u.flights.list.filter (fun f => f.owner == n)).foldl (fun (v : State) f => if f.marks.any (fun b => b.any (fun c => !(v.eligible n f.svc c))) then v.setFlight { f with marks := [] } else v) u).passPrios n [3, 2, 1, 0])) ∧
    (∀ f, s.flights.list.find? (fun f => f.num == n) = some f →
      (State.placedNow f = true → s.remains f = false → Answers .flightEnd s (s.closeFlight f 0 (BitVec.ofNat 64 n))) ∧
      (f.state = .placed → f.ydl ≠ 0 → f.deadline < s.time → Answers .yieldDeadline s (if (s.decideSwitch f f.deadline).1 then (s.decideSwitch f f.deadline).2.report f.owner 0x44 (BitVec.ofNat 64 f.deadline) (BitVec.ofNat 64 n) else (s.decideSwitch f f.deadline).2)) ∧
      (s.stopped f = true → Answers .gangSwitch s ((f.groups.flatten.foldl (fun (v : State) c => ((v.finishMatrix c).finishPage c 8).undrawAll c) s).spillWords f))) ∧
    (∀ f good u, (s.gangStop n).flights.list.find? (fun f => f.num == n) = some f → (s.gangStop n).stopped f = true → f.groups ≠ [] →
      (let v := f.groups.flatten.foldl (fun (v : State) c => v.drainCore c) (s.gangStop n)
       f.groups.flatten.all v.coreQuiet = true ∧ v.gangStored f = true ∧ v.gangPages f .write (State.pagesOf f .write) f.cocoons = (some (good, []), u)) →
      ∃ t g, Answers .gangSaved s t ∧ t.flights.list.getLast? = some g ∧ g.num = f.num ∧ g.state = .saved ∧ g.groups = [] ∧ g.shape = f.groups.map List.length ∧ f.owner ∈ t.flights.passes) ∧
    (∀ idle, s.slotOf n k = .empty idle → (s.getEntry (State.entryOfCore n)).scrub = false → (s.getEntry (State.entryOfCore n)).acc = false → s.coreLeaves n = false → s.workWaits n k = false →
      (∀ i u, s.tetheredReady n = none → SMap.get [] s.rings (State.pinnedKey n) = [] → s.drawFrom (s.coreOwner n) n k (dieOf n) [3, 2, 1, 0] = (some i, u) → Answers .slotDraw s (u.drew n k i (dieOf n))) ∧
      (∀ i d u, 512 ≤ idle → s.stealFrom (s.coreOwner n) n k (State.neighbours (dieOf n)) = (some (i, d), u) → Answers .steal s (u.drew n k i d))) ∧
    (let u := s.focus n k
     u.live = false → u.workWaits u.coreNo u.running = false →
     (∀ h fl pr d ws v, u.core.slots.toList.getD u.running (.empty 0) = .drawn (.task h fl pr none) d → u.denied = [] → (u.freeSlot u.owner u.workDie).isSome = true → u.readPacket u.coreNo u.owner h = (.ok ws, v) → State.malformed ws v.core.clim = false →
       ∃ c, Answers .taskStart s ((State.joins { v.wakeCore v.coreNo with live := true, ctx := c }).focus s.coreNo s.running) ∧ c.pc = BitVec.ofNat 57 (v.core.cbase.toNat + wbits (ws.getD 0 0) 31 0) ∧ c.flight = fl ∧ c.prio = pr ∧ c.stat = 0 ∧ c.rstack = [] ∧
         c.x.toList.getD 9 0 = BitVec.ofNat 64 h ∧ ∀ j, j < 8 → c.x.toList.getD (10 + j) 0 = (State.payload ws).getD j 0) ∧
     (∀ m f d e i w, u.core.slots.toList.getD u.running (.empty 0) = .drawn (.instar m d f) e → u.getInstar { owner := u.owner, die := d, slot := m } = some i → i.state = .ready → u.peekWork u.owner u.coreNo u.running (State.workVa d m) = (.good, w) →
       ∃ v : State, Answers .instarResume s (v.focus s.coreNo s.running) ∧ v.live = true ∧ v.ctx.pc = i.pc ∧ v.ctx.stat = i.stat ∧ v.ctx.rstack = i.rstack ∧ v.ctx.flight = i.flight ∧ v.getInstar { owner := u.owner, die := d, slot := m } = none ∧
         ∀ r, 0 < r → r < 28 → v.ctx.x.toList.getD r 0 = if r = i.dreg ∧ (i.why = 2 ∨ i.why = 3) then i.wakev else if r = i.dreg ∧ i.why = 0 then 0 else if bits i.mask (r - 1) (r - 1) = 1 then i.regs.toList.getD r 0 else 0))

/-- Messages, replies, drains, arrivals, visibility, leases, logs and engines act as their events say (R177, R187, R203, R212, R217, R226, R236, R238, R241, R242, R247, R275). -/
def Obligations.MemoryAndEngineEventsGoOn : Prop :=
  ∀ s : State,
    let n := s.arg.a
    let k := s.arg.b % 4
    let u := s.focus n k
    (∀ w, s.net = [w] → w.spilled = 0 → w.kind = 0 → w.unit < 16384 → s.coreOwner w.unit = w.town → s.spillFor w w.unit = none → (s.getEntry (State.entryOfCore w.unit)).scrub = false → ((s.getCore w.unit).rx.toList.getD w.port []).length < 16 →
      let v := State.txDone { s with net := [] } w false
      Answers .messageWordArrive s ((v.setCore w.unit { v.getCore w.unit with rx := (v.getCore w.unit).rx.setIfInBounds w.port ((s.getCore w.unit).rx.toList.getD w.port [] ++ [{ value := w.value, closing := w.closing }]) }).serveReaders w.unit)) ∧
    (let v := s.setFaultPage n ((s.faultPage n).modify (s.arg.b % 64) (fun e => { e with reply := s.arg.w }))
     let e := (v.faultPage n).getD (s.arg.b % 64) FaultEntry.fresh
     n < 2 ^ 20 →
     (e.valid = true → wbits s.arg.w 62 48 = s.arg.b % 64 * 512 + e.gen → e.waiters = [] → Answers .reply s (v.setFaultPage n ((v.faultPage n).set (s.arg.b % 64) { e with valid := false, gen := (e.gen + 1) % 512, waiters := [] }))) ∧
     (e.valid = false ∨ wbits s.arg.w 62 48 ≠ s.arg.b % 64 * 512 + e.gen → Answers .reply s (v.logEntry 8 0 n (BitVec.ofNat 64 e.va) s.arg.w))) ∧
    (∀ e v, n < 2 ^ 20 → u.core.combining.find? (fun e => decide (e.opened + 32 ≤ u.cycle)) = some e → u.drainEntry u.coreNo e = (.ok (), v) → Answers .combiningDrain s (State.focus (State.dropEntry v (some e)) s.coreNo s.running)) ∧
    (∀ f, s.inflight = [f] → s.hostHolds f.key = none → s.scrubbing f.key = false → s.harvestOf f = none → s.lineHeld f.key = false → s.matHoldsKey f.key (State.reach f.bytes) true = false → s.time ≤ f.stop + s.clock.skb → Answers .storeArrive s (State.arriveFlying { s with inflight := [] } f)) ∧
    (∀ a, s.arrived = [a] → a.vis ≤ s.time → a.wake = false → a.tag = none → s.due = [] → ∃ t, Answers .storeVisible s t ∧ t.arrived = [] ∧ t.tags = s.tags ∧ ∀ j, t.byteAt j = (s.setOffsets a.key a.bytes).byteAt j) ∧
    (s.arg.e ≠ 0 → Answers .accessAtPointOfSerialisation s (s.walkReads s.arg.c s.arg.d (va57 s.arg.w) s.arg.e)) ∧
    (2 ^ 20 ≤ n → Answers .combiningDrain s (s.storesTurn { owner := s.arg.b, die := s.arg.c, slot := s.arg.d })) ∧
    (∀ acc, s.arg.e = 0 → u.live = true → u.ctx.wait = .far acc → Answers .accessAtPointOfSerialisation s (State.focus ((u.perform (u.served acc)).2.settleAnswer acc (u.perform (u.served acc)).1) s.coreNo s.running)) ∧
    (∀ acc lo hi, u.live = true → u.ctx.wait = .response acc lo hi → Answers .farResponse s (State.focus (u.deliver acc lo hi) s.coreNo s.running)) ∧
    (∀ o v lo hi, s.arg.e = 0 → u.live = true → u.ctx.wait = .ready → s.arg.b / 4 = 0 → u.ctx.loads[0]? = some o → o.got = none → u.perform (u.served o.acc) = (.value lo hi, v) → Answers .accessAtPointOfSerialisation s (State.focus (v.setGot 0 (.value lo hi)) s.coreNo s.running)) ∧
    (∀ o lo hi, u.live = true → u.ctx.wait = .ready → u.ctx.loads[s.arg.b / 4]? = some o → o.got = some (.value lo hi) → ∃ c, Answers .farResponse s (State.focus (u.setCtx c) s.coreNo s.running) ∧
      c.x = State.withValue u.ctx.x o.acc lo hi ∧ c.pc = u.ctx.pc ∧ c.loads.length + 1 = u.ctx.loads.length) ∧
    (∃ t, Answers .leaseEnd s t ∧ t.mem = s.mem ∧ (∀ l ∈ t.leases, s.time < l.2.2) ∧ ∀ e ∈ t.core.l1, s.time < e.stop) ∧
    (∃ t, Answers .translationEnd s t ∧ t.mem = s.mem ∧ (∀ x ∈ (t.getIface n).leaf, s.time < x.stop) ∧ ∀ x ∈ (t.getIface n).walk, s.time < x.stop) ∧
    (n < 16 → 2048 ≤ (s.getIface n).dirty.length → Answers .dirtyLogMerge s (s.merge n none)) ∧
    (∀ a f, s.inflight.findSome? (fun f => (s.harvestOf f).map (fun a => (a, f))) = some (a, f) → Answers .harvestRecall s (s.harvestAsked a f.owner).2) ∧
    (∀ a f, s.inflight.findSome? (fun f => (s.harvestOf f).map (fun a => (a, f))) = some (a, f) → (State.agentIfaces a).any (fun i => (s.getIface i).dirty.any (fun e => e.1 == f.owner)) = false → s.arrived = [] → (∀ x ∈ s.inflight, x.core ≠ State.deviceCore) → Answers .harvestRecall s { s with harvest := s.harvest.filter (· != (a, f.owner)) }) ∧
    (∀ x i, s.instars.find? (fun p => wbits p.2.evc 63 63 == 1 && match p.2.state with | .parked c since => s.tagAt c == 3 && decide (since + 1000000 ≤ s.time) | _ => false) = some (x, i) → (∀ c, State.linkCell i = some c → s.hostHolds c = none) →
      let v : State := s.unlink x i
      let w : State := { v with evals := v.evals.map (fun (e : Eval) => if e.evid = wbits i.evc 15 0 ∧ e.va = i.evcell then { e with waitev := none } else e) }
      Answers .stallWatchdog s (w.postInstar x ((w.getInstar x).getD i) 0x0B (BitVec.ofNat 64 ((i.retry.map (·.va)).getD 0)) (BitVec.ofNat 64 ((i.retry.map (·.va)).getD 0)))) ∧
    (∀ c r, n < 16384 → s.engineQueue n = [c] → c.res = some r → c.visible ≤ s.time → (∀ a ∈ s.arrived, a.core ≠ engineCore n) → c.cell = 0 → (s.engineRelease n c r).engineQueue n = [] → Answers .engineCommandComplete s (s.engineRelease n c r)) ∧
    (∀ c l page w tr d v, s.engineQueue n = c :: l → c.res = none → c.started = true → c.pages.find? (fun e => decide (e.2.2.stop ≤ s.time)) = some (page, w, tr) → s.enginePage n c (page * 4096) w false = (Except.ok tr, d, v) → Answers .copyLeaseRenewal s (v.setHead n d)) ∧
    Answers .refreshWindowEnd s ((s.busyCores.filter (fun c => dieOf c == n)).foldl (fun (v : State) c => (v.matStart c).engineStep c) s) ∧
    (∀ m d, u.live = true → u.ctx.wait = .mwait m (some d) → d ≤ u.time → Answers .mwaitTimeout s (State.focus (u.await (.mwait m (some u.time))) s.coreNo s.running)) ∧
    (∀ mwt cb slot, (s.getCore n).splitChange = some (mwt, cb, slot) → s.splitClear n = true → (s.getCore n).combining = [] →
      ∃ t, Answers .splitChangeComplete s t ∧ let x := scratchSize n (s.getCore n)
        let y := 98304 * (16 - cb)
        ∀ j, t.byteAt j = if sramKey n (min x y) ≤ j ∧ j < sramKey n (max x y) then 0 else s.byteAt j)
end

