-- ==== Sys2Proof/Laws/Memory.lean ====
section
/-! SUPPORT. The laws of sparse maps and of memory: reads after writes, and that every memory operation keeps the canonical form. -/

namespace Sys2Proof

/-! ## Sparse maps -/

/-- Keys strictly rising, and no entry at the default. -/
def SMap.Canon {α : Type} (d : α) (m : SMap α) : Prop := m.Pairwise (fun a b => a.1 < b.1) ∧ ∀ e ∈ m, e.2 ≠ d

theorem SMap.canon_nil {α : Type} (d : α) : SMap.Canon d ([] : SMap α) := by simp [SMap.Canon]

theorem SMap.mem_put {α : Type} {m : SMap α} {n : Nat} {v : α} {e : Nat × α} (h : e ∈ SMap.put m n v) : e = (n, v) ∨ e ∈ m := by
  induction m with
  | nil => simpa [SMap.put] using h
  | cons x m ih => grind [SMap.put]

theorem SMap.canon_put {α : Type} {d : α} {m : SMap α} (n : Nat) {v : α} (hv : v ≠ d) (h : SMap.Canon d m) : SMap.Canon d (SMap.put m n v) := by
  refine ⟨?_, fun e he => (mem_put he).elim (fun h' => h' ▸ hv) (h.2 e)⟩
  have h1 := h.1
  clear h
  induction m with
  | nil => simp [SMap.put]
  | cons x m ih =>
    rw [List.pairwise_cons] at h1
    unfold SMap.put
    split
    · rename_i hn
      refine List.pairwise_cons.2 ⟨fun e he => ?_, List.pairwise_cons.2 h1⟩
      rcases List.mem_cons.1 he with rfl | he
      · exact hn
      · exact Nat.lt_trans hn (h1.1 e he)
    · split
      · rename_i hn
        exact List.pairwise_cons.2 ⟨fun e he => hn ▸ h1.1 e he, h1.2⟩
      · refine List.pairwise_cons.2 ⟨fun e he => ?_, ih h1.2⟩
        rcases mem_put he with rfl | he
        · show x.1 < n
          omega
        · exact h1.1 e he

theorem SMap.canon_filter {α : Type} {d : α} {m : SMap α} (p : Nat × α → Bool) (h : SMap.Canon d m) : SMap.Canon d (m.filter p) :=
  ⟨h.1.filter p, fun e he => h.2 e (List.mem_of_mem_filter he)⟩

theorem SMap.canon_set {α : Type} [DecidableEq α] {d : α} {m : SMap α} (n : Nat) (v : α) (h : SMap.Canon d m) : SMap.Canon d (SMap.set d m n v) := by
  unfold SMap.set
  split
  · exact canon_filter _ h
  · exact canon_put n ‹_› h

theorem SMap.canon_clear {α : Type} {d : α} {m : SMap α} (lo hi : Nat) (h : SMap.Canon d m) : SMap.Canon d (SMap.clear m lo hi) :=
  canon_filter _ h

theorem SMap.get_put {α : Type} (d : α) (m : SMap α) (n k : Nat) (v : α) : SMap.get d (SMap.put m n v) k = if k = n then v else SMap.get d m k := by
  induction m with
  | nil => simp [SMap.put, SMap.get]
  | cons x m ih => grind [SMap.put, SMap.get]

theorem SMap.get_del {α : Type} (d : α) (m : SMap α) (n k : Nat) : SMap.get d (SMap.del m n) k = if k = n then d else SMap.get d m k := by
  induction m with
  | nil => simp [SMap.del, SMap.get]
  | cons x m ih =>
    unfold SMap.del at ih ⊢
    rw [List.filter_cons]
    grind [SMap.get]

/-- A map reads what was last written at a key, and nothing else changes. -/
theorem SMap.get_set {α : Type} [DecidableEq α] (d : α) (m : SMap α) (n k : Nat) (v : α) : SMap.get d (SMap.set d m n v) k = if k = n then v else SMap.get d m k := by
  unfold SMap.set
  split
  · rename_i h
    rw [get_del, h]
  · exact get_put d m n k v

theorem SMap.get_clear {α : Type} (d : α) (m : SMap α) (lo hi k : Nat) : SMap.get d (SMap.clear m lo hi) k = if lo ≤ k ∧ k < hi then d else SMap.get d m k := by
  induction m with
  | nil => simp [SMap.clear, SMap.get]
  | cons x m ih =>
    unfold SMap.clear at ih ⊢
    rw [List.filter_cons]
    grind [SMap.get]

/-- Canonical maps with the same contents are the same data. -/
theorem SMap.canon_ext {α : Type} {d : α} {m m' : SMap α} (h : SMap.Canon d m) (h' : SMap.Canon d m') (e : ∀ k, SMap.get d m k = SMap.get d m' k) : m = m' := by
  induction m generalizing m' with
  | nil =>
    cases m' with
    | nil => rfl
    | cons y m' =>
      have := e y.1
      simp only [SMap.get, if_true] at this
      exact absurd this.symm (h'.2 y (by simp))
  | cons x m ih =>
    cases m' with
    | nil =>
      have := e x.1
      simp only [SMap.get, if_true] at this
      exact absurd this (h.2 x (by simp))
    | cons y m' =>
      have low {z : Nat × α} {l : SMap α} (hl : (z :: l).Pairwise (fun a b => a.1 < b.1)) (k : Nat) (hk : k < z.1) : SMap.get d (z :: l) k = d := by
        have hz : ∀ w ∈ z :: l, k < w.1 := fun w hw => by
          rcases List.mem_cons.1 hw with rfl | hw
          · exact hk
          · exact Nat.lt_trans hk ((List.pairwise_cons.1 hl).1 w hw)
        clear hl hk
        induction l generalizing z with
        | nil => grind [SMap.get]
        | cons w l ih => grind [SMap.get]
      have ex := e x.1
      have ey := e y.1
      have hx := h.2 x (by simp)
      have hy := h'.2 y (by simp)
      have key : x.1 = y.1 := by
        rcases Nat.lt_trichotomy x.1 y.1 with hlt | heq | hlt
        · rw [low h'.1 _ hlt] at ex
          exact absurd (by simpa [SMap.get] using ex) hx
        · exact heq
        · rw [low h.1 _ hlt] at ey
          exact absurd (by simpa [SMap.get] using ey.symm) hy
      have val : x.2 = y.2 := by simpa [SMap.get, key] using ex
      have hxy : x = y := Prod.ext key val
      subst hxy
      have c : SMap.Canon d m := ⟨(List.pairwise_cons.1 h.1).2, fun e he => h.2 e (by simp [he])⟩
      have c' : SMap.Canon d m' := ⟨(List.pairwise_cons.1 h'.1).2, fun e he => h'.2 e (by simp [he])⟩
      refine congrArg _ (ih c c' fun k => ?_)
      by_cases hk : k = x.1
      · have g {l : SMap α} (hl : (x :: l).Pairwise (fun a b => a.1 < b.1)) : SMap.get d l x.1 = d := by
          cases l with
          | nil => rfl
          | cons w l => exact low (List.pairwise_cons.1 hl).2 _ ((List.pairwise_cons.1 hl).1 w (by simp))
        rw [hk, g h.1, g h'.1]
      · simpa [SMap.get, hk] using e k

namespace Machine

/-- The memory's canonical form is a map's, at the default zero. -/
theorem Memory.wf_iff (m : List Host.Cell) : Memory.wf m = true ↔ SMap.Canon (0 : Byte) m := by
  induction m with
  | nil => simp [Memory.wf, SMap.Canon]
  | cons c m ih =>
    cases m with
    | nil => simp [Memory.wf, SMap.Canon]
    | cons x m =>
      rw [Memory.wf, Bool.and_eq_true, Bool.and_eq_true, ih]
      simp only [SMap.Canon, List.pairwise_cons, List.mem_cons, forall_eq_or_imp, bne_iff_ne, decide_eq_true_eq, ne_eq]
      constructor
      · rintro ⟨⟨h0, h1⟩, ⟨h2, h3⟩, h4, h5⟩
        exact ⟨⟨⟨h1, fun a ha => Nat.lt_trans h1 (h2 a ha)⟩, h2, h3⟩, h0, h4, h5⟩
      · rintro ⟨⟨⟨h1, _⟩, h2, h3⟩, h0, h4, h5⟩
        exact ⟨⟨h0, h1⟩, ⟨h2, h3⟩, h4, h5⟩

/-! ## Bytes of memory -/

theorem State.setByte_wf (s : State) (k : Nat) (b : Byte) (h : Memory.wf s.mem = true) : Memory.wf (s.setByte k b).mem = true :=
  (Memory.wf_iff _).2 (SMap.canon_set k b ((Memory.wf_iff _).1 h))

theorem State.clearMem_wf (s : State) (lo hi : Nat) (h : Memory.wf s.mem = true) : Memory.wf (s.clearMem lo hi).mem = true :=
  (Memory.wf_iff _).2 (SMap.canon_clear lo hi ((Memory.wf_iff _).1 h))

theorem State.setBytes_wf (bs : List Byte) (s : State) (k : Nat) (h : Memory.wf s.mem = true) : Memory.wf (s.setBytes k bs).mem = true := by
  induction bs generalizing s k with
  | nil => exact h
  | cons b bs ih => exact ih _ _ (s.setByte_wf k b h)

theorem State.setOffsets_wf (es : List (Nat × Byte)) (s : State) (k : Nat) (h : Memory.wf s.mem = true) : Memory.wf (s.setOffsets k es).mem = true := by
  induction es generalizing s with
  | nil => exact h
  | cons e es ih => exact ih _ (s.setByte_wf _ _ h)

theorem State.setWord_wf (s : State) (k : Nat) (v : Word) (h : Memory.wf s.mem = true) : Memory.wf (s.setWord k v).mem = true :=
  s.setBytes_wf _ k h

/-- A byte reads as it was last written; every other byte reads as before. -/
theorem State.byteAt_setByte (s : State) (k a : Nat) (b : Byte) : (s.setByte k b).byteAt a = if a = k then b else s.byteAt a :=
  SMap.get_set 0 s.mem k a b

theorem State.byteAt_clearMem (s : State) (lo hi a : Nat) : (s.clearMem lo hi).byteAt a = if lo ≤ a ∧ a < hi then 0 else s.byteAt a :=
  SMap.get_clear 0 s.mem lo hi a

/-- A write of several bytes changes exactly those. -/
theorem State.byteAt_setBytes (bs : List Byte) (s : State) (k a : Nat) :
    (s.setBytes k bs).byteAt a = if k ≤ a ∧ a < k + bs.length then bs.getD (a - k) 0 else s.byteAt a := by
  induction bs generalizing s k with
  | nil => simp [State.setBytes]
  | cons b bs ih =>
    rw [State.setBytes, ih, byteAt_setByte]
    by_cases h1 : a = k
    · subst h1
      simp
    · by_cases h2 : k + 1 ≤ a ∧ a < k + 1 + bs.length
      · have h3 : k ≤ a ∧ a < k + (b :: bs).length := by simp only [List.length_cons]; omega
        have h4 : a - k = (a - (k + 1)) + 1 := by omega
        rw [if_pos h2, if_pos h3, h4, List.getD_cons_succ]
      · have h3 : ¬(k ≤ a ∧ a < k + (b :: bs).length) := by simp only [List.length_cons]; omega
        rw [if_neg h2, if_neg h3, if_neg h1]

/-- Memory in canonical form with the same bytes is the same data. -/
theorem State.mem_ext (s t : State) (hs : Memory.wf s.mem = true) (ht : Memory.wf t.mem = true) (h : ∀ k, s.byteAt k = t.byteAt k) : s.mem = t.mem :=
  SMap.canon_ext ((Memory.wf_iff _).1 hs) ((Memory.wf_iff _).1 ht) h

theorem reset_mem_wf : Memory.wf State.reset.mem = true := rfl

end Machine

end Sys2Proof
end

