-- ==== Sys2Proof/Laws/State.lean ====
section
/-! SUPPORT. What each update of the running context, and of one byte or tag, leaves as it was: one lemma for each field. -/

namespace Sys2Proof.Machine.State

/-! ### setCtx -/

@[simp] theorem setCtx_coreNo (s : State) (c : Ctx) : (s.setCtx c).coreNo = s.coreNo := rfl
@[simp] theorem setCtx_running (s : State) (c : Ctx) : (s.setCtx c).running = s.running := rfl
@[simp] theorem setCtx_live (s : State) (c : Ctx) : (s.setCtx c).live = s.live := rfl
@[simp] theorem setCtx_core (s : State) (c : Ctx) : (s.setCtx c).core = s.core := rfl
@[simp] theorem setCtx_cores (s : State) (c : Ctx) : (s.setCtx c).cores = s.cores := rfl
@[simp] theorem setCtx_quads (s : State) (c : Ctx) : (s.setCtx c).quads = s.quads := rfl
@[simp] theorem setCtx_mem (s : State) (c : Ctx) : (s.setCtx c).mem = s.mem := rfl
@[simp] theorem setCtx_tags (s : State) (c : Ctx) : (s.setCtx c).tags = s.tags := rfl
@[simp] theorem setCtx_poison (s : State) (c : Ctx) : (s.setCtx c).poison = s.poison := rfl
@[simp] theorem setCtx_time (s : State) (c : Ctx) : (s.setCtx c).time = s.time := rfl
@[simp] theorem setCtx_clock (s : State) (c : Ctx) : (s.setCtx c).clock = s.clock := rfl
@[simp] theorem setCtx_inflight (s : State) (c : Ctx) : (s.setCtx c).inflight = s.inflight := rfl
@[simp] theorem setCtx_arrived (s : State) (c : Ctx) : (s.setCtx c).arrived = s.arrived := rfl
@[simp] theorem setCtx_leases (s : State) (c : Ctx) : (s.setCtx c).leases = s.leases := rfl
@[simp] theorem setCtx_l2 (s : State) (c : Ctx) : (s.setCtx c).l2 = s.l2 := rfl
@[simp] theorem setCtx_ifaces (s : State) (c : Ctx) : (s.setCtx c).ifaces = s.ifaces := rfl
@[simp] theorem setCtx_harvest (s : State) (c : Ctx) : (s.setCtx c).harvest = s.harvest := rfl
@[simp] theorem setCtx_faults (s : State) (c : Ctx) : (s.setCtx c).faults = s.faults := rfl
@[simp] theorem setCtx_evals (s : State) (c : Ctx) : (s.setCtx c).evals = s.evals := rfl
@[simp] theorem setCtx_instars (s : State) (c : Ctx) : (s.setCtx c).instars = s.instars := rfl
@[simp] theorem setCtx_rings (s : State) (c : Ctx) : (s.setCtx c).rings = s.rings := rfl
@[simp] theorem setCtx_net (s : State) (c : Ctx) : (s.setCtx c).net = s.net := rfl
@[simp] theorem setCtx_barriers (s : State) (c : Ctx) : (s.setCtx c).barriers = s.barriers := rfl
@[simp] theorem setCtx_unwritten (s : State) (c : Ctx) : (s.setCtx c).unwritten = s.unwritten := rfl
@[simp] theorem setCtx_fills (s : State) (c : Ctx) : (s.setCtx c).fills = s.fills := rfl
@[simp] theorem setCtx_leaving (s : State) (c : Ctx) : (s.setCtx c).leaving = s.leaving := rfl
@[simp] theorem setCtx_salvages (s : State) (c : Ctx) : (s.setCtx c).salvages = s.salvages := rfl
@[simp] theorem setCtx_nextBar (s : State) (c : Ctx) : (s.setCtx c).nextBar = s.nextBar := rfl
@[simp] theorem setCtx_entries (s : State) (c : Ctx) : (s.setCtx c).entries = s.entries := rfl
@[simp] theorem setCtx_estate (s : State) (c : Ctx) : (s.setCtx c).estate = s.estate := rfl
@[simp] theorem setCtx_owners (s : State) (c : Ctx) : (s.setCtx c).owners = s.owners := rfl
@[simp] theorem setCtx_spareSince (s : State) (c : Ctx) : (s.setCtx c).spareSince = s.spareSince := rfl
@[simp] theorem setCtx_returning (s : State) (c : Ctx) : (s.setCtx c).returning = s.returning := rfl
@[simp] theorem setCtx_sealedExt (s : State) (c : Ctx) : (s.setCtx c).sealedExt = s.sealedExt := rfl
@[simp] theorem setCtx_queues (s : State) (c : Ctx) : (s.setCtx c).queues = s.queues := rfl
@[simp] theorem setCtx_hubCopy (s : State) (c : Ctx) : (s.setCtx c).hubCopy = s.hubCopy := rfl
@[simp] theorem setCtx_flights (s : State) (c : Ctx) : (s.setCtx c).flights = s.flights := rfl
@[simp] theorem setCtx_boot (s : State) (c : Ctx) : (s.setCtx c).boot = s.boot := rfl
@[simp] theorem setCtx_power (s : State) (c : Ctx) : (s.setCtx c).power = s.power := rfl
@[simp] theorem setCtx_flash (s : State) (c : Ctx) : (s.setCtx c).flash = s.flash := rfl
@[simp] theorem setCtx_host (s : State) (c : Ctx) : (s.setCtx c).host = s.host := rfl
@[simp] theorem setCtx_log (s : State) (c : Ctx) : (s.setCtx c).log = s.log := rfl
@[simp] theorem setCtx_side (s : State) (c : Ctx) : (s.setCtx c).side = s.side := rfl
@[simp] theorem setCtx_fabric (s : State) (c : Ctx) : (s.setCtx c).fabric = s.fabric := rfl
@[simp] theorem setCtx_gating (s : State) (c : Ctx) : (s.setCtx c).gating = s.gating := rfl
@[simp] theorem setCtx_schedule (s : State) (c : Ctx) : (s.setCtx c).schedule = s.schedule := rfl
@[simp] theorem setCtx_picks (s : State) (c : Ctx) : (s.setCtx c).picks = s.picks := rfl
@[simp] theorem setCtx_postponed (s : State) (c : Ctx) : (s.setCtx c).postponed = s.postponed := rfl
@[simp] theorem setCtx_arg (s : State) (c : Ctx) : (s.setCtx c).arg = s.arg := rfl
@[simp] theorem setCtx_async (s : State) (c : Ctx) : (s.setCtx c).async = s.async := rfl
@[simp] theorem setCtx_pace (s : State) (c : Ctx) : (s.setCtx c).pace = s.pace := rfl
@[simp] theorem setCtx_cycle (s : State) (c : Ctx) : (s.setCtx c).cycle = s.cycle := rfl
@[simp] theorem setCtx_free (s : State) (c : Ctx) : (s.setCtx c).free = s.free := rfl
@[simp] theorem setCtx_out (s : State) (c : Ctx) : (s.setCtx c).out = s.out := rfl
@[simp] theorem setCtx_due (s : State) (c : Ctx) : (s.setCtx c).due = s.due := rfl
@[simp] theorem setCtx_denied (s : State) (c : Ctx) : (s.setCtx c).denied = s.denied := rfl

@[simp] theorem setCtx_ctx (s : State) (c : Ctx) : (s.setCtx c).ctx = c := rfl

/-! ### setPc -/

@[simp] theorem setPc_coreNo (s : State) (a : BitVec 57) : (s.setPc a).coreNo = s.coreNo := rfl
@[simp] theorem setPc_running (s : State) (a : BitVec 57) : (s.setPc a).running = s.running := rfl
@[simp] theorem setPc_live (s : State) (a : BitVec 57) : (s.setPc a).live = s.live := rfl
@[simp] theorem setPc_core (s : State) (a : BitVec 57) : (s.setPc a).core = s.core := rfl
@[simp] theorem setPc_cores (s : State) (a : BitVec 57) : (s.setPc a).cores = s.cores := rfl
@[simp] theorem setPc_quads (s : State) (a : BitVec 57) : (s.setPc a).quads = s.quads := rfl
@[simp] theorem setPc_mem (s : State) (a : BitVec 57) : (s.setPc a).mem = s.mem := rfl
@[simp] theorem setPc_tags (s : State) (a : BitVec 57) : (s.setPc a).tags = s.tags := rfl
@[simp] theorem setPc_poison (s : State) (a : BitVec 57) : (s.setPc a).poison = s.poison := rfl
@[simp] theorem setPc_time (s : State) (a : BitVec 57) : (s.setPc a).time = s.time := rfl
@[simp] theorem setPc_clock (s : State) (a : BitVec 57) : (s.setPc a).clock = s.clock := rfl
@[simp] theorem setPc_inflight (s : State) (a : BitVec 57) : (s.setPc a).inflight = s.inflight := rfl
@[simp] theorem setPc_arrived (s : State) (a : BitVec 57) : (s.setPc a).arrived = s.arrived := rfl
@[simp] theorem setPc_leases (s : State) (a : BitVec 57) : (s.setPc a).leases = s.leases := rfl
@[simp] theorem setPc_l2 (s : State) (a : BitVec 57) : (s.setPc a).l2 = s.l2 := rfl
@[simp] theorem setPc_ifaces (s : State) (a : BitVec 57) : (s.setPc a).ifaces = s.ifaces := rfl
@[simp] theorem setPc_harvest (s : State) (a : BitVec 57) : (s.setPc a).harvest = s.harvest := rfl
@[simp] theorem setPc_faults (s : State) (a : BitVec 57) : (s.setPc a).faults = s.faults := rfl
@[simp] theorem setPc_evals (s : State) (a : BitVec 57) : (s.setPc a).evals = s.evals := rfl
@[simp] theorem setPc_instars (s : State) (a : BitVec 57) : (s.setPc a).instars = s.instars := rfl
@[simp] theorem setPc_rings (s : State) (a : BitVec 57) : (s.setPc a).rings = s.rings := rfl
@[simp] theorem setPc_net (s : State) (a : BitVec 57) : (s.setPc a).net = s.net := rfl
@[simp] theorem setPc_barriers (s : State) (a : BitVec 57) : (s.setPc a).barriers = s.barriers := rfl
@[simp] theorem setPc_unwritten (s : State) (a : BitVec 57) : (s.setPc a).unwritten = s.unwritten := rfl
@[simp] theorem setPc_fills (s : State) (a : BitVec 57) : (s.setPc a).fills = s.fills := rfl
@[simp] theorem setPc_leaving (s : State) (a : BitVec 57) : (s.setPc a).leaving = s.leaving := rfl
@[simp] theorem setPc_salvages (s : State) (a : BitVec 57) : (s.setPc a).salvages = s.salvages := rfl
@[simp] theorem setPc_nextBar (s : State) (a : BitVec 57) : (s.setPc a).nextBar = s.nextBar := rfl
@[simp] theorem setPc_entries (s : State) (a : BitVec 57) : (s.setPc a).entries = s.entries := rfl
@[simp] theorem setPc_estate (s : State) (a : BitVec 57) : (s.setPc a).estate = s.estate := rfl
@[simp] theorem setPc_owners (s : State) (a : BitVec 57) : (s.setPc a).owners = s.owners := rfl
@[simp] theorem setPc_spareSince (s : State) (a : BitVec 57) : (s.setPc a).spareSince = s.spareSince := rfl
@[simp] theorem setPc_returning (s : State) (a : BitVec 57) : (s.setPc a).returning = s.returning := rfl
@[simp] theorem setPc_sealedExt (s : State) (a : BitVec 57) : (s.setPc a).sealedExt = s.sealedExt := rfl
@[simp] theorem setPc_queues (s : State) (a : BitVec 57) : (s.setPc a).queues = s.queues := rfl
@[simp] theorem setPc_hubCopy (s : State) (a : BitVec 57) : (s.setPc a).hubCopy = s.hubCopy := rfl
@[simp] theorem setPc_flights (s : State) (a : BitVec 57) : (s.setPc a).flights = s.flights := rfl
@[simp] theorem setPc_boot (s : State) (a : BitVec 57) : (s.setPc a).boot = s.boot := rfl
@[simp] theorem setPc_power (s : State) (a : BitVec 57) : (s.setPc a).power = s.power := rfl
@[simp] theorem setPc_flash (s : State) (a : BitVec 57) : (s.setPc a).flash = s.flash := rfl
@[simp] theorem setPc_host (s : State) (a : BitVec 57) : (s.setPc a).host = s.host := rfl
@[simp] theorem setPc_log (s : State) (a : BitVec 57) : (s.setPc a).log = s.log := rfl
@[simp] theorem setPc_side (s : State) (a : BitVec 57) : (s.setPc a).side = s.side := rfl
@[simp] theorem setPc_fabric (s : State) (a : BitVec 57) : (s.setPc a).fabric = s.fabric := rfl
@[simp] theorem setPc_gating (s : State) (a : BitVec 57) : (s.setPc a).gating = s.gating := rfl
@[simp] theorem setPc_schedule (s : State) (a : BitVec 57) : (s.setPc a).schedule = s.schedule := rfl
@[simp] theorem setPc_picks (s : State) (a : BitVec 57) : (s.setPc a).picks = s.picks := rfl
@[simp] theorem setPc_postponed (s : State) (a : BitVec 57) : (s.setPc a).postponed = s.postponed := rfl
@[simp] theorem setPc_arg (s : State) (a : BitVec 57) : (s.setPc a).arg = s.arg := rfl
@[simp] theorem setPc_async (s : State) (a : BitVec 57) : (s.setPc a).async = s.async := rfl
@[simp] theorem setPc_pace (s : State) (a : BitVec 57) : (s.setPc a).pace = s.pace := rfl
@[simp] theorem setPc_cycle (s : State) (a : BitVec 57) : (s.setPc a).cycle = s.cycle := rfl
@[simp] theorem setPc_free (s : State) (a : BitVec 57) : (s.setPc a).free = s.free := rfl
@[simp] theorem setPc_out (s : State) (a : BitVec 57) : (s.setPc a).out = s.out := rfl
@[simp] theorem setPc_due (s : State) (a : BitVec 57) : (s.setPc a).due = s.due := rfl
@[simp] theorem setPc_denied (s : State) (a : BitVec 57) : (s.setPc a).denied = s.denied := rfl

@[simp] theorem setPc_ctx_x (s : State) (a : BitVec 57) : (s.setPc a).ctx.x = s.ctx.x := rfl
@[simp] theorem setPc_ctx_v (s : State) (a : BitVec 57) : (s.setPc a).ctx.v = s.ctx.v := rfl
@[simp] theorem setPc_ctx_m (s : State) (a : BitVec 57) : (s.setPc a).ctx.m = s.ctx.m := rfl
@[simp] theorem setPc_ctx_stat (s : State) (a : BitVec 57) : (s.setPc a).ctx.stat = s.ctx.stat := rfl
@[simp] theorem setPc_ctx_rtb (s : State) (a : BitVec 57) : (s.setPc a).ctx.rtb = s.ctx.rtb := rfl
@[simp] theorem setPc_ctx_pdest (s : State) (a : BitVec 57) : (s.setPc a).ctx.pdest = s.ctx.pdest := rfl
@[simp] theorem setPc_ctx_scla (s : State) (a : BitVec 57) : (s.setPc a).ctx.scla = s.ctx.scla := rfl
@[simp] theorem setPc_ctx_sclb (s : State) (a : BitVec 57) : (s.setPc a).ctx.sclb = s.ctx.sclb := rfl
@[simp] theorem setPc_ctx_ela (s : State) (a : BitVec 57) : (s.setPc a).ctx.ela = s.ctx.ela := rfl
@[simp] theorem setPc_ctx_elb (s : State) (a : BitVec 57) : (s.setPc a).ctx.elb = s.ctx.elb := rfl
@[simp] theorem setPc_ctx_ssha (s : State) (a : BitVec 57) : (s.setPc a).ctx.ssha = s.ctx.ssha := rfl
@[simp] theorem setPc_ctx_sshb (s : State) (a : BitVec 57) : (s.setPc a).ctx.sshb = s.ctx.sshb := rfl
@[simp] theorem setPc_ctx_evc (s : State) (a : BitVec 57) : (s.setPc a).ctx.evc = s.ctx.evc := rfl
@[simp] theorem setPc_ctx_evcell (s : State) (a : BitVec 57) : (s.setPc a).ctx.evcell = s.ctx.evcell := rfl
@[simp] theorem setPc_ctx_rstack (s : State) (a : BitVec 57) : (s.setPc a).ctx.rstack = s.ctx.rstack := rfl
@[simp] theorem setPc_ctx_rdead (s : State) (a : BitVec 57) : (s.setPc a).ctx.rdead = s.ctx.rdead := rfl
@[simp] theorem setPc_ctx_word (s : State) (a : BitVec 57) : (s.setPc a).ctx.word = none := rfl
@[simp] theorem setPc_ctx_copyCount (s : State) (a : BitVec 57) : (s.setPc a).ctx.copyCount = s.ctx.copyCount := rfl
@[simp] theorem setPc_ctx_copyErr (s : State) (a : BitVec 57) : (s.setPc a).ctx.copyErr = s.ctx.copyErr := rfl
@[simp] theorem setPc_ctx_flight (s : State) (a : BitVec 57) : (s.setPc a).ctx.flight = s.ctx.flight := rfl
@[simp] theorem setPc_ctx_prio (s : State) (a : BitVec 57) : (s.setPc a).ctx.prio = s.ctx.prio := rfl
@[simp] theorem setPc_ctx_pc (s : State) (a : BitVec 57) : (s.setPc a).ctx.pc = a := rfl
@[simp] theorem setPc_ctx_wait (s : State) (a : BitVec 57) : (s.setPc a).ctx.wait = .ready := rfl

/-! ### next -/

@[simp] theorem next_coreNo (s : State) : (s.next).coreNo = s.coreNo := rfl
@[simp] theorem next_running (s : State) : (s.next).running = s.running := rfl
@[simp] theorem next_live (s : State) : (s.next).live = s.live := rfl
@[simp] theorem next_core (s : State) : (s.next).core = s.core := rfl
@[simp] theorem next_cores (s : State) : (s.next).cores = s.cores := rfl
@[simp] theorem next_quads (s : State) : (s.next).quads = s.quads := rfl
@[simp] theorem next_mem (s : State) : (s.next).mem = s.mem := rfl
@[simp] theorem next_tags (s : State) : (s.next).tags = s.tags := rfl
@[simp] theorem next_poison (s : State) : (s.next).poison = s.poison := rfl
@[simp] theorem next_time (s : State) : (s.next).time = s.time := rfl
@[simp] theorem next_clock (s : State) : (s.next).clock = s.clock := rfl
@[simp] theorem next_inflight (s : State) : (s.next).inflight = s.inflight := rfl
@[simp] theorem next_arrived (s : State) : (s.next).arrived = s.arrived := rfl
@[simp] theorem next_leases (s : State) : (s.next).leases = s.leases := rfl
@[simp] theorem next_l2 (s : State) : (s.next).l2 = s.l2 := rfl
@[simp] theorem next_ifaces (s : State) : (s.next).ifaces = s.ifaces := rfl
@[simp] theorem next_harvest (s : State) : (s.next).harvest = s.harvest := rfl
@[simp] theorem next_faults (s : State) : (s.next).faults = s.faults := rfl
@[simp] theorem next_evals (s : State) : (s.next).evals = s.evals := rfl
@[simp] theorem next_instars (s : State) : (s.next).instars = s.instars := rfl
@[simp] theorem next_rings (s : State) : (s.next).rings = s.rings := rfl
@[simp] theorem next_net (s : State) : (s.next).net = s.net := rfl
@[simp] theorem next_barriers (s : State) : (s.next).barriers = s.barriers := rfl
@[simp] theorem next_unwritten (s : State) : (s.next).unwritten = s.unwritten := rfl
@[simp] theorem next_fills (s : State) : (s.next).fills = s.fills := rfl
@[simp] theorem next_leaving (s : State) : (s.next).leaving = s.leaving := rfl
@[simp] theorem next_salvages (s : State) : (s.next).salvages = s.salvages := rfl
@[simp] theorem next_nextBar (s : State) : (s.next).nextBar = s.nextBar := rfl
@[simp] theorem next_entries (s : State) : (s.next).entries = s.entries := rfl
@[simp] theorem next_estate (s : State) : (s.next).estate = s.estate := rfl
@[simp] theorem next_owners (s : State) : (s.next).owners = s.owners := rfl
@[simp] theorem next_spareSince (s : State) : (s.next).spareSince = s.spareSince := rfl
@[simp] theorem next_returning (s : State) : (s.next).returning = s.returning := rfl
@[simp] theorem next_sealedExt (s : State) : (s.next).sealedExt = s.sealedExt := rfl
@[simp] theorem next_queues (s : State) : (s.next).queues = s.queues := rfl
@[simp] theorem next_hubCopy (s : State) : (s.next).hubCopy = s.hubCopy := rfl
@[simp] theorem next_flights (s : State) : (s.next).flights = s.flights := rfl
@[simp] theorem next_boot (s : State) : (s.next).boot = s.boot := rfl
@[simp] theorem next_power (s : State) : (s.next).power = s.power := rfl
@[simp] theorem next_flash (s : State) : (s.next).flash = s.flash := rfl
@[simp] theorem next_host (s : State) : (s.next).host = s.host := rfl
@[simp] theorem next_log (s : State) : (s.next).log = s.log := rfl
@[simp] theorem next_side (s : State) : (s.next).side = s.side := rfl
@[simp] theorem next_fabric (s : State) : (s.next).fabric = s.fabric := rfl
@[simp] theorem next_gating (s : State) : (s.next).gating = s.gating := rfl
@[simp] theorem next_schedule (s : State) : (s.next).schedule = s.schedule := rfl
@[simp] theorem next_picks (s : State) : (s.next).picks = s.picks := rfl
@[simp] theorem next_postponed (s : State) : (s.next).postponed = s.postponed := rfl
@[simp] theorem next_arg (s : State) : (s.next).arg = s.arg := rfl
@[simp] theorem next_async (s : State) : (s.next).async = s.async := rfl
@[simp] theorem next_pace (s : State) : (s.next).pace = s.pace := rfl
@[simp] theorem next_cycle (s : State) : (s.next).cycle = s.cycle := rfl
@[simp] theorem next_free (s : State) : (s.next).free = s.free := rfl
@[simp] theorem next_out (s : State) : (s.next).out = s.out := rfl
@[simp] theorem next_due (s : State) : (s.next).due = s.due := rfl
@[simp] theorem next_denied (s : State) : (s.next).denied = s.denied := rfl

@[simp] theorem next_ctx_x (s : State) : (s.next).ctx.x = s.ctx.x := rfl
@[simp] theorem next_ctx_v (s : State) : (s.next).ctx.v = s.ctx.v := rfl
@[simp] theorem next_ctx_m (s : State) : (s.next).ctx.m = s.ctx.m := rfl
@[simp] theorem next_ctx_stat (s : State) : (s.next).ctx.stat = s.ctx.stat := rfl
@[simp] theorem next_ctx_rtb (s : State) : (s.next).ctx.rtb = s.ctx.rtb := rfl
@[simp] theorem next_ctx_pdest (s : State) : (s.next).ctx.pdest = s.ctx.pdest := rfl
@[simp] theorem next_ctx_scla (s : State) : (s.next).ctx.scla = s.ctx.scla := rfl
@[simp] theorem next_ctx_sclb (s : State) : (s.next).ctx.sclb = s.ctx.sclb := rfl
@[simp] theorem next_ctx_ela (s : State) : (s.next).ctx.ela = s.ctx.ela := rfl
@[simp] theorem next_ctx_elb (s : State) : (s.next).ctx.elb = s.ctx.elb := rfl
@[simp] theorem next_ctx_ssha (s : State) : (s.next).ctx.ssha = s.ctx.ssha := rfl
@[simp] theorem next_ctx_sshb (s : State) : (s.next).ctx.sshb = s.ctx.sshb := rfl
@[simp] theorem next_ctx_evc (s : State) : (s.next).ctx.evc = s.ctx.evc := rfl
@[simp] theorem next_ctx_evcell (s : State) : (s.next).ctx.evcell = s.ctx.evcell := rfl
@[simp] theorem next_ctx_rstack (s : State) : (s.next).ctx.rstack = s.ctx.rstack := rfl
@[simp] theorem next_ctx_rdead (s : State) : (s.next).ctx.rdead = s.ctx.rdead := rfl
@[simp] theorem next_ctx_word (s : State) : (s.next).ctx.word = none := rfl
@[simp] theorem next_ctx_copyCount (s : State) : (s.next).ctx.copyCount = s.ctx.copyCount := rfl
@[simp] theorem next_ctx_copyErr (s : State) : (s.next).ctx.copyErr = s.ctx.copyErr := rfl
@[simp] theorem next_ctx_flight (s : State) : (s.next).ctx.flight = s.ctx.flight := rfl
@[simp] theorem next_ctx_prio (s : State) : (s.next).ctx.prio = s.ctx.prio := rfl
@[simp] theorem next_ctx_pc (s : State) : (s.next).ctx.pc = s.ctx.pc + 4 := rfl
@[simp] theorem next_ctx_wait (s : State) : (s.next).ctx.wait = .ready := rfl

/-! ### await -/

@[simp] theorem await_coreNo (s : State) (w : Wait) : (s.await w).coreNo = s.coreNo := rfl
@[simp] theorem await_running (s : State) (w : Wait) : (s.await w).running = s.running := rfl
@[simp] theorem await_live (s : State) (w : Wait) : (s.await w).live = s.live := rfl
@[simp] theorem await_core (s : State) (w : Wait) : (s.await w).core = s.core := rfl
@[simp] theorem await_cores (s : State) (w : Wait) : (s.await w).cores = s.cores := rfl
@[simp] theorem await_quads (s : State) (w : Wait) : (s.await w).quads = s.quads := rfl
@[simp] theorem await_mem (s : State) (w : Wait) : (s.await w).mem = s.mem := rfl
@[simp] theorem await_tags (s : State) (w : Wait) : (s.await w).tags = s.tags := rfl
@[simp] theorem await_poison (s : State) (w : Wait) : (s.await w).poison = s.poison := rfl
@[simp] theorem await_time (s : State) (w : Wait) : (s.await w).time = s.time := rfl
@[simp] theorem await_clock (s : State) (w : Wait) : (s.await w).clock = s.clock := rfl
@[simp] theorem await_inflight (s : State) (w : Wait) : (s.await w).inflight = s.inflight := rfl
@[simp] theorem await_arrived (s : State) (w : Wait) : (s.await w).arrived = s.arrived := rfl
@[simp] theorem await_leases (s : State) (w : Wait) : (s.await w).leases = s.leases := rfl
@[simp] theorem await_l2 (s : State) (w : Wait) : (s.await w).l2 = s.l2 := rfl
@[simp] theorem await_ifaces (s : State) (w : Wait) : (s.await w).ifaces = s.ifaces := rfl
@[simp] theorem await_harvest (s : State) (w : Wait) : (s.await w).harvest = s.harvest := rfl
@[simp] theorem await_faults (s : State) (w : Wait) : (s.await w).faults = s.faults := rfl
@[simp] theorem await_evals (s : State) (w : Wait) : (s.await w).evals = s.evals := rfl
@[simp] theorem await_instars (s : State) (w : Wait) : (s.await w).instars = s.instars := rfl
@[simp] theorem await_rings (s : State) (w : Wait) : (s.await w).rings = s.rings := rfl
@[simp] theorem await_net (s : State) (w : Wait) : (s.await w).net = s.net := rfl
@[simp] theorem await_barriers (s : State) (w : Wait) : (s.await w).barriers = s.barriers := rfl
@[simp] theorem await_unwritten (s : State) (w : Wait) : (s.await w).unwritten = s.unwritten := rfl
@[simp] theorem await_fills (s : State) (w : Wait) : (s.await w).fills = s.fills := rfl
@[simp] theorem await_leaving (s : State) (w : Wait) : (s.await w).leaving = s.leaving := rfl
@[simp] theorem await_salvages (s : State) (w : Wait) : (s.await w).salvages = s.salvages := rfl
@[simp] theorem await_nextBar (s : State) (w : Wait) : (s.await w).nextBar = s.nextBar := rfl
@[simp] theorem await_entries (s : State) (w : Wait) : (s.await w).entries = s.entries := rfl
@[simp] theorem await_estate (s : State) (w : Wait) : (s.await w).estate = s.estate := rfl
@[simp] theorem await_owners (s : State) (w : Wait) : (s.await w).owners = s.owners := rfl
@[simp] theorem await_spareSince (s : State) (w : Wait) : (s.await w).spareSince = s.spareSince := rfl
@[simp] theorem await_returning (s : State) (w : Wait) : (s.await w).returning = s.returning := rfl
@[simp] theorem await_sealedExt (s : State) (w : Wait) : (s.await w).sealedExt = s.sealedExt := rfl
@[simp] theorem await_queues (s : State) (w : Wait) : (s.await w).queues = s.queues := rfl
@[simp] theorem await_hubCopy (s : State) (w : Wait) : (s.await w).hubCopy = s.hubCopy := rfl
@[simp] theorem await_flights (s : State) (w : Wait) : (s.await w).flights = s.flights := rfl
@[simp] theorem await_boot (s : State) (w : Wait) : (s.await w).boot = s.boot := rfl
@[simp] theorem await_power (s : State) (w : Wait) : (s.await w).power = s.power := rfl
@[simp] theorem await_flash (s : State) (w : Wait) : (s.await w).flash = s.flash := rfl
@[simp] theorem await_host (s : State) (w : Wait) : (s.await w).host = s.host := rfl
@[simp] theorem await_log (s : State) (w : Wait) : (s.await w).log = s.log := rfl
@[simp] theorem await_side (s : State) (w : Wait) : (s.await w).side = s.side := rfl
@[simp] theorem await_fabric (s : State) (w : Wait) : (s.await w).fabric = s.fabric := rfl
@[simp] theorem await_gating (s : State) (w : Wait) : (s.await w).gating = s.gating := rfl
@[simp] theorem await_schedule (s : State) (w : Wait) : (s.await w).schedule = s.schedule := rfl
@[simp] theorem await_picks (s : State) (w : Wait) : (s.await w).picks = s.picks := rfl
@[simp] theorem await_postponed (s : State) (w : Wait) : (s.await w).postponed = s.postponed := rfl
@[simp] theorem await_arg (s : State) (w : Wait) : (s.await w).arg = s.arg := rfl
@[simp] theorem await_async (s : State) (w : Wait) : (s.await w).async = s.async := rfl
@[simp] theorem await_pace (s : State) (w : Wait) : (s.await w).pace = s.pace := rfl
@[simp] theorem await_cycle (s : State) (w : Wait) : (s.await w).cycle = s.cycle := rfl
@[simp] theorem await_free (s : State) (w : Wait) : (s.await w).free = s.free := rfl
@[simp] theorem await_out (s : State) (w : Wait) : (s.await w).out = s.out := rfl
@[simp] theorem await_due (s : State) (w : Wait) : (s.await w).due = s.due := rfl
@[simp] theorem await_denied (s : State) (w : Wait) : (s.await w).denied = s.denied := rfl

@[simp] theorem await_ctx_x (s : State) (w : Wait) : (s.await w).ctx.x = s.ctx.x := rfl
@[simp] theorem await_ctx_v (s : State) (w : Wait) : (s.await w).ctx.v = s.ctx.v := rfl
@[simp] theorem await_ctx_m (s : State) (w : Wait) : (s.await w).ctx.m = s.ctx.m := rfl
@[simp] theorem await_ctx_pc (s : State) (w : Wait) : (s.await w).ctx.pc = s.ctx.pc := rfl
@[simp] theorem await_ctx_stat (s : State) (w : Wait) : (s.await w).ctx.stat = s.ctx.stat := rfl
@[simp] theorem await_ctx_rtb (s : State) (w : Wait) : (s.await w).ctx.rtb = s.ctx.rtb := rfl
@[simp] theorem await_ctx_pdest (s : State) (w : Wait) : (s.await w).ctx.pdest = s.ctx.pdest := rfl
@[simp] theorem await_ctx_scla (s : State) (w : Wait) : (s.await w).ctx.scla = s.ctx.scla := rfl
@[simp] theorem await_ctx_sclb (s : State) (w : Wait) : (s.await w).ctx.sclb = s.ctx.sclb := rfl
@[simp] theorem await_ctx_ela (s : State) (w : Wait) : (s.await w).ctx.ela = s.ctx.ela := rfl
@[simp] theorem await_ctx_elb (s : State) (w : Wait) : (s.await w).ctx.elb = s.ctx.elb := rfl
@[simp] theorem await_ctx_ssha (s : State) (w : Wait) : (s.await w).ctx.ssha = s.ctx.ssha := rfl
@[simp] theorem await_ctx_sshb (s : State) (w : Wait) : (s.await w).ctx.sshb = s.ctx.sshb := rfl
@[simp] theorem await_ctx_evc (s : State) (w : Wait) : (s.await w).ctx.evc = s.ctx.evc := rfl
@[simp] theorem await_ctx_evcell (s : State) (w : Wait) : (s.await w).ctx.evcell = s.ctx.evcell := rfl
@[simp] theorem await_ctx_rstack (s : State) (w : Wait) : (s.await w).ctx.rstack = s.ctx.rstack := rfl
@[simp] theorem await_ctx_rdead (s : State) (w : Wait) : (s.await w).ctx.rdead = s.ctx.rdead := rfl
@[simp] theorem await_ctx_word (s : State) (w : Wait) : (s.await w).ctx.word = s.ctx.word := rfl
@[simp] theorem await_ctx_copyCount (s : State) (w : Wait) : (s.await w).ctx.copyCount = s.ctx.copyCount := rfl
@[simp] theorem await_ctx_copyErr (s : State) (w : Wait) : (s.await w).ctx.copyErr = s.ctx.copyErr := rfl
@[simp] theorem await_ctx_flight (s : State) (w : Wait) : (s.await w).ctx.flight = s.ctx.flight := rfl
@[simp] theorem await_ctx_prio (s : State) (w : Wait) : (s.await w).ctx.prio = s.ctx.prio := rfl
@[simp] theorem await_ctx_wait (s : State) (w : Wait) : (s.await w).ctx.wait = w := rfl

/-! ### setStat -/

@[simp] theorem setStat_coreNo (s : State) (v : Word) : (s.setStat v).coreNo = s.coreNo := rfl
@[simp] theorem setStat_running (s : State) (v : Word) : (s.setStat v).running = s.running := rfl
@[simp] theorem setStat_live (s : State) (v : Word) : (s.setStat v).live = s.live := rfl
@[simp] theorem setStat_core (s : State) (v : Word) : (s.setStat v).core = s.core := rfl
@[simp] theorem setStat_cores (s : State) (v : Word) : (s.setStat v).cores = s.cores := rfl
@[simp] theorem setStat_quads (s : State) (v : Word) : (s.setStat v).quads = s.quads := rfl
@[simp] theorem setStat_mem (s : State) (v : Word) : (s.setStat v).mem = s.mem := rfl
@[simp] theorem setStat_tags (s : State) (v : Word) : (s.setStat v).tags = s.tags := rfl
@[simp] theorem setStat_poison (s : State) (v : Word) : (s.setStat v).poison = s.poison := rfl
@[simp] theorem setStat_time (s : State) (v : Word) : (s.setStat v).time = s.time := rfl
@[simp] theorem setStat_clock (s : State) (v : Word) : (s.setStat v).clock = s.clock := rfl
@[simp] theorem setStat_inflight (s : State) (v : Word) : (s.setStat v).inflight = s.inflight := rfl
@[simp] theorem setStat_arrived (s : State) (v : Word) : (s.setStat v).arrived = s.arrived := rfl
@[simp] theorem setStat_leases (s : State) (v : Word) : (s.setStat v).leases = s.leases := rfl
@[simp] theorem setStat_l2 (s : State) (v : Word) : (s.setStat v).l2 = s.l2 := rfl
@[simp] theorem setStat_ifaces (s : State) (v : Word) : (s.setStat v).ifaces = s.ifaces := rfl
@[simp] theorem setStat_harvest (s : State) (v : Word) : (s.setStat v).harvest = s.harvest := rfl
@[simp] theorem setStat_faults (s : State) (v : Word) : (s.setStat v).faults = s.faults := rfl
@[simp] theorem setStat_evals (s : State) (v : Word) : (s.setStat v).evals = s.evals := rfl
@[simp] theorem setStat_instars (s : State) (v : Word) : (s.setStat v).instars = s.instars := rfl
@[simp] theorem setStat_rings (s : State) (v : Word) : (s.setStat v).rings = s.rings := rfl
@[simp] theorem setStat_net (s : State) (v : Word) : (s.setStat v).net = s.net := rfl
@[simp] theorem setStat_barriers (s : State) (v : Word) : (s.setStat v).barriers = s.barriers := rfl
@[simp] theorem setStat_unwritten (s : State) (v : Word) : (s.setStat v).unwritten = s.unwritten := rfl
@[simp] theorem setStat_fills (s : State) (v : Word) : (s.setStat v).fills = s.fills := rfl
@[simp] theorem setStat_leaving (s : State) (v : Word) : (s.setStat v).leaving = s.leaving := rfl
@[simp] theorem setStat_salvages (s : State) (v : Word) : (s.setStat v).salvages = s.salvages := rfl
@[simp] theorem setStat_nextBar (s : State) (v : Word) : (s.setStat v).nextBar = s.nextBar := rfl
@[simp] theorem setStat_entries (s : State) (v : Word) : (s.setStat v).entries = s.entries := rfl
@[simp] theorem setStat_estate (s : State) (v : Word) : (s.setStat v).estate = s.estate := rfl
@[simp] theorem setStat_owners (s : State) (v : Word) : (s.setStat v).owners = s.owners := rfl
@[simp] theorem setStat_spareSince (s : State) (v : Word) : (s.setStat v).spareSince = s.spareSince := rfl
@[simp] theorem setStat_returning (s : State) (v : Word) : (s.setStat v).returning = s.returning := rfl
@[simp] theorem setStat_sealedExt (s : State) (v : Word) : (s.setStat v).sealedExt = s.sealedExt := rfl
@[simp] theorem setStat_queues (s : State) (v : Word) : (s.setStat v).queues = s.queues := rfl
@[simp] theorem setStat_hubCopy (s : State) (v : Word) : (s.setStat v).hubCopy = s.hubCopy := rfl
@[simp] theorem setStat_flights (s : State) (v : Word) : (s.setStat v).flights = s.flights := rfl
@[simp] theorem setStat_boot (s : State) (v : Word) : (s.setStat v).boot = s.boot := rfl
@[simp] theorem setStat_power (s : State) (v : Word) : (s.setStat v).power = s.power := rfl
@[simp] theorem setStat_flash (s : State) (v : Word) : (s.setStat v).flash = s.flash := rfl
@[simp] theorem setStat_host (s : State) (v : Word) : (s.setStat v).host = s.host := rfl
@[simp] theorem setStat_log (s : State) (v : Word) : (s.setStat v).log = s.log := rfl
@[simp] theorem setStat_side (s : State) (v : Word) : (s.setStat v).side = s.side := rfl
@[simp] theorem setStat_fabric (s : State) (v : Word) : (s.setStat v).fabric = s.fabric := rfl
@[simp] theorem setStat_gating (s : State) (v : Word) : (s.setStat v).gating = s.gating := rfl
@[simp] theorem setStat_schedule (s : State) (v : Word) : (s.setStat v).schedule = s.schedule := rfl
@[simp] theorem setStat_picks (s : State) (v : Word) : (s.setStat v).picks = s.picks := rfl
@[simp] theorem setStat_postponed (s : State) (v : Word) : (s.setStat v).postponed = s.postponed := rfl
@[simp] theorem setStat_arg (s : State) (v : Word) : (s.setStat v).arg = s.arg := rfl
@[simp] theorem setStat_async (s : State) (v : Word) : (s.setStat v).async = s.async := rfl
@[simp] theorem setStat_pace (s : State) (v : Word) : (s.setStat v).pace = s.pace := rfl
@[simp] theorem setStat_cycle (s : State) (v : Word) : (s.setStat v).cycle = s.cycle := rfl
@[simp] theorem setStat_free (s : State) (v : Word) : (s.setStat v).free = s.free := rfl
@[simp] theorem setStat_out (s : State) (v : Word) : (s.setStat v).out = s.out := rfl
@[simp] theorem setStat_due (s : State) (v : Word) : (s.setStat v).due = s.due := rfl
@[simp] theorem setStat_denied (s : State) (v : Word) : (s.setStat v).denied = s.denied := rfl

@[simp] theorem setStat_ctx_x (s : State) (v : Word) : (s.setStat v).ctx.x = s.ctx.x := rfl
@[simp] theorem setStat_ctx_v (s : State) (v : Word) : (s.setStat v).ctx.v = s.ctx.v := rfl
@[simp] theorem setStat_ctx_m (s : State) (v : Word) : (s.setStat v).ctx.m = s.ctx.m := rfl
@[simp] theorem setStat_ctx_pc (s : State) (v : Word) : (s.setStat v).ctx.pc = s.ctx.pc := rfl
@[simp] theorem setStat_ctx_rtb (s : State) (v : Word) : (s.setStat v).ctx.rtb = s.ctx.rtb := rfl
@[simp] theorem setStat_ctx_pdest (s : State) (v : Word) : (s.setStat v).ctx.pdest = s.ctx.pdest := rfl
@[simp] theorem setStat_ctx_scla (s : State) (v : Word) : (s.setStat v).ctx.scla = s.ctx.scla := rfl
@[simp] theorem setStat_ctx_sclb (s : State) (v : Word) : (s.setStat v).ctx.sclb = s.ctx.sclb := rfl
@[simp] theorem setStat_ctx_ela (s : State) (v : Word) : (s.setStat v).ctx.ela = s.ctx.ela := rfl
@[simp] theorem setStat_ctx_elb (s : State) (v : Word) : (s.setStat v).ctx.elb = s.ctx.elb := rfl
@[simp] theorem setStat_ctx_ssha (s : State) (v : Word) : (s.setStat v).ctx.ssha = s.ctx.ssha := rfl
@[simp] theorem setStat_ctx_sshb (s : State) (v : Word) : (s.setStat v).ctx.sshb = s.ctx.sshb := rfl
@[simp] theorem setStat_ctx_evc (s : State) (v : Word) : (s.setStat v).ctx.evc = s.ctx.evc := rfl
@[simp] theorem setStat_ctx_evcell (s : State) (v : Word) : (s.setStat v).ctx.evcell = s.ctx.evcell := rfl
@[simp] theorem setStat_ctx_rstack (s : State) (v : Word) : (s.setStat v).ctx.rstack = s.ctx.rstack := rfl
@[simp] theorem setStat_ctx_rdead (s : State) (v : Word) : (s.setStat v).ctx.rdead = s.ctx.rdead := rfl
@[simp] theorem setStat_ctx_word (s : State) (v : Word) : (s.setStat v).ctx.word = s.ctx.word := rfl
@[simp] theorem setStat_ctx_copyCount (s : State) (v : Word) : (s.setStat v).ctx.copyCount = s.ctx.copyCount := rfl
@[simp] theorem setStat_ctx_copyErr (s : State) (v : Word) : (s.setStat v).ctx.copyErr = s.ctx.copyErr := rfl
@[simp] theorem setStat_ctx_flight (s : State) (v : Word) : (s.setStat v).ctx.flight = s.ctx.flight := rfl
@[simp] theorem setStat_ctx_prio (s : State) (v : Word) : (s.setStat v).ctx.prio = s.ctx.prio := rfl
@[simp] theorem setStat_ctx_wait (s : State) (v : Word) : (s.setStat v).ctx.wait = s.ctx.wait := rfl
@[simp] theorem setStat_ctx_stat (s : State) (v : Word) : (s.setStat v).ctx.stat = v := rfl

/-! ### setByte -/

@[simp] theorem setByte_coreNo (s : State) (k : Nat) (b : Byte) : (s.setByte k b).coreNo = s.coreNo := rfl
@[simp] theorem setByte_running (s : State) (k : Nat) (b : Byte) : (s.setByte k b).running = s.running := rfl
@[simp] theorem setByte_live (s : State) (k : Nat) (b : Byte) : (s.setByte k b).live = s.live := rfl
@[simp] theorem setByte_ctx (s : State) (k : Nat) (b : Byte) : (s.setByte k b).ctx = s.ctx := rfl
@[simp] theorem setByte_core (s : State) (k : Nat) (b : Byte) : (s.setByte k b).core = s.core := rfl
@[simp] theorem setByte_cores (s : State) (k : Nat) (b : Byte) : (s.setByte k b).cores = s.cores := rfl
@[simp] theorem setByte_quads (s : State) (k : Nat) (b : Byte) : (s.setByte k b).quads = s.quads := rfl
@[simp] theorem setByte_tags (s : State) (k : Nat) (b : Byte) : (s.setByte k b).tags = s.tags := rfl
@[simp] theorem setByte_poison (s : State) (k : Nat) (b : Byte) : (s.setByte k b).poison = s.poison := rfl
@[simp] theorem setByte_time (s : State) (k : Nat) (b : Byte) : (s.setByte k b).time = s.time := rfl
@[simp] theorem setByte_clock (s : State) (k : Nat) (b : Byte) : (s.setByte k b).clock = s.clock := rfl
@[simp] theorem setByte_inflight (s : State) (k : Nat) (b : Byte) : (s.setByte k b).inflight = s.inflight := rfl
@[simp] theorem setByte_arrived (s : State) (k : Nat) (b : Byte) : (s.setByte k b).arrived = s.arrived := rfl
@[simp] theorem setByte_leases (s : State) (k : Nat) (b : Byte) : (s.setByte k b).leases = s.leases := rfl
@[simp] theorem setByte_l2 (s : State) (k : Nat) (b : Byte) : (s.setByte k b).l2 = s.l2 := rfl
@[simp] theorem setByte_ifaces (s : State) (k : Nat) (b : Byte) : (s.setByte k b).ifaces = s.ifaces := rfl
@[simp] theorem setByte_harvest (s : State) (k : Nat) (b : Byte) : (s.setByte k b).harvest = s.harvest := rfl
@[simp] theorem setByte_faults (s : State) (k : Nat) (b : Byte) : (s.setByte k b).faults = s.faults := rfl
@[simp] theorem setByte_evals (s : State) (k : Nat) (b : Byte) : (s.setByte k b).evals = s.evals := rfl
@[simp] theorem setByte_instars (s : State) (k : Nat) (b : Byte) : (s.setByte k b).instars = s.instars := rfl
@[simp] theorem setByte_rings (s : State) (k : Nat) (b : Byte) : (s.setByte k b).rings = s.rings := rfl
@[simp] theorem setByte_net (s : State) (k : Nat) (b : Byte) : (s.setByte k b).net = s.net := rfl
@[simp] theorem setByte_barriers (s : State) (k : Nat) (b : Byte) : (s.setByte k b).barriers = s.barriers := rfl
@[simp] theorem setByte_unwritten (s : State) (k : Nat) (b : Byte) : (s.setByte k b).unwritten = s.unwritten := rfl
@[simp] theorem setByte_fills (s : State) (k : Nat) (b : Byte) : (s.setByte k b).fills = s.fills := rfl
@[simp] theorem setByte_leaving (s : State) (k : Nat) (b : Byte) : (s.setByte k b).leaving = s.leaving := rfl
@[simp] theorem setByte_salvages (s : State) (k : Nat) (b : Byte) : (s.setByte k b).salvages = s.salvages := rfl
@[simp] theorem setByte_nextBar (s : State) (k : Nat) (b : Byte) : (s.setByte k b).nextBar = s.nextBar := rfl
@[simp] theorem setByte_entries (s : State) (k : Nat) (b : Byte) : (s.setByte k b).entries = s.entries := rfl
@[simp] theorem setByte_estate (s : State) (k : Nat) (b : Byte) : (s.setByte k b).estate = s.estate := rfl
@[simp] theorem setByte_owners (s : State) (k : Nat) (b : Byte) : (s.setByte k b).owners = s.owners := rfl
@[simp] theorem setByte_spareSince (s : State) (k : Nat) (b : Byte) : (s.setByte k b).spareSince = s.spareSince := rfl
@[simp] theorem setByte_returning (s : State) (k : Nat) (b : Byte) : (s.setByte k b).returning = s.returning := rfl
@[simp] theorem setByte_sealedExt (s : State) (k : Nat) (b : Byte) : (s.setByte k b).sealedExt = s.sealedExt := rfl
@[simp] theorem setByte_queues (s : State) (k : Nat) (b : Byte) : (s.setByte k b).queues = s.queues := rfl
@[simp] theorem setByte_hubCopy (s : State) (k : Nat) (b : Byte) : (s.setByte k b).hubCopy = s.hubCopy := rfl
@[simp] theorem setByte_flights (s : State) (k : Nat) (b : Byte) : (s.setByte k b).flights = s.flights := rfl
@[simp] theorem setByte_boot (s : State) (k : Nat) (b : Byte) : (s.setByte k b).boot = s.boot := rfl
@[simp] theorem setByte_power (s : State) (k : Nat) (b : Byte) : (s.setByte k b).power = s.power := rfl
@[simp] theorem setByte_flash (s : State) (k : Nat) (b : Byte) : (s.setByte k b).flash = s.flash := rfl
@[simp] theorem setByte_host (s : State) (k : Nat) (b : Byte) : (s.setByte k b).host = s.host := rfl
@[simp] theorem setByte_log (s : State) (k : Nat) (b : Byte) : (s.setByte k b).log = s.log := rfl
@[simp] theorem setByte_side (s : State) (k : Nat) (b : Byte) : (s.setByte k b).side = s.side := rfl
@[simp] theorem setByte_fabric (s : State) (k : Nat) (b : Byte) : (s.setByte k b).fabric = s.fabric := rfl
@[simp] theorem setByte_gating (s : State) (k : Nat) (b : Byte) : (s.setByte k b).gating = s.gating := rfl
@[simp] theorem setByte_schedule (s : State) (k : Nat) (b : Byte) : (s.setByte k b).schedule = s.schedule := rfl
@[simp] theorem setByte_picks (s : State) (k : Nat) (b : Byte) : (s.setByte k b).picks = s.picks := rfl
@[simp] theorem setByte_postponed (s : State) (k : Nat) (b : Byte) : (s.setByte k b).postponed = s.postponed := rfl
@[simp] theorem setByte_arg (s : State) (k : Nat) (b : Byte) : (s.setByte k b).arg = s.arg := rfl
@[simp] theorem setByte_async (s : State) (k : Nat) (b : Byte) : (s.setByte k b).async = s.async := rfl
@[simp] theorem setByte_pace (s : State) (k : Nat) (b : Byte) : (s.setByte k b).pace = s.pace := rfl
@[simp] theorem setByte_cycle (s : State) (k : Nat) (b : Byte) : (s.setByte k b).cycle = s.cycle := rfl
@[simp] theorem setByte_free (s : State) (k : Nat) (b : Byte) : (s.setByte k b).free = s.free := rfl
@[simp] theorem setByte_out (s : State) (k : Nat) (b : Byte) : (s.setByte k b).out = s.out := rfl
@[simp] theorem setByte_due (s : State) (k : Nat) (b : Byte) : (s.setByte k b).due = s.due := rfl
@[simp] theorem setByte_denied (s : State) (k : Nat) (b : Byte) : (s.setByte k b).denied = s.denied := rfl

/-! ### clearMem -/

@[simp] theorem clearMem_coreNo (s : State) (lo hi : Nat) : (s.clearMem lo hi).coreNo = s.coreNo := rfl
@[simp] theorem clearMem_running (s : State) (lo hi : Nat) : (s.clearMem lo hi).running = s.running := rfl
@[simp] theorem clearMem_live (s : State) (lo hi : Nat) : (s.clearMem lo hi).live = s.live := rfl
@[simp] theorem clearMem_ctx (s : State) (lo hi : Nat) : (s.clearMem lo hi).ctx = s.ctx := rfl
@[simp] theorem clearMem_core (s : State) (lo hi : Nat) : (s.clearMem lo hi).core = s.core := rfl
@[simp] theorem clearMem_cores (s : State) (lo hi : Nat) : (s.clearMem lo hi).cores = s.cores := rfl
@[simp] theorem clearMem_quads (s : State) (lo hi : Nat) : (s.clearMem lo hi).quads = s.quads := rfl
@[simp] theorem clearMem_tags (s : State) (lo hi : Nat) : (s.clearMem lo hi).tags = s.tags := rfl
@[simp] theorem clearMem_poison (s : State) (lo hi : Nat) : (s.clearMem lo hi).poison = s.poison := rfl
@[simp] theorem clearMem_time (s : State) (lo hi : Nat) : (s.clearMem lo hi).time = s.time := rfl
@[simp] theorem clearMem_clock (s : State) (lo hi : Nat) : (s.clearMem lo hi).clock = s.clock := rfl
@[simp] theorem clearMem_inflight (s : State) (lo hi : Nat) : (s.clearMem lo hi).inflight = s.inflight := rfl
@[simp] theorem clearMem_arrived (s : State) (lo hi : Nat) : (s.clearMem lo hi).arrived = s.arrived := rfl
@[simp] theorem clearMem_leases (s : State) (lo hi : Nat) : (s.clearMem lo hi).leases = s.leases := rfl
@[simp] theorem clearMem_l2 (s : State) (lo hi : Nat) : (s.clearMem lo hi).l2 = s.l2 := rfl
@[simp] theorem clearMem_ifaces (s : State) (lo hi : Nat) : (s.clearMem lo hi).ifaces = s.ifaces := rfl
@[simp] theorem clearMem_harvest (s : State) (lo hi : Nat) : (s.clearMem lo hi).harvest = s.harvest := rfl
@[simp] theorem clearMem_faults (s : State) (lo hi : Nat) : (s.clearMem lo hi).faults = s.faults := rfl
@[simp] theorem clearMem_evals (s : State) (lo hi : Nat) : (s.clearMem lo hi).evals = s.evals := rfl
@[simp] theorem clearMem_instars (s : State) (lo hi : Nat) : (s.clearMem lo hi).instars = s.instars := rfl
@[simp] theorem clearMem_rings (s : State) (lo hi : Nat) : (s.clearMem lo hi).rings = s.rings := rfl
@[simp] theorem clearMem_net (s : State) (lo hi : Nat) : (s.clearMem lo hi).net = s.net := rfl
@[simp] theorem clearMem_barriers (s : State) (lo hi : Nat) : (s.clearMem lo hi).barriers = s.barriers := rfl
@[simp] theorem clearMem_unwritten (s : State) (lo hi : Nat) : (s.clearMem lo hi).unwritten = s.unwritten := rfl
@[simp] theorem clearMem_fills (s : State) (lo hi : Nat) : (s.clearMem lo hi).fills = s.fills := rfl
@[simp] theorem clearMem_leaving (s : State) (lo hi : Nat) : (s.clearMem lo hi).leaving = s.leaving := rfl
@[simp] theorem clearMem_salvages (s : State) (lo hi : Nat) : (s.clearMem lo hi).salvages = s.salvages := rfl
@[simp] theorem clearMem_nextBar (s : State) (lo hi : Nat) : (s.clearMem lo hi).nextBar = s.nextBar := rfl
@[simp] theorem clearMem_entries (s : State) (lo hi : Nat) : (s.clearMem lo hi).entries = s.entries := rfl
@[simp] theorem clearMem_estate (s : State) (lo hi : Nat) : (s.clearMem lo hi).estate = s.estate := rfl
@[simp] theorem clearMem_owners (s : State) (lo hi : Nat) : (s.clearMem lo hi).owners = s.owners := rfl
@[simp] theorem clearMem_spareSince (s : State) (lo hi : Nat) : (s.clearMem lo hi).spareSince = s.spareSince := rfl
@[simp] theorem clearMem_returning (s : State) (lo hi : Nat) : (s.clearMem lo hi).returning = s.returning := rfl
@[simp] theorem clearMem_sealedExt (s : State) (lo hi : Nat) : (s.clearMem lo hi).sealedExt = s.sealedExt := rfl
@[simp] theorem clearMem_queues (s : State) (lo hi : Nat) : (s.clearMem lo hi).queues = s.queues := rfl
@[simp] theorem clearMem_hubCopy (s : State) (lo hi : Nat) : (s.clearMem lo hi).hubCopy = s.hubCopy := rfl
@[simp] theorem clearMem_flights (s : State) (lo hi : Nat) : (s.clearMem lo hi).flights = s.flights := rfl
@[simp] theorem clearMem_boot (s : State) (lo hi : Nat) : (s.clearMem lo hi).boot = s.boot := rfl
@[simp] theorem clearMem_power (s : State) (lo hi : Nat) : (s.clearMem lo hi).power = s.power := rfl
@[simp] theorem clearMem_flash (s : State) (lo hi : Nat) : (s.clearMem lo hi).flash = s.flash := rfl
@[simp] theorem clearMem_host (s : State) (lo hi : Nat) : (s.clearMem lo hi).host = s.host := rfl
@[simp] theorem clearMem_log (s : State) (lo hi : Nat) : (s.clearMem lo hi).log = s.log := rfl
@[simp] theorem clearMem_side (s : State) (lo hi : Nat) : (s.clearMem lo hi).side = s.side := rfl
@[simp] theorem clearMem_fabric (s : State) (lo hi : Nat) : (s.clearMem lo hi).fabric = s.fabric := rfl
@[simp] theorem clearMem_gating (s : State) (lo hi : Nat) : (s.clearMem lo hi).gating = s.gating := rfl
@[simp] theorem clearMem_schedule (s : State) (lo hi : Nat) : (s.clearMem lo hi).schedule = s.schedule := rfl
@[simp] theorem clearMem_picks (s : State) (lo hi : Nat) : (s.clearMem lo hi).picks = s.picks := rfl
@[simp] theorem clearMem_postponed (s : State) (lo hi : Nat) : (s.clearMem lo hi).postponed = s.postponed := rfl
@[simp] theorem clearMem_arg (s : State) (lo hi : Nat) : (s.clearMem lo hi).arg = s.arg := rfl
@[simp] theorem clearMem_async (s : State) (lo hi : Nat) : (s.clearMem lo hi).async = s.async := rfl
@[simp] theorem clearMem_pace (s : State) (lo hi : Nat) : (s.clearMem lo hi).pace = s.pace := rfl
@[simp] theorem clearMem_cycle (s : State) (lo hi : Nat) : (s.clearMem lo hi).cycle = s.cycle := rfl
@[simp] theorem clearMem_free (s : State) (lo hi : Nat) : (s.clearMem lo hi).free = s.free := rfl
@[simp] theorem clearMem_out (s : State) (lo hi : Nat) : (s.clearMem lo hi).out = s.out := rfl
@[simp] theorem clearMem_due (s : State) (lo hi : Nat) : (s.clearMem lo hi).due = s.due := rfl
@[simp] theorem clearMem_denied (s : State) (lo hi : Nat) : (s.clearMem lo hi).denied = s.denied := rfl

/-! ### clearTags -/

@[simp] theorem clearTags_coreNo (s : State) (lo hi : Nat) : (s.clearTags lo hi).coreNo = s.coreNo := rfl
@[simp] theorem clearTags_running (s : State) (lo hi : Nat) : (s.clearTags lo hi).running = s.running := rfl
@[simp] theorem clearTags_live (s : State) (lo hi : Nat) : (s.clearTags lo hi).live = s.live := rfl
@[simp] theorem clearTags_ctx (s : State) (lo hi : Nat) : (s.clearTags lo hi).ctx = s.ctx := rfl
@[simp] theorem clearTags_core (s : State) (lo hi : Nat) : (s.clearTags lo hi).core = s.core := rfl
@[simp] theorem clearTags_cores (s : State) (lo hi : Nat) : (s.clearTags lo hi).cores = s.cores := rfl
@[simp] theorem clearTags_quads (s : State) (lo hi : Nat) : (s.clearTags lo hi).quads = s.quads := rfl
@[simp] theorem clearTags_mem (s : State) (lo hi : Nat) : (s.clearTags lo hi).mem = s.mem := rfl
@[simp] theorem clearTags_poison (s : State) (lo hi : Nat) : (s.clearTags lo hi).poison = s.poison := rfl
@[simp] theorem clearTags_time (s : State) (lo hi : Nat) : (s.clearTags lo hi).time = s.time := rfl
@[simp] theorem clearTags_clock (s : State) (lo hi : Nat) : (s.clearTags lo hi).clock = s.clock := rfl
@[simp] theorem clearTags_inflight (s : State) (lo hi : Nat) : (s.clearTags lo hi).inflight = s.inflight := rfl
@[simp] theorem clearTags_arrived (s : State) (lo hi : Nat) : (s.clearTags lo hi).arrived = s.arrived := rfl
@[simp] theorem clearTags_leases (s : State) (lo hi : Nat) : (s.clearTags lo hi).leases = s.leases := rfl
@[simp] theorem clearTags_l2 (s : State) (lo hi : Nat) : (s.clearTags lo hi).l2 = s.l2 := rfl
@[simp] theorem clearTags_ifaces (s : State) (lo hi : Nat) : (s.clearTags lo hi).ifaces = s.ifaces := rfl
@[simp] theorem clearTags_harvest (s : State) (lo hi : Nat) : (s.clearTags lo hi).harvest = s.harvest := rfl
@[simp] theorem clearTags_faults (s : State) (lo hi : Nat) : (s.clearTags lo hi).faults = s.faults := rfl
@[simp] theorem clearTags_evals (s : State) (lo hi : Nat) : (s.clearTags lo hi).evals = s.evals := rfl
@[simp] theorem clearTags_instars (s : State) (lo hi : Nat) : (s.clearTags lo hi).instars = s.instars := rfl
@[simp] theorem clearTags_rings (s : State) (lo hi : Nat) : (s.clearTags lo hi).rings = s.rings := rfl
@[simp] theorem clearTags_net (s : State) (lo hi : Nat) : (s.clearTags lo hi).net = s.net := rfl
@[simp] theorem clearTags_barriers (s : State) (lo hi : Nat) : (s.clearTags lo hi).barriers = s.barriers := rfl
@[simp] theorem clearTags_unwritten (s : State) (lo hi : Nat) : (s.clearTags lo hi).unwritten = s.unwritten := rfl
@[simp] theorem clearTags_fills (s : State) (lo hi : Nat) : (s.clearTags lo hi).fills = s.fills := rfl
@[simp] theorem clearTags_leaving (s : State) (lo hi : Nat) : (s.clearTags lo hi).leaving = s.leaving := rfl
@[simp] theorem clearTags_salvages (s : State) (lo hi : Nat) : (s.clearTags lo hi).salvages = s.salvages := rfl
@[simp] theorem clearTags_nextBar (s : State) (lo hi : Nat) : (s.clearTags lo hi).nextBar = s.nextBar := rfl
@[simp] theorem clearTags_entries (s : State) (lo hi : Nat) : (s.clearTags lo hi).entries = s.entries := rfl
@[simp] theorem clearTags_estate (s : State) (lo hi : Nat) : (s.clearTags lo hi).estate = s.estate := rfl
@[simp] theorem clearTags_owners (s : State) (lo hi : Nat) : (s.clearTags lo hi).owners = s.owners := rfl
@[simp] theorem clearTags_spareSince (s : State) (lo hi : Nat) : (s.clearTags lo hi).spareSince = s.spareSince := rfl
@[simp] theorem clearTags_returning (s : State) (lo hi : Nat) : (s.clearTags lo hi).returning = s.returning := rfl
@[simp] theorem clearTags_sealedExt (s : State) (lo hi : Nat) : (s.clearTags lo hi).sealedExt = s.sealedExt := rfl
@[simp] theorem clearTags_queues (s : State) (lo hi : Nat) : (s.clearTags lo hi).queues = s.queues := rfl
@[simp] theorem clearTags_hubCopy (s : State) (lo hi : Nat) : (s.clearTags lo hi).hubCopy = s.hubCopy := rfl
@[simp] theorem clearTags_flights (s : State) (lo hi : Nat) : (s.clearTags lo hi).flights = s.flights := rfl
@[simp] theorem clearTags_boot (s : State) (lo hi : Nat) : (s.clearTags lo hi).boot = s.boot := rfl
@[simp] theorem clearTags_power (s : State) (lo hi : Nat) : (s.clearTags lo hi).power = s.power := rfl
@[simp] theorem clearTags_flash (s : State) (lo hi : Nat) : (s.clearTags lo hi).flash = s.flash := rfl
@[simp] theorem clearTags_host (s : State) (lo hi : Nat) : (s.clearTags lo hi).host = s.host := rfl
@[simp] theorem clearTags_log (s : State) (lo hi : Nat) : (s.clearTags lo hi).log = s.log := rfl
@[simp] theorem clearTags_side (s : State) (lo hi : Nat) : (s.clearTags lo hi).side = s.side := rfl
@[simp] theorem clearTags_fabric (s : State) (lo hi : Nat) : (s.clearTags lo hi).fabric = s.fabric := rfl
@[simp] theorem clearTags_gating (s : State) (lo hi : Nat) : (s.clearTags lo hi).gating = s.gating := rfl
@[simp] theorem clearTags_schedule (s : State) (lo hi : Nat) : (s.clearTags lo hi).schedule = s.schedule := rfl
@[simp] theorem clearTags_picks (s : State) (lo hi : Nat) : (s.clearTags lo hi).picks = s.picks := rfl
@[simp] theorem clearTags_postponed (s : State) (lo hi : Nat) : (s.clearTags lo hi).postponed = s.postponed := rfl
@[simp] theorem clearTags_arg (s : State) (lo hi : Nat) : (s.clearTags lo hi).arg = s.arg := rfl
@[simp] theorem clearTags_async (s : State) (lo hi : Nat) : (s.clearTags lo hi).async = s.async := rfl
@[simp] theorem clearTags_pace (s : State) (lo hi : Nat) : (s.clearTags lo hi).pace = s.pace := rfl
@[simp] theorem clearTags_cycle (s : State) (lo hi : Nat) : (s.clearTags lo hi).cycle = s.cycle := rfl
@[simp] theorem clearTags_free (s : State) (lo hi : Nat) : (s.clearTags lo hi).free = s.free := rfl
@[simp] theorem clearTags_out (s : State) (lo hi : Nat) : (s.clearTags lo hi).out = s.out := rfl
@[simp] theorem clearTags_due (s : State) (lo hi : Nat) : (s.clearTags lo hi).due = s.due := rfl
@[simp] theorem clearTags_denied (s : State) (lo hi : Nat) : (s.clearTags lo hi).denied = s.denied := rfl

/-! ### answer -/

@[simp] theorem answer_coreNo (s : State) (o : Output) : (s.answer o).coreNo = s.coreNo := rfl
@[simp] theorem answer_running (s : State) (o : Output) : (s.answer o).running = s.running := rfl
@[simp] theorem answer_live (s : State) (o : Output) : (s.answer o).live = s.live := rfl
@[simp] theorem answer_ctx (s : State) (o : Output) : (s.answer o).ctx = s.ctx := rfl
@[simp] theorem answer_core (s : State) (o : Output) : (s.answer o).core = s.core := rfl
@[simp] theorem answer_cores (s : State) (o : Output) : (s.answer o).cores = s.cores := rfl
@[simp] theorem answer_quads (s : State) (o : Output) : (s.answer o).quads = s.quads := rfl
@[simp] theorem answer_mem (s : State) (o : Output) : (s.answer o).mem = s.mem := rfl
@[simp] theorem answer_tags (s : State) (o : Output) : (s.answer o).tags = s.tags := rfl
@[simp] theorem answer_poison (s : State) (o : Output) : (s.answer o).poison = s.poison := rfl
@[simp] theorem answer_time (s : State) (o : Output) : (s.answer o).time = s.time := rfl
@[simp] theorem answer_clock (s : State) (o : Output) : (s.answer o).clock = s.clock := rfl
@[simp] theorem answer_inflight (s : State) (o : Output) : (s.answer o).inflight = s.inflight := rfl
@[simp] theorem answer_arrived (s : State) (o : Output) : (s.answer o).arrived = s.arrived := rfl
@[simp] theorem answer_leases (s : State) (o : Output) : (s.answer o).leases = s.leases := rfl
@[simp] theorem answer_l2 (s : State) (o : Output) : (s.answer o).l2 = s.l2 := rfl
@[simp] theorem answer_ifaces (s : State) (o : Output) : (s.answer o).ifaces = s.ifaces := rfl
@[simp] theorem answer_harvest (s : State) (o : Output) : (s.answer o).harvest = s.harvest := rfl
@[simp] theorem answer_faults (s : State) (o : Output) : (s.answer o).faults = s.faults := rfl
@[simp] theorem answer_evals (s : State) (o : Output) : (s.answer o).evals = s.evals := rfl
@[simp] theorem answer_instars (s : State) (o : Output) : (s.answer o).instars = s.instars := rfl
@[simp] theorem answer_rings (s : State) (o : Output) : (s.answer o).rings = s.rings := rfl
@[simp] theorem answer_net (s : State) (o : Output) : (s.answer o).net = s.net := rfl
@[simp] theorem answer_barriers (s : State) (o : Output) : (s.answer o).barriers = s.barriers := rfl
@[simp] theorem answer_unwritten (s : State) (o : Output) : (s.answer o).unwritten = s.unwritten := rfl
@[simp] theorem answer_fills (s : State) (o : Output) : (s.answer o).fills = s.fills := rfl
@[simp] theorem answer_leaving (s : State) (o : Output) : (s.answer o).leaving = s.leaving := rfl
@[simp] theorem answer_salvages (s : State) (o : Output) : (s.answer o).salvages = s.salvages := rfl
@[simp] theorem answer_nextBar (s : State) (o : Output) : (s.answer o).nextBar = s.nextBar := rfl
@[simp] theorem answer_entries (s : State) (o : Output) : (s.answer o).entries = s.entries := rfl
@[simp] theorem answer_estate (s : State) (o : Output) : (s.answer o).estate = s.estate := rfl
@[simp] theorem answer_owners (s : State) (o : Output) : (s.answer o).owners = s.owners := rfl
@[simp] theorem answer_spareSince (s : State) (o : Output) : (s.answer o).spareSince = s.spareSince := rfl
@[simp] theorem answer_returning (s : State) (o : Output) : (s.answer o).returning = s.returning := rfl
@[simp] theorem answer_sealedExt (s : State) (o : Output) : (s.answer o).sealedExt = s.sealedExt := rfl
@[simp] theorem answer_queues (s : State) (o : Output) : (s.answer o).queues = s.queues := rfl
@[simp] theorem answer_hubCopy (s : State) (o : Output) : (s.answer o).hubCopy = s.hubCopy := rfl
@[simp] theorem answer_flights (s : State) (o : Output) : (s.answer o).flights = s.flights := rfl
@[simp] theorem answer_boot (s : State) (o : Output) : (s.answer o).boot = s.boot := rfl
@[simp] theorem answer_power (s : State) (o : Output) : (s.answer o).power = s.power := rfl
@[simp] theorem answer_flash (s : State) (o : Output) : (s.answer o).flash = s.flash := rfl
@[simp] theorem answer_host (s : State) (o : Output) : (s.answer o).host = s.host := rfl
@[simp] theorem answer_log (s : State) (o : Output) : (s.answer o).log = s.log := rfl
@[simp] theorem answer_side (s : State) (o : Output) : (s.answer o).side = s.side := rfl
@[simp] theorem answer_fabric (s : State) (o : Output) : (s.answer o).fabric = s.fabric := rfl
@[simp] theorem answer_gating (s : State) (o : Output) : (s.answer o).gating = s.gating := rfl
@[simp] theorem answer_schedule (s : State) (o : Output) : (s.answer o).schedule = s.schedule := rfl
@[simp] theorem answer_picks (s : State) (o : Output) : (s.answer o).picks = s.picks := rfl
@[simp] theorem answer_postponed (s : State) (o : Output) : (s.answer o).postponed = s.postponed := rfl
@[simp] theorem answer_arg (s : State) (o : Output) : (s.answer o).arg = s.arg := rfl
@[simp] theorem answer_async (s : State) (o : Output) : (s.answer o).async = s.async := rfl
@[simp] theorem answer_pace (s : State) (o : Output) : (s.answer o).pace = s.pace := rfl
@[simp] theorem answer_cycle (s : State) (o : Output) : (s.answer o).cycle = s.cycle := rfl
@[simp] theorem answer_free (s : State) (o : Output) : (s.answer o).free = s.free := rfl
@[simp] theorem answer_due (s : State) (o : Output) : (s.answer o).due = s.due := rfl
@[simp] theorem answer_denied (s : State) (o : Output) : (s.answer o).denied = s.denied := rfl

/-! ### wx: a write of a register, discarded at x0 -/

theorem wx_zero (s : State) (v : Word) : s.wx 0 v = s := rfl

theorem wx_eq (s : State) (r : Nat) (v : Word) : s.wx r v = s.setCtx { s.ctx with x := if r = 0 then s.ctx.x else s.ctx.x.setIfInBounds r v } := by
  unfold wx
  split <;> rfl

@[simp] theorem wx_coreNo (s : State) (r : Nat) (v : Word) : (s.wx r v).coreNo = s.coreNo := by rw [wx_eq]; rfl
@[simp] theorem wx_running (s : State) (r : Nat) (v : Word) : (s.wx r v).running = s.running := by rw [wx_eq]; rfl
@[simp] theorem wx_live (s : State) (r : Nat) (v : Word) : (s.wx r v).live = s.live := by rw [wx_eq]; rfl
@[simp] theorem wx_core (s : State) (r : Nat) (v : Word) : (s.wx r v).core = s.core := by rw [wx_eq]; rfl
@[simp] theorem wx_cores (s : State) (r : Nat) (v : Word) : (s.wx r v).cores = s.cores := by rw [wx_eq]; rfl
@[simp] theorem wx_quads (s : State) (r : Nat) (v : Word) : (s.wx r v).quads = s.quads := by rw [wx_eq]; rfl
@[simp] theorem wx_mem (s : State) (r : Nat) (v : Word) : (s.wx r v).mem = s.mem := by rw [wx_eq]; rfl
@[simp] theorem wx_tags (s : State) (r : Nat) (v : Word) : (s.wx r v).tags = s.tags := by rw [wx_eq]; rfl
@[simp] theorem wx_poison (s : State) (r : Nat) (v : Word) : (s.wx r v).poison = s.poison := by rw [wx_eq]; rfl
@[simp] theorem wx_time (s : State) (r : Nat) (v : Word) : (s.wx r v).time = s.time := by rw [wx_eq]; rfl
@[simp] theorem wx_clock (s : State) (r : Nat) (v : Word) : (s.wx r v).clock = s.clock := by rw [wx_eq]; rfl
@[simp] theorem wx_inflight (s : State) (r : Nat) (v : Word) : (s.wx r v).inflight = s.inflight := by rw [wx_eq]; rfl
@[simp] theorem wx_arrived (s : State) (r : Nat) (v : Word) : (s.wx r v).arrived = s.arrived := by rw [wx_eq]; rfl
@[simp] theorem wx_leases (s : State) (r : Nat) (v : Word) : (s.wx r v).leases = s.leases := by rw [wx_eq]; rfl
@[simp] theorem wx_l2 (s : State) (r : Nat) (v : Word) : (s.wx r v).l2 = s.l2 := by rw [wx_eq]; rfl
@[simp] theorem wx_ifaces (s : State) (r : Nat) (v : Word) : (s.wx r v).ifaces = s.ifaces := by rw [wx_eq]; rfl
@[simp] theorem wx_harvest (s : State) (r : Nat) (v : Word) : (s.wx r v).harvest = s.harvest := by rw [wx_eq]; rfl
@[simp] theorem wx_faults (s : State) (r : Nat) (v : Word) : (s.wx r v).faults = s.faults := by rw [wx_eq]; rfl
@[simp] theorem wx_evals (s : State) (r : Nat) (v : Word) : (s.wx r v).evals = s.evals := by rw [wx_eq]; rfl
@[simp] theorem wx_instars (s : State) (r : Nat) (v : Word) : (s.wx r v).instars = s.instars := by rw [wx_eq]; rfl
@[simp] theorem wx_rings (s : State) (r : Nat) (v : Word) : (s.wx r v).rings = s.rings := by rw [wx_eq]; rfl
@[simp] theorem wx_net (s : State) (r : Nat) (v : Word) : (s.wx r v).net = s.net := by rw [wx_eq]; rfl
@[simp] theorem wx_barriers (s : State) (r : Nat) (v : Word) : (s.wx r v).barriers = s.barriers := by rw [wx_eq]; rfl
@[simp] theorem wx_unwritten (s : State) (r : Nat) (v : Word) : (s.wx r v).unwritten = s.unwritten := by rw [wx_eq]; rfl
@[simp] theorem wx_fills (s : State) (r : Nat) (v : Word) : (s.wx r v).fills = s.fills := by rw [wx_eq]; rfl
@[simp] theorem wx_leaving (s : State) (r : Nat) (v : Word) : (s.wx r v).leaving = s.leaving := by rw [wx_eq]; rfl
@[simp] theorem wx_salvages (s : State) (r : Nat) (v : Word) : (s.wx r v).salvages = s.salvages := by rw [wx_eq]; rfl
@[simp] theorem wx_nextBar (s : State) (r : Nat) (v : Word) : (s.wx r v).nextBar = s.nextBar := by rw [wx_eq]; rfl
@[simp] theorem wx_entries (s : State) (r : Nat) (v : Word) : (s.wx r v).entries = s.entries := by rw [wx_eq]; rfl
@[simp] theorem wx_estate (s : State) (r : Nat) (v : Word) : (s.wx r v).estate = s.estate := by rw [wx_eq]; rfl
@[simp] theorem wx_owners (s : State) (r : Nat) (v : Word) : (s.wx r v).owners = s.owners := by rw [wx_eq]; rfl
@[simp] theorem wx_spareSince (s : State) (r : Nat) (v : Word) : (s.wx r v).spareSince = s.spareSince := by rw [wx_eq]; rfl
@[simp] theorem wx_returning (s : State) (r : Nat) (v : Word) : (s.wx r v).returning = s.returning := by rw [wx_eq]; rfl
@[simp] theorem wx_sealedExt (s : State) (r : Nat) (v : Word) : (s.wx r v).sealedExt = s.sealedExt := by rw [wx_eq]; rfl
@[simp] theorem wx_queues (s : State) (r : Nat) (v : Word) : (s.wx r v).queues = s.queues := by rw [wx_eq]; rfl
@[simp] theorem wx_hubCopy (s : State) (r : Nat) (v : Word) : (s.wx r v).hubCopy = s.hubCopy := by rw [wx_eq]; rfl
@[simp] theorem wx_flights (s : State) (r : Nat) (v : Word) : (s.wx r v).flights = s.flights := by rw [wx_eq]; rfl
@[simp] theorem wx_boot (s : State) (r : Nat) (v : Word) : (s.wx r v).boot = s.boot := by rw [wx_eq]; rfl
@[simp] theorem wx_power (s : State) (r : Nat) (v : Word) : (s.wx r v).power = s.power := by rw [wx_eq]; rfl
@[simp] theorem wx_flash (s : State) (r : Nat) (v : Word) : (s.wx r v).flash = s.flash := by rw [wx_eq]; rfl
@[simp] theorem wx_host (s : State) (r : Nat) (v : Word) : (s.wx r v).host = s.host := by rw [wx_eq]; rfl
@[simp] theorem wx_log (s : State) (r : Nat) (v : Word) : (s.wx r v).log = s.log := by rw [wx_eq]; rfl
@[simp] theorem wx_side (s : State) (r : Nat) (v : Word) : (s.wx r v).side = s.side := by rw [wx_eq]; rfl
@[simp] theorem wx_fabric (s : State) (r : Nat) (v : Word) : (s.wx r v).fabric = s.fabric := by rw [wx_eq]; rfl
@[simp] theorem wx_gating (s : State) (r : Nat) (v : Word) : (s.wx r v).gating = s.gating := by rw [wx_eq]; rfl
@[simp] theorem wx_schedule (s : State) (r : Nat) (v : Word) : (s.wx r v).schedule = s.schedule := by rw [wx_eq]; rfl
@[simp] theorem wx_picks (s : State) (r : Nat) (v : Word) : (s.wx r v).picks = s.picks := by rw [wx_eq]; rfl
@[simp] theorem wx_postponed (s : State) (r : Nat) (v : Word) : (s.wx r v).postponed = s.postponed := by rw [wx_eq]; rfl
@[simp] theorem wx_arg (s : State) (r : Nat) (v : Word) : (s.wx r v).arg = s.arg := by rw [wx_eq]; rfl
@[simp] theorem wx_async (s : State) (r : Nat) (v : Word) : (s.wx r v).async = s.async := by rw [wx_eq]; rfl
@[simp] theorem wx_pace (s : State) (r : Nat) (v : Word) : (s.wx r v).pace = s.pace := by rw [wx_eq]; rfl
@[simp] theorem wx_cycle (s : State) (r : Nat) (v : Word) : (s.wx r v).cycle = s.cycle := by rw [wx_eq]; rfl
@[simp] theorem wx_free (s : State) (r : Nat) (v : Word) : (s.wx r v).free = s.free := by rw [wx_eq]; rfl
@[simp] theorem wx_out (s : State) (r : Nat) (v : Word) : (s.wx r v).out = s.out := by rw [wx_eq]; rfl
@[simp] theorem wx_due (s : State) (r : Nat) (v : Word) : (s.wx r v).due = s.due := by rw [wx_eq]; rfl
@[simp] theorem wx_denied (s : State) (r : Nat) (v : Word) : (s.wx r v).denied = s.denied := by rw [wx_eq]; rfl
@[simp] theorem wx_ctx_v (s : State) (r : Nat) (v : Word) : (s.wx r v).ctx.v = s.ctx.v := by rw [wx_eq]; rfl
@[simp] theorem wx_ctx_m (s : State) (r : Nat) (v : Word) : (s.wx r v).ctx.m = s.ctx.m := by rw [wx_eq]; rfl
@[simp] theorem wx_ctx_pc (s : State) (r : Nat) (v : Word) : (s.wx r v).ctx.pc = s.ctx.pc := by rw [wx_eq]; rfl
@[simp] theorem wx_ctx_stat (s : State) (r : Nat) (v : Word) : (s.wx r v).ctx.stat = s.ctx.stat := by rw [wx_eq]; rfl
@[simp] theorem wx_ctx_rtb (s : State) (r : Nat) (v : Word) : (s.wx r v).ctx.rtb = s.ctx.rtb := by rw [wx_eq]; rfl
@[simp] theorem wx_ctx_pdest (s : State) (r : Nat) (v : Word) : (s.wx r v).ctx.pdest = s.ctx.pdest := by rw [wx_eq]; rfl
@[simp] theorem wx_ctx_scla (s : State) (r : Nat) (v : Word) : (s.wx r v).ctx.scla = s.ctx.scla := by rw [wx_eq]; rfl
@[simp] theorem wx_ctx_sclb (s : State) (r : Nat) (v : Word) : (s.wx r v).ctx.sclb = s.ctx.sclb := by rw [wx_eq]; rfl
@[simp] theorem wx_ctx_ela (s : State) (r : Nat) (v : Word) : (s.wx r v).ctx.ela = s.ctx.ela := by rw [wx_eq]; rfl
@[simp] theorem wx_ctx_elb (s : State) (r : Nat) (v : Word) : (s.wx r v).ctx.elb = s.ctx.elb := by rw [wx_eq]; rfl
@[simp] theorem wx_ctx_ssha (s : State) (r : Nat) (v : Word) : (s.wx r v).ctx.ssha = s.ctx.ssha := by rw [wx_eq]; rfl
@[simp] theorem wx_ctx_sshb (s : State) (r : Nat) (v : Word) : (s.wx r v).ctx.sshb = s.ctx.sshb := by rw [wx_eq]; rfl
@[simp] theorem wx_ctx_evc (s : State) (r : Nat) (v : Word) : (s.wx r v).ctx.evc = s.ctx.evc := by rw [wx_eq]; rfl
@[simp] theorem wx_ctx_evcell (s : State) (r : Nat) (v : Word) : (s.wx r v).ctx.evcell = s.ctx.evcell := by rw [wx_eq]; rfl
@[simp] theorem wx_ctx_rstack (s : State) (r : Nat) (v : Word) : (s.wx r v).ctx.rstack = s.ctx.rstack := by rw [wx_eq]; rfl
@[simp] theorem wx_ctx_rdead (s : State) (r : Nat) (v : Word) : (s.wx r v).ctx.rdead = s.ctx.rdead := by rw [wx_eq]; rfl
@[simp] theorem wx_ctx_word (s : State) (r : Nat) (v : Word) : (s.wx r v).ctx.word = s.ctx.word := by rw [wx_eq]; rfl
@[simp] theorem wx_ctx_copyCount (s : State) (r : Nat) (v : Word) : (s.wx r v).ctx.copyCount = s.ctx.copyCount := by rw [wx_eq]; rfl
@[simp] theorem wx_ctx_copyErr (s : State) (r : Nat) (v : Word) : (s.wx r v).ctx.copyErr = s.ctx.copyErr := by rw [wx_eq]; rfl
@[simp] theorem wx_ctx_flight (s : State) (r : Nat) (v : Word) : (s.wx r v).ctx.flight = s.ctx.flight := by rw [wx_eq]; rfl
@[simp] theorem wx_ctx_prio (s : State) (r : Nat) (v : Word) : (s.wx r v).ctx.prio = s.ctx.prio := by rw [wx_eq]; rfl
@[simp] theorem wx_ctx_wait (s : State) (r : Nat) (v : Word) : (s.wx r v).ctx.wait = s.ctx.wait := by rw [wx_eq]; rfl

@[simp] theorem rx_zero (s : State) : s.rx 0 = 0 := rfl
@[simp] theorem rx_next (s : State) (r : Nat) : s.next.rx r = s.rx r := rfl
@[simp] theorem rx_setPc (s : State) (a : BitVec 57) (r : Nat) : (s.setPc a).rx r = s.rx r := rfl
@[simp] theorem rx_setStat (s : State) (v : Word) (r : Nat) : (s.setStat v).rx r = s.rx r := rfl

/-- A register reads what was written to it, every other as before, and x0 zero (R277). -/
theorem rx_wx (s : State) (r q : Nat) (v : Word) (h : r < 28) : (s.wx r v).rx q = if q = r ∧ r ≠ 0 then v else s.rx q := by
  by_cases h0 : r = 0
  · subst h0
    simp [wx]
  · by_cases hq : q = 0
    · subst hq
      simp [Ne.symm h0]
    · simp only [rx, wx, h0, hq, if_false, setCtx_ctx, ne_eq, not_false_eq_true, and_true]
      by_cases hqr : q = r
      · subst hqr
        simp [Vector.toList_setIfInBounds, h]
      · simp [Vector.toList_setIfInBounds, hqr, List.getD_eq_getElem?_getD, List.getElem?_set_ne (Ne.symm hqr)]

end Sys2Proof.Machine.State
end

