-- ==== Sys2Proof/Laws/Scalar.lean ====
section
/-! SUPPORT. What the operand forms do where no field names a port: the result in rd, the next PC, and nothing else; and what a port gives. -/

namespace Sys2Proof.Machine.State

theorem portNeed_regs {l : List Nat} (h : ∀ r ∈ l, r < 28) (p : Nat) : portNeed l p = 0 := by
  unfold portNeed
  rw [List.length_eq_zero_iff, List.filter_eq_nil_iff]
  intro r hr
  have := h r hr
  simp only [beq_iff_eq]
  omega

theorem portMask_regs {l : List Nat} (h : ∀ r ∈ l, r < 28) : portMask l = 0 := by
  simp [portMask, portNeed_regs h]

/-- Fields that name no port are ready at once. -/
theorem canTake_regs (s : State) {l : List Nat} (h : ∀ r ∈ l, r < 28) : s.canTake l = true := by
  simp [canTake, portMask_regs h]

theorem canPut_reg (s : State) {r : Nat} (h : r < 28) : s.canPut r = true := by simp [canPut, h]

theorem take_reg (s : State) {r : Nat} (h : r < 28) : s.take r = (s.rx r, s) := by simp [take, h]

theorem put_reg (s : State) {r : Nat} (v : Word) (h : r < 28) : s.put r v = s.wx r v := by simp [put, h]

theorem withPorts_regs (s : State) {l : List Nat} {rd : Nat} (k : State → State) (h : ∀ r ∈ l, r < 28) (hd : rd < 28) : s.withPorts l rd k = k s := by
  simp [withPorts, canTake_regs s h, canPut_reg s hd]

/-- An instruction whose words are all there runs. -/
theorem withPorts_ready (s : State) {l : List Nat} {rd : Nat} (k : State → State) (h : s.canTake l = true) (hd : s.canPut rd = true) : s.withPorts l rd k = k s := by
  simp [withPorts, h, hd]

/-- One that lacks a word waits on its ports, and nothing else happens. -/
theorem withPorts_waits (s : State) {l : List Nat} {rd : Nat} (k : State → State) (h : s.canTake l = false) :
    s.withPorts l rd k = s.awaitPorts l rd := by
  simp [withPorts, h]

theorem unary_regs (s : State) {rd a : Nat} (f : Word → Word) (hd : rd < 28) (ha : a < 28) : s.unary rd a f = (s.wx rd (f (s.rx a))).next := by
  unfold unary
  rw [withPorts_regs s _ (by simpa using ha) hd]
  simp only [take_reg s ha, put_reg _ _ hd]

theorem binary_regs (s : State) {rd a b : Nat} (f : Word → Word → Word) (hd : rd < 28) (ha : a < 28) (hb : b < 28) :
    s.binary rd a b f = (s.wx rd (f (s.rx a) (s.rx b))).next := by
  unfold binary
  rw [withPorts_regs s _ (by simp [ha, hb]) hd]
  simp only [take_reg s ha, take_reg s hb, put_reg _ _ hd]

theorem result_reg (s : State) {rd : Nat} (v : State → Word) (hd : rd < 28) : s.result rd v = (s.wx rd (v s)).next := by
  unfold result
  rw [withPorts_regs s _ (by simp) hd]
  simp only [put_reg _ _ hd]

theorem branch_regs (s : State) {a b : Nat} (off : Nat) (c : Word → Word → Bool) (ha : a < 28) (hb : b < 28) :
    s.branch a b off c = if c (s.rx a) (s.rx b) then s.setPc (s.ctx.pc + BitVec.ofNat 57 (sext (word (4 * off)) 13).toNat) else s.next := by
  unfold branch
  rw [withPorts_regs s _ (by simp [ha, hb]) (by decide)]
  simp only [take_reg s ha, take_reg s hb]

theorem fpBinary_regs (s : State) {rd a b : Nat} (w : Nat) (f : Nat → Nat → Nat × Flags) (hd : rd < 28) (ha : a < 28) (hb : b < 28) :
    s.fpBinary w rd a b f = ((s.orFlags (f (widthArg w (s.rx a)) (widthArg w (s.rx b))).2).wx rd (word (f (widthArg w (s.rx a)) (widthArg w (s.rx b))).1)).next := by
  unfold fpBinary
  rw [withPorts_regs s _ (by simp [ha, hb]) hd]
  simp only [take_reg s ha, take_reg s hb, put_reg _ _ hd]

theorem fpUnary_regs (s : State) {rd a : Nat} (f : Word → Nat × Flags) (hd : rd < 28) (ha : a < 28) :
    s.fpUnary rd a f = ((s.orFlags (f (s.rx a)).2).wx rd (word (f (s.rx a)).1)).next := by
  unfold fpUnary
  rw [withPorts_regs s _ (by simpa using ha) hd]
  simp only [take_reg s ha, put_reg _ _ hd]

/-- A read of a port for which no word came while it waited takes the head word, and CLOSED becomes whether it was a closing word (R178). -/
theorem take_port (s : State) {q : Nat} {w : PortWord} {ws : List PortWord} (hw : s.heldWords = []) (h : s.rxOf q = w :: ws) :
    s.take (28 + q) = (w.value, { s with core := { s.core with rx := s.core.rx.setIfInBounds q ws, closed := s.core.closed.setIfInBounds q w.closing } }) := by
  have h28 : ¬ (28 + q < 28) := by omega
  simp [take, h28, h, hw]

end Sys2Proof.Machine.State
end

