-- ==== Sys2Proof/Tests/Slice0.lean ====
section
/-! SUPPORT. Tests of the model: ill-formed instructions, decoding, single steps, and witnesses of the statements' hypotheses. -/

namespace Sys2Proof.Tests

open Sys2Proof Sys2Proof.Machine Sys2Proof.Spec

set_option Elab.async false

/-! ## Small states -/

/-- A solo package that is ready, with nothing placed. -/
def solo : State := { State.reset with boot := { State.reset.boot with stage := 6, bootctl := 0xC000000000000000 }, clock := { State.reset.clock with on := true, inSync := true } }

/-- The same with a context of O1 ready in slot 0 of core 0, at the word 0. -/
def up : State := solo.withFetchWord 32 0

/-- The same on memory core 0. -/
def upm : State := solo.withFetchWord 32 0x5B

/-- A cached translation of O1. -/
def page (va size pa : Nat) (x : Bool) : Trans := { owner := 1, va := va, size := size, pa := pa, read := true, write := !x, exec := x, repl := false, stop := 1000000000, dirty := true }

/-- With the code page, 2 MiB of data at 0x80000000 in the frame at 0x400000, and the work area of die 0 in the frames at 0x800000, cached at every interface. -/
def mapped (s : State) : State :=
  { s with ifaces := (List.range 24).map (fun n => (n, { (s.getIface n) with leaf := [page 0x40000000 4096 0x200000 true, page 0x80000000 0x200000 0x400000 false, page 0x1FE000000000000 0x800000 0x800000 false] })) }

def mp : State := mapped up

/-- With registers of the running context. -/
def xr (s : State) (l : List (Nat × Nat)) : State := { s with ctx := { s.ctx with x := l.foldl (fun x (r : Nat × Nat) => x.setIfInBounds r.1 (BitVec.ofNat 64 r.2)) s.ctx.x } }

/-- With a vector register. -/
def vr (s : State) (n : Nat) (l : List Nat) : State := { s with ctx := { s.ctx with v := s.ctx.v.setIfInBounds n (ofLanes l) } }

def st (s : State) (v : Nat) : State := { s with ctx := { s.ctx with stat := BitVec.ofNat 64 v } }

/-- With an event's argument. -/
def ev (s : State) (a b c d e w : Nat) : State := { s with arg := { s.arg with a := a, b := b, c := c, d := d, e := e, w := BitVec.ofNat 64 w } }
def evb (s : State) (l : List Nat) : State := { s with arg := { s.arg with bytes := l.map (BitVec.ofNat 8) } }

/-- The next state of an instruction. -/
def nx (i : Instr) (s : State) : State := match exec i s with | .next u => u | _ => State.reset

/-- A task packet of code offset 0x40 in the mapped data page, its second word w1. -/
def task (s : State) (w1 : Nat) : State := (s.setWord 0x400200 0x40).setWord 0x400208 (BitVec.ofNat 64 w1)

/-- The key at which an access is found, and the state after the search. -/
def keyIs (r : Spot × State) (k : Nat) : Bool := match r.1 with | .at n _ => n == k | _ => false

/-! ## Ill-formed instructions are refused -/

theorem test_wf_register : (Instr.add 32 0 0).wf = false := by decide
theorem test_wf_port_base : (Instr.ld 5 28 0).wf = false := by decide
theorem test_wf_immediate : (Instr.addi 5 6 4096).wf = false := by decide
theorem test_wf_shift : (Instr.slli 5 6 64).wf = false := by decide
theorem test_wf_upper : (Instr.lui 5 0x100000).wf = false := by decide
theorem test_wf_rounding : (Instr.fadd 0 5 6 7 5).wf = false := by decide
theorem test_wf_width : (Instr.fadd 2 5 6 7 0).wf = false := by decide
theorem test_wf_compare : (Instr.fcmp 0 5 6 7 3).wf = false := by decide
theorem test_wf_conversion : (Instr.fcvt 0 5 6 5 0).wf = false := by decide
theorem test_wf_branch : (Instr.beq 5 6 2048).wf = false := by decide
theorem test_wf_jump : (Instr.jal 1 524288).wf = false := by decide
theorem test_wf_prefix : (Instr.fmt 0x58).wf = false := by decide
theorem test_wf_pair : (Instr.fldQ 5 6 0).wf = false := by decide
theorem test_wf_target_width : (Instr.fldP 5 4 6 8).wf = false := by decide
theorem test_wf_unordered_scope : (Instr.amoadd 5 6 7 0 0 3).wf = false := by decide
theorem test_wf_target_pair : (Instr.amoadd 5 7 8 0 1 0).wf = false := by decide
theorem test_wf_barrier_scope : (Instr.barInstruction 0 5).wf = false := by decide
theorem test_wf_mask_enable : (Instr.vadd 1 2 3 0 4).wf = false := by decide
theorem test_wf_mask_register : (Instr.mand 8 0 0).wf = false := by decide
theorem test_wf_slot : (Instr.mclaim 5 64 0).wf = false := by decide
theorem test_wf_event_is_no_word : Instr.kick.hasWord = false := by decide

/-! ## Words written out from the formats of R285 and the codes of R287 and R288 -/

-- LOADL I: imm 16, rs1 x2, f3 3, rd x5
theorem test_decode_ld : decode 0b000000010000_00010_011_00101_00000_11 = .ok (.ld 5 2 16) := by decide +kernel
-- LOADF I: imm -8, f3 4, a pair
theorem test_decode_fldq : decode 0b111111111000_00010_100_00110_00001_11 = .ok (.fldQ 6 2 4088) := by decide +kernel
-- LOADF A: f7 2 (width w), rs2 x9, f3 5
theorem test_decode_fldp : decode 0b0000010_01001_00010_101_00110_00001_11 = .ok (.fldP 2 6 2 9) := by decide +kernel
-- VMEM V: f6 2, ME 1, vb 7, va 6, msk 3, vd 9
theorem test_decode_vlds : decode 0b000010_1_00111_00110_011_01001_00010_11 = .ok (.vlds 9 6 7 1 3) := by decide +kernel
-- FENCE imm 4*4+2; BAR scope 2
theorem test_decode_fence : decode 0b000000010010_00000_000_00000_00011_11 = .ok (.fenceRel 4) := by decide +kernel
theorem test_decode_bar : decode 0b000000001000_01010_001_00000_00011_11 = .ok (.barInstruction 2 10) := by decide +kernel
-- OPIMM: SRAI by 63
theorem test_decode_srai : decode 0b010000_111111_00110_101_00101_00100_11 = .ok (.srai 5 6 63) := by decide +kernel
theorem test_decode_auipc : decode 0b10000000000000000001_00101_00101_11 = .ok (.auipc 5 0x80001) := by decide +kernel
-- CELL: CREVERT f3 4
theorem test_decode_crevert : decode 0b0000000_00111_00110_100_00101_00110_11 = .ok (.crevert 5 6 7) := by decide +kernel
-- FMT byte 0xF7: format 7, rounding 7, saturation on
theorem test_decode_fmt : decode 0b0000_11110111_00000_000_00000_00111_11 = .ok (.fmt 0xF7) := by decide +kernel
-- STOREL S: imm 0x7E5, rs2 x6, rs1 x2
theorem test_decode_sd : decode 0b0111111_00110_00010_011_00101_01000_11 = .ok (.sd 6 2 0x7E5) := by decide +kernel
-- STOREF A: width d, rs2 data, rd names the target word
theorem test_decode_fstp : decode 0b0000011_00110_00010_101_01001_01001_11 = .ok (.fstP 3 6 2 9) := by decide +kernel
-- AMO: operation 10, ordering 3, P 1, scope 7
theorem test_decode_amofadd : decode 0b1010_11_1_00111_00110_111_00101_01010_11 = .ok (.amofadd 5 6 7 3 1 7) := by decide +kernel
-- MSG: MWAIT
theorem test_decode_mwait : decode 0b0000000_00111_00110_010_00101_01011_11 = .ok (.mwait 5 6 7) := by decide +kernel
-- OP: f7 0x20 SUB; f7 0x01 REMU; f7 0x31 with rs2 2 POPC
theorem test_decode_sub : decode 0b0100000_00111_00110_000_00101_01100_11 = .ok (.sub 5 6 7) := by decide +kernel
theorem test_decode_remu : decode 0b0000001_00111_00110_111_00101_01100_11 = .ok (.remu 5 6 7) := by decide +kernel
theorem test_decode_popc : decode 0b0110001_00010_00110_000_00101_01100_11 = .ok (.popc 5 6) := by decide +kernel
theorem test_decode_lui : decode 0b11111111111111111111_00101_01101_11 = .ok (.lui 5 0xFFFFF) := by decide +kernel
-- OWN X: LEND f3 2
theorem test_decode_lend : decode 0b01000_00_00111_00110_010_00101_01110_11 = .ok (.lend 5 6 7 8) := by decide +kernel
-- TASK: SPAWN
theorem test_decode_spawn : decode 0b0000000_00111_00110_000_00101_01111_11 = .ok (.spawn 5 6 7) := by decide +kernel
-- FPS: FMADD.d, rounding 7
theorem test_decode_fmadd : decode 0b00101_01_00111_00110_111_00101_10000_11 = .ok (.fmadd 1 5 6 7 7) := by decide +kernel
-- VARITH: VSHUF, unmasked; VFP: VCMP.lt under m2
theorem test_decode_vshuf : decode 0b000111_0_00111_00110_000_00101_10001_11 = .ok (.vshuf 5 6 7 0 0) := by decide +kernel
theorem test_decode_vcmplt : decode 0b010010_1_00111_00110_010_00101_10010_11 = .ok (.vcmpLt 5 6 7 1 2) := by decide +kernel
-- VMASK: MXOR; BMNONE of m3, offset -4
theorem test_decode_mxor : decode 0b0000000_00011_00010_010_00001_10011_11 = .ok (.mxor 1 2 3) := by decide +kernel
theorem test_decode_bmnone : decode 0b1_111111_00000_00011_111_1110_1_10011_11 = .ok (.bmnone 3 2047) := by decide +kernel
-- MATRIX M: MMUL sa 3, sb 4, ac 1
theorem test_decode_mmul : decode 0b0100_000011_000100_001_0_00000_10100_11 = .ok (.mmul 1 3 4) := by decide +kernel
-- ENGINE X: CPY with TAGS
theorem test_decode_cpy : decode 0b01000_01_00111_00110_000_00101_10101_11 = .ok (.cpy 5 6 7 8 1) := by decide +kernel
-- MEMCORE X: MGATH
theorem test_decode_mgath : decode 0b00000_00_00000_00110_001_00101_10110_11 = .ok (.mgath 5 6) := by decide +kernel
-- BRANCH B: BGEU, offset -8
theorem test_decode_bgeu : decode 0b1_111111_00111_00110_111_1100_1_11000_11 = .ok (.bgeu 6 7 2046) := by decide +kernel
theorem test_decode_callt : decode 0b000000001000_00110_001_00001_11001_11 = .ok (.callt 1 6 8) := by decide +kernel
theorem test_decode_lpad : decode 0b00000000000000000101_00000_11010_11 = .ok (.lpad 5) := by decide +kernel
-- JAL J: offset 0x1000
theorem test_decode_jal : decode 0b0_0000000000_0_00000001_00001_11011_11 = .ok (.jal 1 0x400) := by decide +kernel
-- SYSTEM: SETS of 0x00E
theorem test_decode_sets : decode 0b000000001110_00110_011_00000_11100_11 = .ok (.sets 6 0x00E) := by decide +kernel

-- no instruction: a reserved major, an odd pair, imm[1] of a branch set, MSK without ME
theorem test_decode_reserved_major : (match decode 0x0000005F with | .ok _ => false | .error _ => true) = true := by decide +kernel
theorem test_decode_odd_pair : (match decode 0b111111111000_00010_100_00101_00001_11 with | .ok _ => false | .error _ => true) = true := by decide +kernel
theorem test_decode_branch_half : (match decode 0b0_000000_00111_00110_000_0001_0_11000_11 with | .ok _ => false | .error _ => true) = true := by decide +kernel
theorem test_decode_mask_disabled : (match decode 0b000111_0_00111_00110_001_00101_10001_11 with | .ok _ => false | .error _ => true) = true := by decide +kernel

/-! ## One step each: expected values worked out by hand from the rules -/

/-- rd of a register-register instruction on two values. -/
def rr (f : Nat → Nat → Nat → Instr) (a b : Nat) : Word := (nx (f 5 6 7) (xr up [(6, a), (7, b)])).rx 5

theorem test_add_wraps : rr .add 0xFFFFFFFFFFFFFFFF 2 = 1 := by decide +kernel
theorem test_sub_borrows : rr .sub 0 1 = 0xFFFFFFFFFFFFFFFF := by decide +kernel
theorem test_sll_masks_count : rr .sll 3 65 = 6 := by decide +kernel
theorem test_sra_keeps_sign : rr .sra 0x8000000000000000 4 = 0xF800000000000000 := by decide +kernel
theorem test_srl_no_sign : rr .srl 0x8000000000000000 4 = 0x0800000000000000 := by decide +kernel
theorem test_slt_signed : rr .slt 0xFFFFFFFFFFFFFFFF 0 = 1 := by decide +kernel
theorem test_sltu_unsigned : rr .sltu 0xFFFFFFFFFFFFFFFF 0 = 0 := by decide +kernel
theorem test_mulh_of_minus_one : rr .mulh 0xFFFFFFFFFFFFFFFF 0xFFFFFFFFFFFFFFFF = 0 := by decide +kernel
theorem test_mulhu_of_greatest : rr .mulhu 0xFFFFFFFFFFFFFFFF 0xFFFFFFFFFFFFFFFF = 0xFFFFFFFFFFFFFFFE := by decide +kernel
theorem test_div_rounds_to_zero : rr .div 0xFFFFFFFFFFFFFFF9 2 = 0xFFFFFFFFFFFFFFFD := by decide +kernel
theorem test_div_by_zero : rr .div 7 0 = 0xFFFFFFFFFFFFFFFF := by decide +kernel
theorem test_rem_sign_of_dividend : rr .rem 0xFFFFFFFFFFFFFFF9 2 = 0xFFFFFFFFFFFFFFFF := by decide +kernel
theorem test_rem_overflow : rr .rem 0x8000000000000000 0xFFFFFFFFFFFFFFFF = 0 := by decide +kernel
theorem test_min_signed : rr .min 0xFFFFFFFFFFFFFFFF 1 = 0xFFFFFFFFFFFFFFFF := by decide +kernel
theorem test_maxu_unsigned : rr .maxu 0xFFFFFFFFFFFFFFFF 1 = 0xFFFFFFFFFFFFFFFF := by decide +kernel
theorem test_rotl_carries_round : rr .rotl 0x8000000000000001 1 = 3 := by decide +kernel
theorem test_clz_of_zero : (nx (.clz 5 0) up).rx 5 = 64 := by decide +kernel
theorem test_ctz_lowest : (nx (.ctz 5 6) (xr up [(6, 0x28)])).rx 5 = 3 := by decide +kernel
theorem test_sextw : (nx (.sextw 5 6) (xr up [(6, 0x180000000)])).rx 5 = 0xFFFFFFFF80000000 := by decide +kernel
theorem test_addi_negative : (nx (.addi 5 6 0xFFF) (xr up [(6, 0)])).rx 5 = 0xFFFFFFFFFFFFFFFF := by decide +kernel
theorem test_lui_extends_sign : (nx (.lui 5 0x80000) up).rx 5 = 0xFFFFFFFF80000000 := by decide +kernel
theorem test_auipc : (nx (.auipc 5 1) up).rx 5 = 0x40001000 := by decide +kernel
theorem test_x0_discards : (nx (.addi 0 0 1) up).rx 0 = 0 := by decide +kernel
theorem test_add_pc : (nx (.add 5 6 7) up).ctx.pc = 0x40000004 := by decide +kernel

-- 1 + 2 = 3; ∞ − ∞ is the canonical NaN with NV, bit 12; 1 / 0 is ∞ with DZ, bit 11
theorem test_fadd : (nx (.fadd 0 5 6 7 0) (xr up [(6, 0xDEAD00003F800000), (7, 0x40000000)])).rx 5 = 0x40400000 := by decide +kernel
theorem test_fsub_infinities : (let t := nx (.fsub 0 5 6 7 0) (xr up [(6, 0x7F800000), (7, 0x7F800000)]); (t.rx 5, t.ctx.stat)) = (0x7FC00000, 0x1000) := by decide +kernel
theorem test_fdiv_by_zero : (let t := nx (.fdiv 1 5 6 0 0) (xr up [(6, 0x3FF0000000000000)]); (t.rx 5, t.ctx.stat)) = (0x7FF0000000000000, 0x800) := by decide +kernel
theorem test_fmin_of_zeros : (nx (.fmin 0 5 6 7) (xr up [(6, 0), (7, 0x80000000)])).rx 5 = 0x80000000 := by decide +kernel
-- R328's example: −0.75 to an unsigned word under RNE is 0 with NV, under RTZ 0 with NX, bit 8
theorem test_fcvt_rne : (let t := nx (.fcvt 1 5 6 9 0) (xr up [(6, 0xBFE8000000000000)]); (t.rx 5, t.ctx.stat)) = (0, 0x1000) := by decide +kernel
theorem test_fcvt_rtz : (let t := nx (.fcvt 1 5 6 9 1) (xr up [(6, 0xBFE8000000000000)]); (t.rx 5, t.ctx.stat)) = (0, 0x100) := by decide +kernel
theorem test_fclass_negative_zero : (nx (.fclass 0 5 6) (xr up [(6, 0x80000000)])).rx 5 = 8 := by decide +kernel
theorem test_fmadd_reads_rd : (nx (.fmadd 0 5 6 7 0) (xr up [(5, 0x3F800000), (6, 0x40000000), (7, 0x40400000)])).rx 5 = 0x40E00000 := by decide +kernel

theorem test_blt_signed : (nx (.blt 6 0 2) (xr up [(6, 0xFFFFFFFFFFFFFFFF)])).ctx.pc = 0x40000008 := by decide +kernel
theorem test_bltu_backwards : (nx (.bltu 0 6 2047) (xr up [(6, 1)])).ctx.pc = 0x3FFFFFFC := by decide +kernel
theorem test_jal_links : (let t := nx (.jal 1 4) up; (t.rx 1, t.ctx.pc, t.ctx.rstack)) = (0x40000004, 0x40000010, [0x40000004]) := by decide +kernel
theorem test_ret_empty_traps : (nx .ret mp).live = false := by decide +kernel
theorem test_fmt_sets_prefix : (nx (.fmt 0x81) (st up 0x1F07)).ctx.stat = 0x8081000000001F07 := by decide +kernel

theorem test_lb_extends : (nx (.lb 5 6 0xFFF) (xr (up.setByte (sramKey 0 0xFF) 0x80) [(6, 0x100)])).rx 5 = 0xFFFFFFFFFFFFFF80 := by decide +kernel
theorem test_sh_little_endian : (let t := nx (.sh 7 6 2) (xr up [(6, 0x100), (7, 0x12345678)]); (t.byteAt (sramKey 0 0x101), t.byteAt (sramKey 0 0x102), t.byteAt (sramKey 0 0x103), t.byteAt (sramKey 0 0x104))) = (0, 0x78, 0x56, 0) := by decide +kernel
theorem test_lw_misaligned : (nx (.lw 5 6 2) (xr mp [(6, 0x100)])).live = false := by decide +kernel
theorem test_fld_reads : (nx (.fldW 5 6 4) (xr (mp.setBytes 0x400004 [1, 2, 3, 0x84]) [(6, 0x80000000)])).rx 5 = 0xFFFFFFFF84030201 := by decide +kernel
theorem test_fst_combines : (let t := nx (.fstB 7 6 1) (xr mp [(6, 0x80000030), (7, 0xAB)]); (t.core.combining.map (fun e => (e.va, e.bytes)), t.byteAt 0x400031)) = ([(0x80000030, [(1, 0xAB)])], 0) := by decide +kernel
theorem test_amoadd_returns_old : (let t := nx (.amoadd 5 6 7 0 0 0) (xr (mp.setWord 0x400008 40) [(6, 0x80000008), (7, 2)]); (t.rx 5, t.natAt 0x400008 8)) = (40, 42) := by decide +kernel
theorem test_amocas_fails : (let t := nx (.amocas 5 6 7 0 0 0) (xr (mp.setWord 0x400008 40) [(5, 41), (6, 0x80000008), (7, 2)]); (t.rx 5, t.natAt 0x400008 8)) = (40, 40) := by decide +kernel
theorem test_cempty_then_tag : (nx (.cempty 5 6 7) (xr mp [(6, 0x80000008)])).tagAt 0x400008 = 1 := by decide +kernel
theorem test_cfill_of_future : (let t := nx (.cfill 5 6 7) (xr (mp.setTag 0x400008 1) [(6, 0x80000008), (7, 9)]); (t.rx 5, t.tagAt 0x400008, t.natAt 0x400008 8)) = (1, 0, 9) := by decide +kernel
theorem test_ctag_of_value : (nx (.ctag 5 6 0) (xr mp [(6, 0x80000008)])).rx 5 = 0 := by decide +kernel
theorem test_fence_passes : (nx (.fenceAr 4) up).ctx.pc = 0x40000004 := by decide +kernel
theorem test_bar_waits : (nx (.barInstruction 2 6) (xr up [(6, 2)])).ctx.wait = .bar 0 2 := by decide +kernel

-- FP32 lanes: 1 + 2 in lane 0, lane 1 off under m1 = 1
theorem test_vadd_masked : (let s := vr (vr (vr up 1 [0x3F800000, 0x3F800000]) 2 [0x40000000, 0x40000000]) 3 [7, 7]
    let t := nx (.vadd 3 1 2 1 1) { s with ctx := { s.ctx with m := s.ctx.m.setIfInBounds 1 1 } }; (t.vreg 3).take 2) = [0x40400000, 7] := by decide +kernel
theorem test_vsub_int8_wraps : ((nx (.vsub 3 1 2 0 0) (st (vr (vr up 1 [0x00000080]) 2 [0x00000101]) 6)).vreg 3).take 1 = [0x0000FF7F] := by decide +kernel
theorem test_vslide_up : ((nx (.vslide 3 1 2 0 0) (vr up 1 [1, 2, 3])).vreg 3).take 5 = [0, 0, 1, 2, 3] := by decide +kernel
theorem test_vext_extends : (nx (.vext 5 1 1) (vr up 1 [0, 0x80000000])).rx 5 = 0xFFFFFFFF80000000 := by decide +kernel
theorem test_vcmp_unordered_ne : (nx (.vcmpNe 2 1 1 0 0) (vr up 1 [0x7FC00000])).mreg 2 = 1 := by decide +kernel
theorem test_vred_sum : ((nx (.vredSum 3 1 0 0) (st (vr up 1 (List.range 16)) 7)).vreg 3).take 2 = [120, 0] := by decide +kernel
theorem test_vld_strided : ((nx (.vlds 3 6 7 0 0) (xr (up.setByte (sramKey 0 0x88) 9) [(6, 0x80), (7, 8)])).vreg 3).take 2 = [0, 9] := by decide +kernel
theorem test_mfirst_none : (nx (.mfirst 5 1 0) up).rx 5 = 16 := by decide +kernel
theorem test_mnot : (nx (.mnot 2 1 0) up).mreg 2 = 0xFFFF := by decide +kernel

-- slots 3 to 5 claimed: MSTAT 1 reports their mask
theorem test_mclaim_mstat : (nx (.mstat 5 1) (nx (.mclaim 5 3 2) up)).rx 5 = 0x38 := by decide +kernel
theorem test_mmul_without_claim : (nx (.mmul 0 3 4) mp).live = false := by decide +kernel
theorem test_mzero_clears : (let m : MatCmd := { op := 5, slotA := 64, slotB := 64, acc := 1, addr := 0, va := 0, fmt := 6, rnd := 0, sat := false, ring := 0, flight := 0, word := 0, headers := [], started := true, recheck := false }
    let s := (({ up with core := { up.core with matq := [m] } }).setByte (accKey 0 1 4095) 3).setByte (accKey 0 2 0) 10
    let t := nx .matrixCommandComplete s; (t.byteAt (accKey 0 1 4095), t.byteAt (accKey 0 2 0))) = (0, 10) := by decide +kernel
theorem test_cpy_counts : (let t := nx (.cpy 0 6 7 8 0) (xr up [(6, 0x100), (7, 0x200), (8, 64)]); (t.ctx.copyCount, t.core.copyq.length)) = (1, 1) := by decide +kernel
theorem test_cpy_of_nothing : (nx (.cpy 0 6 7 8 0) mp).live = false := by decide +kernel
theorem test_mpush_param : (nx (.mpush 5 6 7 8 0) upm).rx 5 = 0x8A00000000000000 := by decide +kernel

theorem test_spawn_ready : (let t := nx (.spawn 5 6 7) (xr (task mp 0) [(6, 0x80000200)]); (t.rx 5, t.ring 1 0 0)) = (0, [.task 0x80000200 0 0 none]) := by decide +kernel
theorem test_yield_leaves : (let t := nx .yield mp; (t.live, (t.getInstar { owner := 1, die := 0, slot := 0 }).map (·.pc))) = (false, some 0x40000004) := by decide +kernel
theorem test_halt_frees : (nx .halt mp).core.slots.toList.getD 0 (.empty 9) = .empty 0 := by decide +kernel
theorem test_trap_freezes : ((nx (.trap 6 0xFFF) (xr mp [(6, 8)])).ownerRec 1).held.map (fun p => (p.cause, p.detail, p.pc)) = [(0x13, 7, 0x40000000)] := by decide +kernel
theorem test_illop_pc : ((nx (.illop 0x5F) mp).ownerRec 1).held.map (fun p => (p.cause, p.detail, p.pc)) = [(0x01, 0x5F, 0x40000000)] := by decide +kernel
theorem test_msend_counts : (let s := (xr up [(6, 1), (7, 0x77)]).setWord (sramKey 0 8) 0x8000000000000012
    let t := nx (.msend 6 7) s; (t.net.map (fun w => (w.unit, w.port, w.value)), wbits (t.wordAt (sramKey 0 8)) 31 18)) = ([(1, 2, 0x77)], 1) := by decide +kernel
theorem test_mwait_polls : (nx (.mwait 5 6 0) (xr { up with core := { up.core with rx := up.core.rx.setIfInBounds 2 [{ value := 1, closing := false }] } } [(6, 15)])).rx 5 = 4 := by decide +kernel
theorem test_sets_reserved_rounding : (nx (.sets 6 0) (xr (st up 7) [(6, 0x50)])).ctx.stat = 7 := by decide +kernel
theorem test_gets_split : (nx (.gets 5 2) up).rx 5 = 12 := by decide +kernel
theorem test_give_offers : (let h := 4 * 2 ^ 60 + 9
    let s := State.setEntry { up with owners := up.owners ++ [(2, OwnerRec.boot)] } (State.entryKey 9 2) { Entry.boot with holder := 2 }
    let t := nx (.give 5 6 7 8) (xr s [(6, h), (7, 2)]); (t.rx 5, (t.getEntry (State.entryKey 4 9)).offop, (t.getEntry (State.entryKey 4 9)).offer)) = (0, 1, 2) := by decide +kernel

theorem test_go_builds_the_map : (nx .bootctlWrite (ev { State.reset with boot := { State.reset.boot with stage := 7 } } 0 0 0 0 0 0xC000000000000000)).boot.stage = 5 := by decide +kernel
theorem test_trip_resets : (nx .thermalTrip (ev (up.setByte 0x400000 1) 110 0 0 0 0 0)).mem = [] := by decide +kernel
theorem test_kick_moves_wridx : ((nx .kick (ev (up.setQueue 5 { Queue.fresh with ringlog := 6, crlog := 7, enable := true }) 5 0 0 0 0 9)).getQueue 5).wridx = 9 := by decide +kernel
theorem test_soft_error_poisons : (nx .softError (ev up 0x400008 1 0 0 0 0)).poisoned 0x400008 1 = true := by decide +kernel

/-! ## Witnesses: concrete states and operands that meet the hypotheses of each statement, clause by clause -/

theorem witness_StepRunsDecodedInstruction :
    let s := solo.withFetchWord 32 0x00900393
    let u := s.tick.nextTurn.2
    s.tick.nextTurn.1 = some (.run 0 0) ∧ (u.switchTo 0 0).canRun = true ∧ (u.switchTo 0 0).ctx.word = none ∧ (u.switchTo 0 0).fetch.1 = .word 0x00900393 ∧
      (match decode 0x00900393 with | .ok i => decide (i = .addi 7 0 9) | .error _ => false) = true ∧ absentOn (u.switchTo 0 0).coreNo 0x00900393 = false ∧ (u.switchTo 0 0).pend = false ∧ (u.switchTo 0 0).fetch.2.ctx.loads = [] ∧
      State.waitsForHome (.addi 7 0 9) = false ∧ (nx (.addi 7 0 9) (u.switchTo 0 0).fetch.2).core.polled = [] ∧ (match u.slotOf 0 0 with | .busy c => State.Wait.polls c.wait | _ => true) = false ∧
      (let t := nx (.addi 7 0 9) (u.switchTo 0 0).fetch.2; t.ctx.wait = .ready ∧ t.denied = [] ∧ (List.range 4).all (fun j => match t.slotOf 0 j with | .busy c => c.wait == .ready | _ => true) = true) := by decide +kernel
/-- A context that keeps the word of an instruction that it has issued. -/
theorem witness_StepRunsDecodedInstruction_word : let s : State := { up with ctx := { up.ctx with word := some 0x00900393, wait := .again 0 } }
    s.ctx.word = some 0x00900393 ∧ (0x00900393 : Nat) < 2 ^ 32 ∧ s.canRun = true := by decide +kernel

/-- A far load of x7 that is outstanding. -/
def outLoad (s : State) : Outstanding :=
  { acc := s.access (.load 3) 0x80000040 8 7 0 0, got := none, before := { x := s.ctx.x, v := s.ctx.v, m := s.ctx.m, stat := s.ctx.stat, pc := s.ctx.pc } }

/-- R247: an instruction that writes x7 waits for the load; one that leaves x7 alone issues. -/
theorem witness_StepRunsDecodedInstruction_loads : let s : State := { up with ctx := { up.ctx with loads := [outLoad up] } }
    s.mayIssue (.addi 7 0 9) = false ∧ s.mayIssue (.addi 8 0 9) = true ∧ s.mayIssue (.sd 8 0 0) = false ∧ s.mayIssue (.fldD 8 9 0) = true := by decide +kernel

theorem witness_StepTakesScheduledEvent_event : ({ up with schedule := [.event .kick Arg.none] } : State).tick.schedule = .event .kick Arg.none :: [] := by decide +kernel
theorem witness_StepTakesScheduledEvent_elapse : ({ up with schedule := [.elapse 5] } : State).tick.schedule = .elapse 5 :: [] := by decide +kernel

theorem witness_FetchReadsCodeBytes :
    let h := up.codeHit up.ctx.pc.toNat
    let r := h.2.locate h.2.coreNo h.2.owner up.ctx.pc.toNat 4 .exec
    up.inCode up.ctx.pc.toNat 4 = true ∧ h.1 = none ∧ r.1 = .at 0x200000 false ∧
      r.2.hostOwns 0x200000 = none ∧ r.2.poisoned 0x200000 4 = false ∧ r.2.tagAt 0x200000 = 0 := by decide +kernel
/-- The same word again, from the sector that the fetch has brought. -/
theorem witness_FetchReadsCodeBytes_hit : let s := up.fetch.2
    s.inCode s.ctx.pc.toNat 4 = true ∧ (s.codeHit s.ctx.pc.toNat).1.map (fun e => e.pa + (s.ctx.pc.toNat - e.va)) = some 0x200000 ∧ (s.codeHit s.ctx.pc.toNat).2.poisoned 0x200000 4 = false := by decide +kernel
theorem witness_FetchReadsCodeBytes_bound : ({ up with ctx := { up.ctx with pc := 0x40001000 } } : State).inCode 0x40001000 4 = false := by decide +kernel

theorem witness_DecodeInvertsEncode : (Instr.add 5 6 7).wf = true ∧ (Instr.add 5 6 7).hasWord = true := by decide
theorem witness_EncodeInvertsDecode : (0x01013283 : Nat) < 2 ^ 32 ∧ decode 0x01013283 = .ok (.ld 5 2 16) := by decide +kernel

/-- The registers of the register-only statements: the last register that is no port. -/
theorem witness_NoPort : NoPort 0 ∧ NoPort 27 := by decide
theorem witness_ImmediateResults : NoPort 27 ∧ (4095 : Nat) < 4096 ∧ (1048575 : Nat) < 2 ^ 20 := by decide
theorem witness_ScalarFloatResults : (1 : Nat) < 2 ∧ NoPort 27 := by decide
theorem witness_RegisterRegisterResults : binaryOps ≠ [] ∧ divisionOps ≠ [] ∧ NoPort 27 := by decide

/-- A core whose ports 0 and 3 hold a word. -/
def fed : State := { up with core := { up.core with rx := (up.core.rx.setIfInBounds 0 [{ value := 5, closing := false }]).setIfInBounds 3 [{ value := 6, closing := true }] } }

theorem witness_PortOperandsAreTaken : fed.canTake [28, 31] = true ∧ fed.canPut 27 = true ∧ fed.rxOf 3 = { value := 6, closing := true } :: [] ∧ fed.canTake [29, 5] = false ∧ fed.heldWords = [] := by decide +kernel
/-- Ports 0 and 1 send to cores 1 and 2. -/
def dst : State := { fed with ctx := { fed.ctx with pdest := (fed.ctx.pdest.set 0 0x8000000000000010).set 1 0x8000000000000020 } }
/-- A destination port whose send queue is full. -/
theorem witness_PortOperandsAreTaken_full : let s : State := { fed with ctx := { fed.ctx with pdest := fed.ctx.pdest.set 0 0x8000000000000010 }, core := { fed.core with tx := fed.core.tx.setIfInBounds 0 16 } }
    s.canTake [28, 31] = true ∧ State.portMask [28, 31] ≠ 0 ∧ s.canPut 28 = false := by decide +kernel

theorem witness_ScalarIntegerFrame : ∃ t, exec (.add 5 6 27) up = .next t := ⟨_, rfl⟩

theorem witness_BranchesGoWhereTheConditionSays : (2047 : Nat) < 2 ^ 11 ∧ up.rx 1 = up.rx 2 ∧ (xr up [(1, 1)]).rx 1 ≠ (xr up [(1, 1)]).rx 2 := by decide +kernel

theorem witness_CallsAndReturns_room : NoPort 27 ∧ (524287 : Nat) < 2 ^ 19 ∧ ({ up with ctx := { up.ctx with rstack := List.replicate 15 0 } } : State).ctx.rstack.length < 16 := by decide +kernel
theorem witness_CallsAndReturns_full : 16 ≤ ({ up with ctx := { up.ctx with rstack := List.replicate 16 0 } } : State).ctx.rstack.length := by decide +kernel
theorem witness_CallsAndReturns_return : ({ up with ctx := { up.ctx with rstack := [8] } } : State).ctx.rstack = 8 :: [] ∧ up.ctx.rstack = [] := by decide +kernel

/-- A jump table at the next 8 bytes: LEN 1, label 5, its one entry 8 words on, and there LPAD 5. -/
def jumps : State := ((up.setWord 0x200008 0x0000000500000001).setBytes 0x200010 [8, 0, 0, 0]).setBytes 0x200028 [0x6B, 0x50, 0, 0]

theorem witness_JumpTablesLand :
    let s := xr jumps [(6, 0)]
    let r1 := s.readCode 0x40000008 8
    let r2 := r1.2.readCode 0x40000010 4
    let r3 := r2.2.readCode 0x40000028 4
    r1.1 = .word 0x0000000500000001 ∧ (s.rx 6).toNat < bits 0x0000000500000001 31 0 ∧ bits 0x0000000500000001 63 52 = 0 ∧ r2.1 = .word 8 ∧ r3.1 = .word (0x6B + 4096 * 5) ∧
      r2.2.ctx.rstack.length < 16 ∧ r3.2.ctx.rstack.length < 16 := by decide +kernel
theorem witness_JumpTablesLand_bound : bits 0x0000000500000001 31 0 ≤ ((xr jumps [(6, 1)]).rx 6).toNat := by decide +kernel

theorem witness_PadsPrefixesAndMaskBranches : (255 : Nat) < 256 ∧ (7 : Nat) < 8 ∧ (2047 : Nat) < 2 ^ 11 ∧ up.mreg 7 = 0 ∧ up.mreg 0 ≠ 0 := by decide +kernel

/-- The last doubleword of the scratchpad. -/
theorem witness_LocalLoadsRead :
    let s := xr up [(6, 0x5FFF8)]
    let A := (s.rx 6 + (BitVec.ofNat 12 0).signExtend 64).toNat
    let k := sramKey s.coreNo A
    A % 8 = 0 ∧ A < 0x200000 ∧ s.regionOf A = .scratch ∧ s.splitHolds A = false ∧ s.matHolds s.coreNo A 8 false = false ∧ s.matHolds s.coreNo A 8 true = false ∧ s.poisoned k 8 = false ∧
      s.tagAt k = 0 ∧ isMc s.coreNo = false ∧ (0 < 27 ∧ NoPort 27) := by decide +kernel

/-- The last doubleword of the scratchpad, to be stored to. -/
theorem witness_MemoryWritersKeepTheCanonicalForm :
    let s := xr up [(6, 0x5FFF8)]
    let A := (s.rx 6 + (BitVec.ofNat 12 0).signExtend 64).toNat
    Memory.wf s.mem = true ∧ A % 8 = 0 ∧ A < 0x200000 ∧ s.regionOf A = .scratch ∧ s.splitHolds A = false ∧ s.matHolds s.coreNo A 8 true = false ∧ s.tagAt (sramKey s.coreNo A) = 0 := by decide +kernel

/-- The estate is another owner's, and O1 has no grant. -/
def ungranted : State := { up with estate := 2, entries := [(State.entryOfCore 0, Entry.boot)] }

/-- The scratchpad's upper banks, from 0x18000 on, are on their way to the L1. -/
def splitting : State := { up with core := { up.core with splitChange := some (0, 15, 0) } }

theorem witness_AccessesTrapInOrder_split : (0x18000 : Nat) % 8 = 0 ∧ splitting.splitHolds 0x18000 = true ∧ splitting.splitHolds 0x17FF8 = false ∧ up.splitHolds 0x60000 = false := by decide +kernel
theorem witness_AccessesTrapInOrder :
    (1 : Nat) % 8 ≠ 0 ∧ up.regionOf 0x60000 = .cache ∧ (0x60000 : Nat) % 8 = 0 ∧ (0x200000 : Nat) % 8 = 0 ∧
      ungranted.hasGrant ungranted.owner 5 = false ∧ (8 : Nat) % 2 ^ 4 ≠ 0 ∧ wbits (0x1F : Word) 4 0 ≠ 0 := by decide +kernel

theorem witness_FarLoadsReturn :
    let s := xr mp [(6, 0x801FFFF0), (9, 0)]
    let r := s.locate s.coreNo s.owner 0x801FFFF0 16 .read
    InRing s ∧ s.async = false ∧ s.core.combining = [] ∧ s.l1Find s.coreNo s.owner 0x801FFFF0 = none ∧ s.poolMates s.coreNo = [] ∧ (0x801FFFF0 : Nat) % 16 = 0 ∧ r.1 = .at 0x5FFFF0 false ∧
      r.2.ownPending s.coreNo 0x5FFFF0 true = false ∧ r.2.hostOwns 0x5FFFF0 = none ∧ r.2.poisoned 0x5FFFF0 16 = false ∧ r.2.tagOver 0x5FFFF0 16 = 0 ∧
      s.hasGrant s.owner 5 = true ∧ State.targetPkg (s.rx 9) = s.pkgNum ∧ s.targetOwner (s.rx 9) = s.owner ∧
      (s.locate s.coreNo s.owner 0x801FFFF0 1 .read).1 = .at 0x5FFFF0 false ∧ (s.locate s.coreNo s.owner 0x801FFFF0 1 .read).2.hostOwns 0x5FFFF0 = none := by decide +kernel

theorem witness_FarLoadsReturn_outstanding : let s : State := { mp with async := true, ctx := { mp.ctx with loads := [outLoad mp] } }
    InRing s ∧ s.async = true ∧ s.core.combining = [] ∧ s.ctx.loads.length < 4 := by decide +kernel

theorem witness_FarStoresEnterCombining : InRing mp ∧ (0x801FFFF0 : Nat) % 16 = 0 ∧ mp.core.combining.length < 8 ∧ mp.core.combining = [] := by decide +kernel

theorem witness_AtomicsReturnOldAndWrite :
    let s := mp
    let s1 := s.dropSector s.coreNo s.owner 0x801FFFF8
    let r := s1.locate s.coreNo s.owner 0x801FFFF8 8 .write
    Quiet s ∧ s.hasGrant s.owner 7 = true ∧ r.1 = .at 0x5FFFF8 false ∧ storage 0x5FFFF8 ≠ .pooled ∧ r.2.inflight = [] ∧ r.2.arrived = [] ∧ r.2.leaseEnd 0x5FFFF8 = 0 ∧ r.2.hostHolds 0x5FFFF8 = none ∧
      r.2.poisoned 0x5FFFF8 8 = false ∧ r.2.tagAt 0x5FFFF8 = 0 := by decide +kernel

theorem witness_CellOperationsAnswer :
    let s := xr mp [(6, 0x80000100), (7, 0x80000200)]
    let r := (s.dropSector s.coreNo s.owner 0x80000100).locate s.coreNo s.owner 0x80000100 8 .write
    s.async = false ∧ s.core.combining = [] ∧ r.1 = .at 0x400100 false ∧ storage 0x400100 = .hbm ∧ tagged 0x400100 = true ∧ wbits (s.rx 7) 61 57 = 0 ∧ wbits (s.rx 7) 4 0 = 0 ∧
      r.2.inflight = [] ∧ r.2.arrived = [] ∧ r.2.leaseEnd 0x400100 = 0 ∧ r.2.hostHolds 0x400100 = none ∧ r.2.poisoned 0x400100 8 = false := by decide +kernel
/-- CMK's packet. -/
theorem witness_CellOperationsAnswer_make :
    let s := xr mp [(6, 0x80000100), (7, 0x80000200)]
    let r := s.locate s.coreNo s.owner (wbits (s.rx 7) 56 5 * 32) 8 .write
    let t := r.2.putFlight (wbits (s.rx 7) 56 5 * 32) 0x400200
    s.ctx.wait ≠ .again 8 ∧ r.1 = .at 0x400200 false ∧ r.2.ownPending r.2.coreNo 0x400200 false = false ∧ r.2.hostHolds 0x400200 = none ∧ r.2.plainWord 0x400200 = true ∧ t.unseen 0x400204 4 = false ∧ t.core.combining = [] ∧ t.async = false ∧
      t.coreNo = s.coreNo ∧ t.owner = s.owner ∧ ((t.dropSector s.coreNo s.owner 0x80000100).locate s.coreNo s.owner 0x80000100 8 .write).1 = .at 0x400100 false := by decide +kernel
/-- Each tag is reached, refused and not. -/
theorem witness_CellOperationsAnswer_tags : (mp.setTag 0x400100 3).tagAt 0x400100 = 3 ∧ (mp.setTag 0x400100 1).tagAt 0x400100 = 1 ∧ cellRefused 0 3 0 = true ∧ cellRefused 2 3 1 = false := by decide +kernel

/-- A store of this context under way to HBM. -/
def flying : Flying := { key := 0x400000, bytes := [(0, 1)], owner := 1, core := 0, slot := 0, va := 0x80000000, stop := 1000000, issue := 0 }

theorem witness_FencesWaitForCoveredStores : up.hasGrant up.owner 7 = true ∧ Quiet up ∧ ungranted.hasGrant ungranted.owner 4 = false := by decide +kernel
theorem witness_FencesWaitForCoveredStores_waits :
    let s : State := { up with inflight := [flying] }
    s.hasGrant s.owner 4 = true ∧ s.core.combining = [] ∧ ∃ f ∈ s.inflight, f.home = s.coreNo ∧ f.slot = s.running ∧ f.inst = none ∧ State.covers 4 f.key = true := by decide +kernel

/-- A barrier of two at .quad, the other participant on core 1 waiting. -/
def halfway : State := State.setSlot { up with barriers := [{ id := 9, scope := 2, name := up.barName 2, place := State.barPlace 0 2, n := 2, count := 1, members := [(1, 0)] }] } 1 0 (.busy { up.ctx with wait := .bar 9 2 })

theorem witness_BarriersCountToTheFirstN : up.hasGrant up.owner 2 = true ∧ up.ctx.wait = .ready ∧ Quiet up ∧ up.findBar 2 (up.barName 2) (State.barPlace up.coreNo 2) = none ∧
    min ((xr up [(6, 0)]).rx 6).toNat (State.barMax 2) = 0 ∧ min ((xr up [(6, 1)]).rx 6).toNat (State.barMax 2) = 1 ∧ 1 < min ((xr up [(6, 16)]).rx 6).toNat (State.barMax 2) := by decide +kernel
theorem witness_BarriersCountToTheFirstN_last :
    let s := xr halfway [(6, 2)]
    Quiet s ∧ s.ctx.wait = .ready ∧ (s.findBar 2 (s.barName 2) (State.barPlace s.coreNo 2)).map (fun b => (b.id, b.n, b.count)) = some (9, 2, 1) ∧
      s.slotOf 1 0 = .busy { up.ctx with wait := .bar 9 2 } := by decide +kernel

/-- The unmasked lanes of VLD and VST from 0x100; the same meets VLDS, with a stride of 4, and VLDX, with such indices. -/
theorem witness_VectorLoadsRead :
    let s := xr up [(6, 0x100), (7, 4)]
    ∀ l, l < 16 → s.activeLane 0 0 l = true ∧ (s.rx 6 + BitVec.ofNat 64 l * s.rx 7).toNat % 4 = 0 ∧ (s.rx 6 + BitVec.ofNat 64 (4 * l)).toNat < 0x200000 ∧ s.regionOf (0x100 + 4 * l) = .scratch ∧
      s.splitHolds (0x100 + 4 * l) = false ∧ s.matHolds s.coreNo (0x100 + 4 * l) 4 false = false ∧ s.matHolds s.coreNo (0x100 + 4 * l) 4 true = false ∧
      s.poisoned (sramKey s.coreNo (0x100 + 4 * l)) 4 = false ∧ s.tagAt (sramKey s.coreNo (0x100 + 4 * l)) = 0 := by decide +kernel

/-- The agents are scheduled, and the vector access stands before its first lane, before its last, and has none. -/
theorem witness_VectorLoadsRead_lanes : let s : State := { xr up [(6, 0x100)] with async := true }
    let t : State := { s with ctx := { s.ctx with wait := .lanes 15 } }
    let lanes := (List.range 16).filter (fun l => s.activeLane 0 0 l)
    s.async = true ∧ s.ctx.wait = .ready ∧ t.ctx.wait = .lanes 15 ∧ lanes[0]? = some 0 ∧ lanes[15]? = some 15 ∧ (List.range 16).filter (fun l => s.activeLane 1 7 l) = [] := by decide +kernel

theorem witness_VectorArithmeticResults : up.effFmt = 0 ∧ (st up 6).effFmt ∈ [0, 1, 2, 6, 7] ∧ (st up 3).effFmt ∉ [0, 1, 2, 6, 7] ∧ (st up 7).effFmt ≠ 0 := by decide +kernel
theorem witness_VectorBitsAndMoves : (st up 7).effFmt ≤ 7 ∧ (31 : Nat) < 32 ∧ NoPort 27 ∧ (15 : Nat) < 16 ∧ (st up 4).effFmt ≠ 5 := by decide +kernel
theorem witness_ConversionsPlaceElements : (st up 7).effFmt ∈ [0, 1, 2, 3, 4, 6, 7] ∧ (3 : Nat) < max ((32 / widthOf 0) / (32 / widthOf 6)) ((32 / widthOf 6) / (32 / widthOf 0)) ∧
    max ((32 / widthOf 0) / (32 / widthOf 6)) ((32 / widthOf 6) / (32 / widthOf 0)) ≤ 4 := by decide +kernel
theorem witness_ComparisonsReductionsAndMasks : (7 : Nat) < 8 ∧ (31 : Nat) < 32 ∧ NoPort 27 ∧ (st up 7).effFmt = 7 ∧ up.effFmt = 0 := by decide +kernel
theorem witness_VectorFrame : InRing up ∧ (nx (.vand 31 1 2 1 7) up).live = true ∧ (nx (.vand 31 1 2 1 7) up).ctx.pc = up.ctx.pc + 4 ∧ up.activeLane 1 7 15 = false := by decide +kernel

/-- Core 0 claims slots 3 to 5. -/
def claimed : State := nx (.mclaim 5 3 2) up
/-- Core 3 claims them. -/
def taken : State := { claimed with quads := claimed.quads.map (fun q => (q.1, { q.2 with claims := q.2.claims.map (fun c => (c.1, 3)) })) }

theorem witness_MatrixClaims : up.unitHeld up.coreNo = true ∧ (up.getEntry (State.entryKey 2 (State.quadOf up.coreNo))).scrub = false ∧
    (∀ n, n < 64 → up.claimOf up.coreNo n = 4) ∧ claimed.claimOf 0 3 = 0 ∧ taken.claimOf 0 5 = 3 ∧ taken.unitHeld 0 = true ∧ up.core.matq = [] := by decide +kernel
theorem witness_MatrixClaims_unheld : (up.setEntry (State.entryKey 2 0) { Entry.boot with holder := 2 }).unitHeld 0 = false := by decide +kernel

/-- A sealed weight extent of die 0, mapped for O1 at 0x90000000. -/
def weights : State := State.setIface { (xr claimed [(6, 0x90000000), (7, 4096)]) with sealedExt := [3] } 0 { leaf := [page 0x90000000 0x200000 (2 ^ 40 + 3 * 67108864) false], walk := [], dirty := [], logged := none }

theorem witness_MatrixCommandsQueue : weights.unitHeld weights.coreNo = true ∧ (weights.getEntry (State.entryKey 2 (State.quadOf weights.coreNo))).scrub = false ∧ weights.core.matq.length < 4 ∧
    weights.claims weights.coreNo 3 = true ∧ weights.claims weights.coreNo 5 = true ∧ (weights.rx 7).toNat % 64 = 0 ∧ weights.splitSpan weights.coreNo (weights.rx 7).toNat 8192 = false ∧ (weights.rx 7).toNat + 4096 ≤ scratchSize weights.coreNo weights.core ∧ weights.tags = [] ∧ weights.effFmt ∈ [0, 1, 2, 3, 4, 6] := by decide +kernel
theorem witness_MatrixCommandsQueue_weights :
    let r := weights.translate (ifaceOf weights.coreNo) weights.owner 0x90000000 .read
    (weights.rx 6).toNat % 4096 = 0 ∧ State.inWindow ((weights.rx 6).toNat % 2 ^ 57) = false ∧ (match r.1 with | .ok e => e.1 == 2 ^ 40 + 3 * 67108864 | .error _ => false) = true ∧
      r.2.scrubbing (2 ^ 40 + 3 * 67108864) = false ∧ r.2.weightRefusal r.2.coreNo (2 ^ 40 + 3 * 67108864) = none ∧ r.2.core.matq.length < 4 ∧ r.2.effFmt = weights.effFmt ∧ r.2.effRnd = weights.effRnd ∧ r.2.effSat = weights.effSat := by decide +kernel

def matCmd (op fmt : Nat) (started : Bool) : MatCmd :=
  { op := op, slotA := 63, slotB := 0, acc := 7, addr := 0x100, va := 0, fmt := fmt, rnd := 0, sat := false, ring := 0, flight := 0, word := 0, headers := [], started := started, recheck := false }
def queued (m : MatCmd) : State := { up with core := { up.core with matq := [m] } }

theorem witness_MatrixCommandsActInPlace_start : State.nextMat ((queued (matCmd 2 0 false)).getCore 0).matq = some ([], matCmd 2 0 false, []) ∧ State.matClear ((queued (matCmd 2 0 false)).getCore 0).matq = true ∧
    (queued (matCmd 2 0 false)).enginesHalt 0 = false := by decide +kernel
theorem witness_MatrixCommandsActInPlace_complete : ((queued (matCmd 5 0 true)).getCore 0).matq.find? (fun m => m.started) = some (matCmd 5 0 true) ∧
    ((queued (matCmd 4 6 true)).getCore 0).matq.find? (fun m => m.started) = some (matCmd 4 6 true) := by decide +kernel

theorem witness_CopiesAreQueuedAndCounted : InRing up ∧ up.core.combining = [] ∧ up.core.copyq.length < 4 ∧ (up.rx 0).toNat % 8 = 0 ∧
    ((xr up [(8, 2 ^ 48 - 1)]).rx 8).toNat < 2 ^ 48 ∧ 2 ^ 48 ≤ ((xr up [(8, 2 ^ 48)]).rx 8).toNat ∧
    ((xr up [(8, 65536 * 2 ^ 32 + 2 ^ 24)]).rx 8).toNat / 2 ^ 32 ≤ 65536 ∧ ((xr up [(8, 65536 * 2 ^ 32 + 2 ^ 24)]).rx 8).toNat % 2 ^ 32 ≤ 2 ^ 24 ∧ 65536 * 2 ^ 24 < 2 ^ 48 := by decide +kernel
theorem witness_CopiesAreQueuedAndCounted_wait : let s : State := { up with ctx := { up.ctx with copyCount := 1 } }
    (s.rx 0).toNat < s.ctx.copyCount ∧ s.ctx.copyCount ≤ ((xr s [(6, 1)]).rx 6).toNat := by decide +kernel

def ended : CopyCmd := { CopyCmd.blank with kind := 1, res := some 0 }
theorem witness_MemoryCoreCommandsAnswer : let s : State := { upm with core := { upm.core with copyq := [ended] } }
    InRing s ∧ s.core.combining = [] ∧ s.core.copyq = ended :: [] ∧ ended.res = some 0 ∧ ended.visible ≤ s.time ∧ s.arrived = [] ∧ s.coreNo < 17500 := by decide +kernel
theorem witness_MemoryCoreCommandsAnswer_start : let s := xr upm [(6, 0x1000), (7, 0), (8, 262144)]
    s.core.copyq = [] ∧ 4 ≤ (s.rx 8).toNat ∧ (s.rx 8).toNat ≤ 262144 ∧ (s.rx 8).toNat % 4 = 0 ∧ (s.rx 6).toNat % 4 = 0 ∧ (s.rx 7).toNat % 4 = 0 ∧ (s.rx 7).toNat + (s.rx 8).toNat ≤ 0x40000 := by decide +kernel
theorem witness_MemoryCoreCommandsAnswer_param : let s := xr upm [(6, 32), (8, 262148)]
    262144 < (s.rx 8).toNat % 2 ^ 32 ∧ (s.rx 6).toNat % 64 ≠ 0 := by decide +kernel

/-- A packet at 0x80000200 for SPAWN and DONE. -/
def tasked : State := xr (task mp 0) [(6, 0x80000200)]
def packetOf (s : State) : List Word := match (s.readPacket s.coreNo s.owner 0x80000200).1 with | .ok ws => ws | _ => []

theorem witness_SpawnMakesWorkReady :
    let t := (tasked.readPacket tasked.coreNo tasked.owner 0x80000200).2
    let r := t.locate t.coreNo t.owner 0x80000200 8 .write
    Quiet tasked ∧ tasked.rx 7 = 0 ∧ State.badHandle (tasked.rx 6) = false ∧ packetOf tasked = [0x40, 0, 0, 0] ∧ State.malformed (packetOf tasked) t.core.clim = false ∧ r.1 = .at 0x400200 false ∧
      r.2.inflight = [] ∧ r.2.arrived = [] ∧ r.2.hostHolds 0x400200 = none ∧ r.2.tagAt 0x400200 = 0 ∧ r.2.natAt 0x400204 4 = 0 ∧ storage 0x400200 ≠ .pooled ∧ r.2.workWaits r.2.coreNo r.2.running = false ∧ InRing r.2 := by decide +kernel
/-- The place of the next ring entry is translated at the die's interface; a full ring needs none. -/
theorem witness_SpawnMakesWorkReady_ring :
    let u := (tasked.readPacket tasked.coreNo tasked.owner 0x80000200).2
    let r := u.lookUp u.workDie u.owner (State.ringVa u.workDie 0 0) .write
    State.ringNext (u.queued u.owner u.workDie 0) = some 0 ∧ (match r.1 with | .ok _ => true | .error _ => false) = true ∧ r.2.arrived = [] ∧ r.2.leaseEnd 0x400204 = 0 ∧ InRing r.2 := by decide +kernel
theorem witness_SpawnMakesWorkReady_full : State.ringNext ((List.range 4096).map (fun n => ({ item := .task 0 0 0 none, spot := some n } : Queued))) = none := by decide +kernel
theorem witness_SpawnMakesWorkReady_operand : 4 ≤ ((xr up [(7, 4)]).rx 7).toNat := by decide +kernel

/-- O1 finds a posted instar at slot 0 of die 0. -/
def posted : State :=
  let k : Key := { owner := 1, die := 0, slot := 0 }
  (xr mp [(6, (State.handleOf k).toNat), (7, 1)]).setInstar k { mp.mkInstar 4 0 0xFFFF true mp.ctx.pc with state := .posted }

theorem witness_SpawnMakesWorkReady_instar :
    posted.rx 7 = 1 ∧ (posted.rx 6).toNat % 2 ^ 28 = 0 ∧ (State.keyOf (posted.rx 6)).owner = posted.owner ∧ (posted.getInstar (State.keyOf (posted.rx 6))).map (fun i => (i.state, i.tethered)) = some (.posted, none) ∧
    posted.workWaits posted.coreNo posted.running = false ∧ State.ringNext (posted.queued posted.owner 0 posted.ctx.prio) = some 0 ∧ (match (posted.lookUp 0 posted.owner (State.ringVa 0 posted.ctx.prio 0) .write).1 with | .ok _ => true | .error _ => false) = true := by decide +kernel

theorem witness_LeavingTheRingSavesTheContext : let s := xr mp [(6, 2 ^ 27 - 2 ^ 11)]
    InRing s ∧ s.core.combining = [] ∧ s.coreNo < 16384 ∧ s.findRoom.1 = .at 0 ∧ (s.rx 6).toNat < 2 ^ 27 ∧ (List.range 27).countP (fun j => (s.rx 6).getLsbD j) = 16 ∧
      (let t := s.findRoom.2; t.workWaits t.coreNo t.running = false ∧ State.ringNext (t.queued t.owner t.workDie t.ctx.prio) = some 0 ∧ (match (t.lookUp t.workDie t.owner (State.ringVa t.workDie t.ctx.prio 0) .write).1 with | .ok _ => true | .error _ => false) = true) := by decide +kernel

theorem witness_EndingFreesTheSlot :
    let t := (tasked.readPacket tasked.coreNo tasked.owner 0x80000200).2
    Quiet tasked ∧ wbits tasked.ctx.evc 63 63 = 0 ∧ tasked.enginesDone = true ∧ wbits ((packetOf tasked).getD 1 0) 47 43 = 0 ∧ wbits t.ctx.evc 63 63 = 0 ∧ t.running = tasked.running := by decide +kernel
theorem witness_EndingFreesTheSlot_waits : (queued (matCmd 6 0 true)).enginesDone = false := by decide +kernel

/-- A routing table at 0 whose entry 63 sends to core 1, port 3. -/
def routed : State := (xr up [(6, 63), (7, 5)]).setWord (sramKey 0 504) 0x8000000000000013

theorem witness_MessagesSendAndArrive :
    routed.ctx.rtb.toNat + 512 ≤ scratchSize routed.coreNo routed.core ∧ routed.destBad (routed.wordAt (sramKey 0 504)) true = false ∧ wbits (routed.wordAt (sramKey 0 504)) 60 48 = routed.pkgNum ∧ routed.txRoom 3 = true ∧ routed.splitSpan routed.coreNo routed.ctx.rtb.toNat 512 = false := by decide +kernel
theorem witness_MessagesSendAndArrive_wait : fed.ctx.wait = .ready ∧ fed.rx 7 = 0 ∧ ((xr fed [(6, 9)]).rx 6).toNat % 16 &&& fed.nonempty ≠ 0 ∧
    ((xr fed [(6, 6)]).rx 6).toNat % 16 &&& fed.nonempty = 0 ∧ (xr fed [(7, 2 ^ 64 - 1)]).rx 7 = BitVec.allOnes 64 := by decide +kernel

theorem witness_StateRegistersReadAndWrite : (0x47 : Nat) % 16 < 8 ∧ (0x47 : Nat) / 16 % 8 < 5 ∧ 8 ≤ (0x48 : Nat) % 16 ∧ 5 ≤ (0x57 : Nat) / 16 % 8 ∧ up.core.splitChange = none ∧ up.core.splitWaits = [] ∧ State.cbanksOf 0xF000000C = up.core.cbanks := by decide +kernel

theorem witness_TakingAnException : InRing mp ∧ mp.core.combining = [] ∧ mp.findRoom.1 = .at 0 := by decide +kernel

/-- A frame extent's handle in x6, and a second live owner. -/
def frame9 : State := xr (State.setEntry { up with owners := up.owners ++ [(2, OwnerRec.boot)] } (State.entryKey 9 2) { Entry.boot with holder := 2 }) [(6, 4 * 2 ^ 60 + 9), (7, 2)]
def offered : State := frame9.setEntry (State.entryKey 4 9) { holder := 2, offop := 2, offer := 1, acc := false, scrub := false, lenders := [], prev := 0, offdl := 7 }

theorem witness_OwnershipOperationsAnswer : Quiet frame9 ∧ frame9.readsImage frame9.owner (frame9.rx 6) (frame9.rx 7) = false ∧ (0 : Nat) % 64 = 0 ∧ 0 + 64 ≤ scratchSize frame9.coreNo frame9.core ∧ frame9.splitSpan frame9.coreNo 0 64 = false ∧
    (frame9.ownPerform frame9.coreNo 7 frame9.owner 0 0 0 []).1 = some (0, []) ∧ (let t := (frame9.ownPerform frame9.coreNo 7 frame9.owner 0 0 0 []).2; t.leaving = [] ∧ (State.leaveAll { t with ctx := retired t.ctx 5 0 }).ctx.wait ≠ .again 4) ∧ (frame9.ownPerform frame9.coreNo 1 frame9.owner (frame9.rx 6) 0 0 []).1.map (·.2) = some [] := by decide +kernel
theorem witness_OwnershipOperationsAnswer_copy : let h : Word := BitVec.ofNat 64 (4 * 2 ^ 60 + 9)
    ((frame9.ownPerform frame9.coreNo 5 frame9.owner h 0 0 []).1.map (fun r => (r.1, r.2.length))) = some (0, 8) ∧ (frame9.ownPerform frame9.coreNo 5 frame9.owner h 0 0 []).2.leaving = [] := by decide +kernel

theorem witness_HoldersMoveByOffer : NoPort 5 ∧ Quiet frame9 ∧ frame9.leaving = [] ∧ frame9.silences 65536 = frame9 ∧ goodHandle (frame9.rx 6) = true ∧ hKind (frame9.rx 6) = 4 ∧ frame9.frozen (frame9.getEntry (hKey (frame9.rx 6))) = false ∧
    (frame9.getEntry (hKey (frame9.rx 6))).holder = frame9.owner ∧ (frame9.getEntry (hKey (frame9.rx 6))).offop = 0 ∧ (frame9.getEntry (hKey (frame9.rx 6))).lenders = [] ∧
    frame9.isLive 2 = true ∧ (frame9.ownerRec 2).silent = false ∧ (frame9.ownerRec 2).heir ≠ frame9.owner := by decide +kernel
theorem witness_HoldersMoveByOffer_accept : let e := offered.getEntry (hKey (offered.rx 6))
    Quiet offered ∧ offered.leaving = [] ∧ offered.silences 65536 = offered ∧ offered.frozen e = false ∧ 0 < e.offop ∧ e.offer = offered.owner ∧ e.acc = false := by decide +kernel

/-- The firmware waits for GO. -/
def booting : State := { State.reset with boot := { State.reset.boot with stage := 7 }, clock := { State.reset.clock with on := true } }
def bringing : State := nx .bootctlWrite (ev booting 0 0 0 0 0 0xC000000000000000)
/-- A package of a pod, in sync at an offset of 24 ns. -/
def podded (offset : Nat) (sync : Bool) : State := { up with boot := { up.boot with bootctl := 0x8000000000000000 }, clock := { up.clock with inSync := sync, set := true, offset := BitVec.ofNat 64 offset } }

/-- Which slot boots depends on the images, of which the model says nothing: one of the three clauses always applies. -/
theorem witness_BootAndSync_slots (s : State) : State.slotResult (s.slot s.firstSlot) = 1 ∨
    (State.slotResult (s.slot s.firstSlot) ≠ 1 ∧ State.slotResult (s.slot (1 - s.firstSlot)) = 1) ∨ (State.slotResult (s.slot s.firstSlot) ≠ 1 ∧ State.slotResult (s.slot (1 - s.firstSlot)) ≠ 1) := by tauto
theorem witness_BootAndSync_go : let s := ev booting 0 0 0 0 0 0xC000000000000000
    s.boot.rescue = false ∧ s.boot.tripped = false ∧ s.boot.stage = 7 ∧ wbits s.boot.bootctl 63 63 = 0 ∧ wbits s.arg.w 61 40 = 0 ∧ wbits s.arg.w 31 13 = 0 ∧ wbits s.arg.w 39 32 = 0 ∧ wbits s.arg.w 63 63 = 1 := by decide +kernel
theorem witness_BootAndSync_ready : bringing.runs = true ∧ bringing.boot.stage = 5 ∧ bringing.clock.inSync = true ∧ bringing.boot.slot < 2 := by decide +kernel
theorem witness_BootAndSync_power : up.flash.engine = [] := by decide
/-- Each cause at its bound, and neither. -/
theorem witness_BootAndSync_trip : 110 ≤ (ev up 110 0 0 0 0 0).arg.a ∧ 10000 ≤ (ev up 109 10000 0 0 0 0).arg.b ∧ up.side.resetDue = false ∧ (ev up 109 9999 0 0 0 0).arg.a < 110 ∧ (ev up 109 9999 0 0 0 0).arg.b < 10000 := by decide
theorem witness_BootAndSync_loss : (podded 24 true).clock.inSync = true ∧ (podded 24 true).syncHolds = false := by decide +kernel
theorem witness_BootAndSync_regained : (podded 23 false).runs = true ∧ (podded 23 false).clock.inSync = false ∧ 5 ≤ (podded 23 false).boot.stage ∧ (podded 23 false).syncHolds = true := by decide +kernel

theorem witness_PowerGatingAndErrors : up.runs = true ∧ (ev up 0 4095 0 0 0 0).mayGate false 4095 = true ∧ up.gating = [] ∧
    (let s : State := { ev up 0 4095 0 0 0 0 with gating := [{ isDie := false, unit := 4095, marked := false }] }; s.mayGate false 4095 = true ∧ s.unitWrites (fun n => decide (n < 16384) && n / 4 == 4095) = false) := by decide +kernel
/-- A reading at each bound of COOLANT's, and after 100 ms. -/
theorem witness_PowerGatingAndErrors_coolant : (let s := ev up 401 20 100000000 0 0 0; 400 < s.arg.a ∧ 100000000 ≤ s.arg.c) ∧ (let s := ev up 400 19 100000000 0 0 0; s.arg.b < 20) ∧ (let s := ev up 400 20 0 0 0 0; s.arg.a ≤ 400 ∧ 20 ≤ s.arg.b) := by decide
/-- The end of the first 1 ms interval, and of the first of 10 ms with no raise and with one. -/
theorem witness_PowerGatingAndErrors_throttle :
    let s (a b time ms raised : Nat) : State := ev { up with time := time, power := { up.power with ms := ms, raised := raised } } a b 0 0 0 0
    let r := s 95 4500 1000000 0 0
    let h := s 94 4501 1000000 0 0
    let n := s 94 4500 1000000 0 0
    let l := s 89 4275 10000000 10 9
    let k := s 89 4275 10000000 10 10
    (r.power.ms < r.time / 1000000 ∧ r.power.level < 3 ∧ 95 ≤ r.arg.a) ∧ 4500 < h.arg.b ∧ (n.arg.a < 95 ∧ n.arg.b ≤ 4500) ∧
      (l.power.ten < l.time / 10000000 ∧ 10 * (l.time / 10000000) ≤ l.power.ms ∧ l.arg.a < 90 ∧ l.arg.b ≤ 4275 ∧ l.power.warm = false ∧ l.power.raised < 10 * (l.time / 10000000)) ∧
      10 * (k.time / 10000000) ≤ k.power.raised := by decide +kernel
theorem witness_PowerGatingAndErrors_retrain : let s := ev (up.setLink 1 { Link.fresh with up := true }) 1 1 0 0 0 0
    s.arg.a < 2 ∧ (s.cxlLink s.arg.a).up = true ∧ s.arg.b = 1 := by decide +kernel

/-- Queue 5: a ring of 64 packets, enabled, its indexes at the wrap. -/
def ring5 : State := up.setQueue 5 { Queue.fresh with ringbase := 0x600000, ringlog := 6, crbase := 0x601000, crlog := 7, enable := true, rdidx := 2 ^ 32 - 1, wridx := 2 ^ 32 - 1 }
def halted5 : State := up.setQueue 5 { ring5.getQueue 5 with halted := true, rdidx := 3, wridx := 10 }
def disabled5 : State := up.setQueue 5 { ring5.getQueue 5 with enable := false, rdidx := 0, wridx := 0 }

theorem witness_HostRegisterAccesses : (up.getEntry (State.entryKey 6 5)).scrub = false ∧ (ev up 5 0 0 0 0 (2 ^ 32 - 1)).arg.w.toNat < 2 ^ 32 ∧ up.scrubbedQueue 0 3 = false ∧ up.boot.rescue = false ∧ up.boot.tripped = false ∧ up.boot.stage = 6 := by decide +kernel
theorem witness_HostRegisterAccesses_kick : let r := ring5.getQueue 5
    r.enable = true ∧ r.halted = false ∧ (63 + 2 ^ 32 - r.rdidx) % 2 ^ 32 ≤ 2 ^ r.ringlog ∧ (62 : Nat) < 2 ^ 32 := by decide +kernel
theorem witness_HostRegisterAccesses_resume : let r := halted5.getQueue 5
    r.halted = true ∧ (r.wridx + 2 ^ 32 - 10) % 2 ^ 32 ≤ 2 ^ r.ringlog := by decide +kernel
theorem witness_HostRegisterAccesses_enable : disabled5.canEnable 5 = true ∧ (ring5.getQueue 5).enable = true := by decide +kernel
theorem witness_HostRegisterAccesses_pool : let s : State := { up with host := { up.host with poolbase := 0x000FFFFFF0000000, poolsize := 2 ^ 28 } }
    wbits s.host.poolbase 51 28 + wbits s.host.poolsize 49 28 ≤ 2 ^ 24 ∧ s.inflight = [] ∧ s.arrived = [] ∧ s.host.poolen = false ∧ wbits s.host.poolbase 63 52 = 0 ∧ wbits s.host.poolbase 27 0 = 0 := by decide +kernel
theorem witness_HostRegisterAccesses_flash : let c : FlashCmd := { slot := 1, cmd := 1, off := 0, bytes := [], sideband := none }
    let s : State := { up with flash := { up.flash with engine := [c] } }
    up.flash.busy = false ∧ s.flash.engine = [c] ∧ c.slot < 2 ∧ c.slot ≠ s.boot.slot ∧ s.side.resetDue = false := by decide +kernel
theorem witness_HostRegisterAccesses_violation : (up.writeAny 0 0 3 8 0).isNone = true ∧ (up.readRegister 0 0 3 8).isNone = true := by decide +kernel

def link : Link := { Link.fresh with up := true, cache := true, mem := true, ats := true, pri := true, flit := true, speed := 5, width := 4 }
/-- Both ports in service, with a page request under way. -/
def attached : State := let s := (up.setLink 0 link).setLink 1 link
  let d : Hdm := { ways := 2, gran := 16384, start := 0, size := 2 ^ 40 }
  { s with arg := { Arg.none with a := 0x3FFFFF, b := 1 },
           host := { s.host with hdm := ⟨#[some d, some d], rfl⟩, pageReqs := [{ core := 0, nport := 0, port := 1, tag := 7, page := 0x123000, write := true }] } }
def hostKey : Nat := 2 ^ 51 + 0x1003

theorem witness_HostAttachEvents_service : up.ready = true ∧ (1 : Nat) < 2 ∧ (15 : Nat) < 16 ∧ (255 : Nat) < 256 := by decide +kernel
theorem witness_HostAttachEvents_decoder : attached.hdmGood 1 { ways := 2, gran := 16384, start := 0, size := 2 ^ 40 } = true ∧ ({ attached with host := { attached.host with hdm := ⟨#[none, none], rfl⟩ } } : State).hdmGood 0 { ways := 1, gran := 0, start := 0, size := 2 ^ 39 } = true ∧
    attached.hdmGood 0 { ways := 1, gran := 0, start := 0, size := 2 ^ 40 } = false := by decide +kernel
theorem witness_HostAttachEvents_snoop : storage hostKey = .host ∧ (attached.cxlLink 1).up = true ∧ attached.host.tracker = [] ∧ attached.engineHolds (hostKey / 64 * 64) 64 = false ∧ attached.inflight = [] ∧ attached.arg.bytes = [] := by decide +kernel
/-- An engine writes the host page that holds the line, which a snoop has waited for since 5 ns. -/
def engaged (time : Nat) : State :=
  let c : CopyCmd := { CopyCmd.blank with started := true, dst := 0x80001000, rowb := 4096, rows := 1, pages := [(0x80001, true, page 0x80000000 0x200000 (2 ^ 51) false)] }
  { ev attached hostKey 1 0 5 0 0 with core := { attached.core with copyq := [c] }, time := time }
theorem witness_HostAttachEvents_engine : let s := engaged 2004
    storage s.arg.a = .host ∧ (s.cxlLink (s.arg.b % 2)).up = true ∧ s.engineHolds (s.arg.a / 64 * 64) 64 = true ∧ s.arg.d ≠ 0 ∧ s.arg.d + 2000 ≤ s.time + 1 ∧ s.arg.bytes = [] ∧ s.inflight = [] ∧ s.host.tracker = [] ∧
      (let y := s.yieldLine (lineStart (s.arg.a / 64 * 64)); y.snoopEnd (s.arg.a / 64 * 64) ≤ y.time) ∧
      (engaged 2003).time + 1 < (engaged 2003).arg.d + 2000 := by decide +kernel
theorem witness_HostAttachEvents_access : storage attached.arg.a = .hbm ∧ (attached.cxlLink (attached.arg.b % 2)).mem = true ∧ attached.decodes (attached.arg.b % 2) attached.arg.a = true ∧ attached.holder 4 (0x3FFFFF / 2097152) = 1 ∧ attached.scrubbing 0x3FFFFF = false ∧ attached.lineHeld 0x3FFFFF = false ∧ attached.arrived = [] ∧ (attached.markContended 20002 attached.arg.a).leaseEnd attached.arg.a = 0 ∧ attached.arg.c = 0 ∧ attached.arg.bytes = [] ∧
    (attached.setEntry (State.entryKey 4 1) { Entry.boot with holder := 2 }).holder 4 (0x3FFFFF / 2097152) ≠ 1 := by decide +kernel
theorem witness_HostAttachEvents_translation : attached.inflight = [] ∧ attached.arrived = [] ∧ (∃ l ∈ attached.host.links.toList, l.ats = true) ∧ (attached.host.pageReqs.find? (fun r => r.tag == 7 && r.page == 0x123000)).isSome = true := by decide +kernel
theorem witness_HostAttachEvents_word : let w : NetWord := { core := 3, txport := 1, kind := 2, unit := 1, town := 1, port := 0, value := 0x123001, closing := false, spilled := 0 }
    ({ attached with net := [w] } : State).net.find? (fun w => w.kind == 2 && w.spilled == 0) = some w ∧ w.unit < 2 := by decide +kernel

def logged : LogEntry := { seq := 5, kind := 4, uclass := 7, unit := 0, time := 99, addr := 1, detail := 2 }
/-- The last sideband request was 65535, its answer is kept, and one event is not acknowledged. -/
def managed : State := { up with side := { up.side with lastReq := 65535, answer := [1], events := [(3, logged)] } }

theorem witness_SidebandCommands : (65536 : Nat) % 65536 = (managed.side.lastReq + 1) % 65536 ∧ managed.arg.b = 0 ∧ managed.arg.c = 0 ∧ managed.arg.bytes = [] ∧ managed.flash.engine = [] ∧ managed.normal = true ∧
    managed.side.answer ≠ [] ∧ (65535 : Nat) = managed.side.lastReq ∧ managed.side.events = (3, logged) :: [] ∧ managed.arg.d = 0 ∧ managed.arg.e ≤ 8 := by decide +kernel
theorem witness_SidebandCommands_other : (ev managed 0 0 0 0 9 0).arg.e = 9 ∧ (managed.pldmSensor 159).isSome = true ∧ (159 : Nat) ≠ 0 ∧ (159 : Nat) < 65536 ∧ (ev managed 0 0 0 65538 256 0).arg.e = 256 ∧ (ev managed 0 0 0 65538 0 0).arg.d = 65536 + 2 ∧ managed.clock.on = true ∧ managed.time < managed.side.sentAt + 100000000 ∧
    (let s : State := { managed with time := 100000000 }; s.side.sentAt + 100000000 ≤ s.time) := by decide +kernel
/-- The longest command that fits a message, and the next. -/
theorem witness_SidebandCommands_fits : (List.replicate 1079 (0 : Byte)).length ≤ 1079 ∧ 1079 < (List.replicate 1080 (0 : Byte)).length ∧ (List.replicate 1087 (0 : Byte)).length ≤ 1087 := by decide +kernel
theorem witness_SidebandCommands_bodies : (evb managed [0, 0, 0, 0, 32]).arg.bytes.length = 5 ∧ ofBytes (((evb managed [0, 0, 0, 0, 32]).arg.bytes.drop 4).take 1) ≤ 32 ∧ 1 ≤ ofBytes (((evb managed [0, 0, 0, 0, 1]).arg.bytes.drop 4).take 1) ∧
    (2 : Nat) ≠ managed.side.lastReq ∧ (2 : Nat) ≠ (managed.side.lastReq + 1) % 65536 ∧ ofBytes (evb managed [143]).arg.bytes < 144 ∧ ofBytes ((evb managed [1, 255, 63, 0, 0]).arg.bytes.drop 1) < kindLimit 1 ∧ (evb managed [1, 3, 0, 0, 0, 0]).arg.bytes.length = 6 ∧
    (evb managed [3, 0]).arg.bytes.length = 2 ∧ (evb managed (List.replicate 32 0)).arg.bytes.length = 32 := by decide +kernel

def txn (kind dpkg hops w2 w3 : Nat) : Txn := { w0 := BitVec.ofNat 64 (kind * 2 ^ 59 + hops * 2 ^ 56 + dpkg * 2 ^ 43 + 9 * 2 ^ 30), w1 := 0x0001000100000000, w2 := BitVec.ofNat 64 w2, w3 := BitVec.ofNat 64 w3, data := [] }
/-- Port 5 is up, in the group that leads to package 3; eight NAKs have come for its one unacknowledged flit. -/
def ported : State := State.setPort { (podded 0 true) with fabric := { up.fabric with groups := [(0, 32)], routes := [(3, some 0)] }, time := 5000 } 5
  { Port.fresh with state := 2, lanes := 3, rtt := 10, delay := 5, replay := [(4, txn 0 3 0 0 0)], txSeq := 5, acked := 3, naks := 8 }
def toTrain (state : Nat) : State := ported.setPort 5 { ported.getPort 5 with state := state }

theorem witness_FabricLinksKeepTheirPorts : State.portUp (ported.getPort 5) = true ∧ 8 ≤ (ported.getPort 5).naks ∧ (ported.getPort 5).replay ≠ [] ∧ (ported.getPort 5).ackAt + 4000 ≤ ported.time ∧
    ported.solo = false ∧ ported.runs = true ∧ ported.boot.stage ≠ 5 := by decide +kernel
theorem witness_FabricLinksKeepTheirPorts_train : ((toTrain 1).getPort 5).state = 1 ∧ (7 : Nat) % 4 = 3 ∧ (1000 : Nat) ≤ 1000 ∧ (toTrain 1).inGroup 5 = true ∧ (1 : Nat) % 4 ≠ 0 ∧ (1000 : Nat) < 1001 ∧
    ((toTrain 0).getPort 5).state = 0 ∧ ((toTrain 5).getPort 5).state = 5 ∧ (toTrain 0).runs = true ∧ 5 ≤ (toTrain 0).boot.stage ∧ ((toTrain 1).getPort 5).kept = false ∧
    ((toTrain 0).getPort 5).since + 100000000 ≤ ({ toTrain 0 with time := 100000000 } : State).time := by decide +kernel
/-- A port that retrains with its replay buffer, at the end of the 1 ms. -/
theorem witness_FabricLinksKeepTheirPorts_kept : let s : State := { toTrain 1 with time := 1000000 }
    let s := s.setPort 5 { s.getPort 5 with kept := true }
    s.time ≤ (s.getPort 5).since + 1000000 ∧ (s.getPort 5).since + 1000000 ≤ s.time := by decide +kernel
/-- A sample is due on the port, and one that was sent 9,999 ns ago is not followed yet. -/
theorem witness_FabricLinksKeepTheirPorts_sync : let s : State := { ported with time := 10000 }
    State.portUp (s.getPort 5) = true ∧ (s.getPort 5).syncAt + 10000 ≤ s.time ∧ ¬ ({ s.getPort 5 with syncAt := 1 } : Port).syncAt + 10000 ≤ s.time := by decide +kernel
theorem witness_FabricLinksKeepTheirPorts_set : let s : State := { ported with boot := { ported.boot with stage := 5 }, clock := { ported.clock with set := false } }
    s.solo = false ∧ s.runs = true ∧ s.boot.stage = 5 ∧ s.clock.set = false := by decide +kernel
/-- Zero bytes are a codeword in every field and for every root: the received flit of 256 zero bytes is data flit SEQ 0. -/
theorem test_zero_product (n b : Nat) : gfMulFrom 0 b n = 0 := by
  induction n generalizing b with
  | zero => rfl
  | succ n ih => simp [gfMulFrom, ih, gfDouble, gfAdd]
theorem test_zero_word (n x : Nat) : gfEval (List.replicate n 0) x = 0 := by
  unfold gfEval
  induction n with
  | zero => rfl
  | succ n ih => rw [List.replicate_succ, List.foldl_cons]; simp only [gfMul, test_zero_product]; exact ih
theorem test_zero_codeword : rsDecode (List.replicate 128 0) = some (List.replicate 128 0, false) := by
  have h : (syndromes (List.replicate 128 0)).all (· == 0) = true := by
    simp only [syndromes, List.all_map, List.all_eq_true]
    intro x _
    simp only [Function.comp, test_zero_word]
    rfl
  simp only [rsDecode, h, if_true]
theorem witness_FabricLinksKeepTheirPorts_flit : fecDecode (List.replicate 256 0) = some (List.replicate 236 0, false) := by
  have h1 : (evens ((List.replicate 256 (0 : Byte)).take 236)).map (·.toNat) ++ (((List.replicate 256 (0 : Byte)).drop 236).map (·.toNat)).take 10 = List.replicate 128 0 := by decide +kernel
  have h2 : (odds ((List.replicate 256 (0 : Byte)).take 236)).map (·.toNat) ++ ((((List.replicate 256 (0 : Byte)).drop 236).map (·.toNat)).drop 10).take 10 = List.replicate 128 0 := by decide +kernel
  have h3 : (interleave ((List.replicate 128 0).take 118) ((List.replicate 128 0).take 118)).map (BitVec.ofNat 8) = List.replicate 236 (0 : Byte) := by decide +kernel
  simp only [fecDecode, h1, h2, test_zero_codeword, h3, Bool.or_self]
set_option maxRecDepth 20000 in
/-- An idle flit, a retrain marker and the next data flit after 4095, by their CRC and header. -/
theorem witness_FabricLinksKeepTheirPorts_kinds : ∀ kind, kind < 3 →
    (let b := (flitBytes 0 9 0 kind []).take 236
     let h := ofBytes (b.take 4)
     crc64 (b.take 228) == ofBytes ((b.drop 228).take 8) && h % 8 == kind && bits h 31 20 == ((ported.getPort 5).rxSeq + 1) % 4096) = true := by decide +kernel

def request : Request := { die := 0, rid := 0, acc := { kind := .load 3, owner := 1, space := 1, core := 0, va := 0x1000, size := 8, data := 0, cmp := 0, bytes := [], dreg := 5, flight := 0, evid := none }, slot := 0, dpkg := 9, issue := 10, parked := false, via := [], key := none }
/-- A load waits for another package. -/
def asked (parked : Bool) : State := { mapped ported with fabric := { ported.fabric with requests := [{ request with parked := parked }] }, time := 10000010 }

theorem witness_FabricTransactionsAreServed : let t := txn 0 0 0 4995 (3 * 2 ^ 61 + 0x80000000)
    t.dpkg = ported.pkgNum ∧ t.kind = 0 ∧ ported.inTime t 5 ported.time = true ∧ ported.isLive t.town = true ∧ ported.hasGrant t.town 5 = true ∧ t.size < 4 ∧ ported.inTime (txn 0 0 0 1 0) 5 ported.time = false ∧ ported.isLive 77 = false := by decide +kernel
theorem witness_FabricTransactionsAreServed_value : let t := txn 0 0 0 4995 (3 * 2 ^ 61 + 0x80000000)
    ((mapped ported).perform (State.edgeAccess t 0 (.load t.size) (2 ^ t.size) 0 0)).1 = .value 0 0 := by decide +kernel
theorem witness_FabricTransactionsAreServed_message : let t := txn 5 0 0 4995 (16383 * 16 + 3)
    t.dpkg = ported.pkgNum ∧ wbits t.w3 21 20 = 0 ∧ ported.inTime t 5 ported.time = true ∧ ported.isLive t.town = true ∧ ported.hasGrant t.town 5 = true ∧ ported.holder 1 (wbits t.w3 17 4) = t.town := by decide +kernel
theorem witness_FabricTransactionsAreServed_answers : (asked false).fabric.requests.find? (State.isFor (txn 8 0 0 0 0)) = some request ∧ ported.fabric.requests.find? (State.isFor (txn 8 0 0 0 0)) = none ∧
    (asked true).fabric.requests.find? (fun r => State.isFor (txn 10 0 0 0 0) r && r.parked) = some { request with parked := true } ∧
    (asked false).fabric.requests.find? (fun r => !r.parked && decide (r.issue + 10000000 ≤ (asked false).time)) = some request ∧ (txn 17 0 0 1 0).w2 ≠ 0 := by decide +kernel
theorem witness_FabricTransactionsAreServed_hops : (txn 0 3 7 0 0).dpkg ≠ ported.pkgNum ∧ (txn 0 3 7 0 0).hops = 7 ∧ classOf (txn 0 3 7 0 0).kind = 0 ∧ (txn 0 3 6 0 0).hops < 7 := by decide +kernel
/-- The running context of core 0 waits for the load. -/
def away : State := let s := asked false; { s with ctx := { s.ctx with wait := .remote 0 }, arg := { s.arg with txn := txn 9 0 0 0 0 } }
theorem witness_FabricTransactionsAreServed_parked : let m : State := State.flushAll { away with fabric := { away.fabric with requests := away.fabric.requests.map (fun r => if State.isFor away.arg.txn r = true then { r with parked := true } else r) } }
    isMc request.acc.core = false ∧ away.arg.txn.dpkg = away.pkgNum ∧ m.fabric.requests.find? (fun r => State.isFor away.arg.txn r && decide (r.slot < 8) && r.key.isNone) = some { request with parked := true } ∧
      (m.focus 0 0).live = true ∧ (m.focus 0 0).ctx.wait = .remote 0 ∧ (m.focus 0 0).findRoom.1 = .at 0 ∧ (m.leaveParked { request with parked := true }).1 = true := by decide +kernel
/-- The port of a forwarded transaction is the implementation's hash, taken modulo the ports that are up: with one such port, that one. -/
theorem witness_FabricTransactionsAreServed_transit : ported.transitPort (txn 0 3 6 0 0) = some 5 := by
  have h : ported.groupPorts (txn 0 3 6 0 0).dpkg = [5] := by decide +kernel
  simp [State.transitPort, h, Nat.mod_one]

def silentDue : State := { up.setOwner 1 { up.ownerRec 1 with pint := 1000, lastPulse := 5 } with time := 4005 }
def entryCase (e : Entry) : State := ev (up.setEntry (State.entryKey 4 9) e) 0 0 0 0 0 (4 * 2 ^ 60 + 9)
def loaned : State := { entryCase { Entry.boot with lenders := [(1, 5)] } with returning := [(State.entryKey 4 9, 1)] }

theorem witness_OwnershipEventsMoveHolders_silence : silentDue.isLive 1 = true ∧ (silentDue.ownerRec 1).pint ≠ 0 ∧ (silentDue.ownerRec 1).silent = false ∧ (silentDue.ownerRec 1).lastPulse + 4 * (silentDue.ownerRec 1).pint ≤ silentDue.time := by decide +kernel
theorem witness_OwnershipEventsMoveHolders_transfer : let s := entryCase { Entry.boot with offop := 1, offer := 1, acc := true }
    hKind s.arg.w = 4 ∧ goodHandle s.arg.w = true ∧ hKey s.arg.w = State.entryKey 4 9 ∧ (s.getEntry (hKey s.arg.w)).acc = true ∧ s.frozen (s.getEntry (hKey s.arg.w)) = false ∧ s.silentDue (s.getEntry (hKey s.arg.w)).holder = false := by decide +kernel
theorem witness_OwnershipEventsMoveHolders_return : let k := hKey loaned.arg.w
    loaned.returning.contains (k, (loaned.getEntry k).holder) = true ∧ loaned.frozen (loaned.getEntry k) = false ∧ loaned.silentDue (loaned.getEntry k).holder = false ∧ loaned.busyEntry k = false := by decide +kernel
theorem witness_OwnershipEventsMoveHolders_scrub : let s := entryCase { Entry.boot with scrub := true }
    (s.getEntry (hKey s.arg.w)).scrub = true ∧ s.leaving = [] ∧ s.heldOfFrame (hKey s.arg.w) = [] ∧ s.scrubReady (hKey s.arg.w) = true ∧
      State.heldOfFrame { s with host := { s.host with held := [(1, 9 * 2097152, true)] } } (hKey s.arg.w) ≠ [] := by decide +kernel
theorem witness_OwnershipEventsMoveHolders_home : let u := State.focus { up with ctx := { up.ctx with wait := .own 7 5 0 0 0 [] } } 0 0
    u.live = true ∧ u.ctx.wait = .own 7 5 0 0 0 [] ∧ (u.ownPerform u.coreNo 7 u.owner 0 0 0 []).1 = some (0, []) ∧ up.arg.c ≠ 1 := by decide +kernel

def pkt (type : Nat) (words : List Nat) : Packet :=
  { seq := 8, type := type, words := words.map (BitVec.ofNat 64), started := false, worked := false, done := false, recorded := false, status := 0, detail := 0, addr := 0, since := 0, flight := 9, relAt := 0, seen := 0, held := 0, reading := false, asked := 0 }
/-- A NOP packet of sequence number 8 with its check word. -/
def nopBytes : List Byte := toBytes 8 (0x5A + crc16 (List.replicate 56 0) * 2 ^ 16 + 8 * 2 ^ 32) ++ List.replicate 56 0
/-- Queue 5 is resident; its next packet, number 8, is at index 3. -/
def served : State := ((mp.setQueue 5 { ring5.getQueue 5 with rdidx := 3, wridx := 4, cseq := 7, dseq := 7 }).touchQueue 5).makeResident
def servedNop : State := { served with mem := (served.setBytes 0x6000C0 nopBytes).mem }
def holding (ps : List Packet) : State := served.setQueue 5 { served.getQueue 5 with packets := ps, seat := 1 }

theorem witness_PacketsAreFetchedAndRecorded_fetch :
    let u := servedNop.touchQueue 5
    let r := u.getQueue 5
    let b := u.bytesAt 0x6000C0 64
    State.mayFetch r = true ∧ r.retryAt = 0 ∧ r.ringbase + 64 * (r.rdidx % 2 ^ r.ringlog) = 0x6000C0 ∧ bits (ofBytes (b.take 8)) 7 0 = 0x5A ∧ bits (ofBytes (b.take 8)) 63 32 = (r.cseq + 1) % 2 ^ 32 ∧ bits (ofBytes (b.take 8)) 15 13 = 0 ∧
      1 ≤ (r.wridx + 2 ^ 32 - r.rdidx) % 2 ^ 32 ∧ crc16 (b.drop 8) = bits (ofBytes (b.take 8)) 31 16 ∧ u.packetCause (u.queueOwner 5) (State.wordsOf 8 b) = none := by decide +kernel
theorem witness_PacketsAreFetchedAndRecorded_read :
    let u := servedNop.touchQueue 5
    (match (u.ringRead (u.queueOwner 5) 0x6000C0).1 with | .bytes l => l == u.bytesAt 0x6000C0 64 | _ => false) = true ∧ (u.ringRead (u.queueOwner 5) 0x6000C0).2 = u := by decide +kernel
theorem witness_PacketsAreFetchedAndRecorded_reread : let s : State := { servedNop.setQueue 5 { servedNop.getQueue 5 with retryAt := 1 } with time := 1 }
    State.mayFetch (s.getQueue 5) = true ∧ (s.getQueue 5).retryAt ≠ 0 ∧ (s.getQueue 5).retryAt ≤ s.time := by decide +kernel
theorem witness_PacketsAreFetchedAndRecorded_start : let s := holding [pkt 0 []]
    firstUnstarted [] (s.getQueue 5).packets = some ([], pkt 0 []) ∧ (s.getQueue 5).enable = true ∧ (s.getQueue 5).halted = false ∧ (s.getQueue 5).engine ≠ 255 ∧ s.engineNext (s.getQueue 5).engine = some 5 ∧ mayStart [] (pkt 0 []) = true := by decide +kernel
/-- A queue that is no candidate for an engine starts its fetched packet without one. -/
theorem witness_PacketsAreFetchedAndRecorded_seatless : let s := (holding [pkt 0 []]).setQueue 5 { (holding [pkt 0 []]).getQueue 5 with engine := 255, wridx := 3 }
    firstUnstarted [] (s.getQueue 5).packets = some ([], pkt 0 []) ∧ (s.getQueue 5).enable = true ∧ (s.getQueue 5).halted = false ∧ (s.getQueue 5).engine = 255 ∧ State.candidate (s.getQueue 5) = false ∧ mayStart [] (pkt 0 []) = true := by decide +kernel
theorem witness_PacketsAreFetchedAndRecorded_record : let p : Packet := { pkt 0 [] with started := true, done := true, recorded := true }
    let s := holding [p]
    (s.getQueue 5).haltDue = none ∧ (s.getQueue 5).packets = [p] ∧ p.done = true ∧ p.recorded = true ∧ p.relAt ≤ s.time ∧ p.status = 0 := by decide +kernel
theorem witness_PacketsAreFetchedAndRecorded_evict : let s := served.setQueue 5 { served.getQueue 5 with wridx := 3 }
    (s.getQueue 5).engine ≠ 255 ∧ State.candidate (s.getQueue 5) = false := by decide +kernel

/-- A packet of queue 5 as it starts. -/
def starting (p : Packet) : State :=
  let u := (holding [p]).setPacket 5 { p with started := true, since := (holding [p]).time, relAt := (holding [p]).time }
  u.setQueue 5 { u.getQueue 5 with turn := u.nextStart }
/-- Wait until the word at 0x80000000 equals 0; SIGNAL there; SEAL of extent 5; a launch of one core's group with one task. -/
def waitPkt : Packet := pkt 2 [2, 2 ^ 60 + 100, 0, 0x80000000, 0, 0]
def signalPkt : Packet := pkt 4 [4, 0, 0x80000008, 77, 0, 0]
def sealPkt (type : Nat) : Packet := pkt type [type, 5, 0, 0, 0, 0]
def launchPkt : Packet := pkt 1 [1, 0x40000000, 0x1000 * 2 ^ 32, 2 ^ 48 + 2 ^ 40, 0x80000200, 2 ^ 48 + 4 * 2 ^ 16, 0]

theorem witness_PacketWorkIsDone_wait : let u := starting waitPkt
    mayStart [] waitPkt = true ∧ wbits (waitPkt.w 2) 63 60 = 1 ∧ condHolds (wbits (waitPkt.w 3) 3 0) 0 (waitPkt.w 5) = true ∧
    (match (u.waitRead (State.packetUnit 5 8) (u.packetOwner 5) (waitPkt.w 4)).1 with | .word (some w) => w == 0 | _ => false) = true ∧
    (working (u.getQueue 5) (fun t => t == 2 || t == 3)).map (·.seq) = some 8 ∧ wbits (waitPkt.w 2) 47 0 ≠ 0 ∧ waitPkt.seen = 0 ∧ waitPkt.held = 0 ∧ waitPkt.asked = 0 ∧ waitPkt.reading = false ∧ u.arg.b = 0 := by decide +kernel
theorem witness_PacketWorkIsDone_signal : let u := starting signalPkt
    (match (u.signalOp 0 (State.packetUnit 5 8) (u.packetOwner 5) (signalPkt.w 3) (wbits (signalPkt.w 2) 63 62) (signalPkt.w 4)).1 with | .status n => n == 0 | _ => false) = true := by decide +kernel
theorem witness_PacketWorkIsDone_seal : let u := starting (sealPkt 6)
    (State.sealRun (sealPkt 6)).all (fun e => u.holder 5 e == u.packetOwner 5) = true ∧ (working (u.getQueue 5) (fun t => t == 6 || t == 7)).map (·.type) = some 6 ∧ (State.sealRun (sealPkt 6)).all (fun e => !(u.getEntry (State.entryKey 5 e)).scrub) = true ∧ u.flights.list = [] := by decide +kernel
theorem witness_PacketWorkIsDone_own : let p := pkt 8 [8, 7, 0, 0, 0, 0]
    let u := starting p
    u.storesBefore 5 p = true ∧ wbits (p.w 2) 2 0 = 7 ∧ u.silenceNow = false ∧ (u.ownImage 5 p).1 = some [] ∧ ((u.ownImage 5 p).2.ownPerform 20000 (wbits (p.w 2) 2 0) 1 (p.w 3) (p.w 4) (p.w 5) []).1 = some (0, []) := by decide +kernel
/-- O1 has a root table, core 0's context has ended, and the task packet stands at 0x80000200. -/
def launching : State := let s := starting launchPkt
  nx .halt ((task s 0).setOwner 1 { s.ownerRec 1 with root := 0x10000 })
theorem witness_PacketWorkIsDone_launch :
    (launching.packetOwner 5 = 1) ∧ launching.flights.list = [] ∧ launching.denied.contains (State.packetUnit 5 8) = false ∧ launching.waiting (.agent (State.packetUnit 5 8)) = false ∧ (match (launching.loadCheck (State.flightOf 5 1 launchPkt) (State.packetUnit 5 8)).1 with | .accepted l => l == [0x80000200] | _ => false) = true := by decide +kernel

/-- The flight has joined its list, and a pass is due; it is placed on a core, and there its task is drawn. -/
def waiting1 : State := ev (launching.joinList { State.flightOf 5 1 launchPkt with handles := [0x80000200] }) 1 0 0 0 0 0
def placed1 : State := ev (nx .placementPass waiting1) 16 0 0 0 0 0
def drawn1 : State := nx .slotDraw placed1
def running1 : State := (nx .taskStart drawn1).focus 16 0

theorem witness_FlightsAndSlotsGoOn_pass : waiting1.flights.passes.contains 1 = true ∧ (waiting1.ownerRec 1).silent = false ∧ waiting1.sealWaits 1 = false ∧ waiting1.silentDue 1 = false := by decide +kernel
theorem witness_FlightsAndSlotsGoOn_draw : placed1.slotOf 16 0 = .empty 0 ∧ (placed1.getEntry (State.entryOfCore 16)).scrub = false ∧ (placed1.getEntry (State.entryOfCore 16)).acc = false ∧ placed1.coreLeaves 16 = false ∧ placed1.workWaits 16 0 = false ∧ (placed1.tetheredReady 16).isNone = true ∧
    SMap.get [] placed1.rings (State.pinnedKey 16) = [] ∧ (placed1.drawFrom (placed1.coreOwner 16) 16 0 (dieOf 16) [3, 2, 1, 0]).1 = some (.task 0x80000200 9 0 none) := by decide +kernel
/-- A core of die 1 in the same flight finds the task of die 0. -/
theorem witness_FlightsAndSlotsGoOn_steal : let s := State.setSlot { placed1 with flights := { placed1.flights with list := placed1.flights.list.map (fun f => { f with groups := [[16], [1024]] }) } } 1024 3 (.empty 512)
    s.slotOf 1024 3 = .empty 512 ∧ s.coreLeaves 1024 = false ∧ s.workWaits 1024 3 = false ∧ (s.stealFrom (s.coreOwner 1024) 1024 3 (State.neighbours (dieOf 1024))).1 = some (.task 0x80000200 9 0 none, 0) := by decide +kernel
theorem witness_FlightsAndSlotsGoOn_start : let u := drawn1.focus 16 0
    u.live = false ∧ u.workWaits u.coreNo u.running = false ∧ u.core.slots.toList.getD u.running (.empty 0) = .drawn (.task 0x80000200 9 0 none) 0 ∧ u.denied = [] ∧ (u.freeSlot u.owner u.workDie).isSome = true ∧ packetOf u = [0x900000040, 0, 0, 0] ∧ State.malformed (packetOf u) u.core.clim = false := by decide +kernel
theorem witness_FlightsAndSlotsGoOn_resume : let y := nx .yield running1
    let u := (y.setSlot 16 0 (.drawn (.instar 0 0 9) 0)).focus 16 0
    u.live = false ∧ u.workWaits u.coreNo u.running = false ∧ (u.getInstar { owner := u.owner, die := 0, slot := 0 }).map (·.why) = some 1 ∧
      (match (u.peekWork u.owner u.coreNo u.running (State.workVa 0 0)).1 with | .good => true | _ => false) = true := by decide +kernel
theorem witness_FlightsAndSlotsGoOn_end : let z := nx .halt running1
    (z.flights.list.find? (fun f => f.num == 9)).map (fun f => (State.placedNow f, z.remains f)) = some (true, false) := by decide +kernel
/-- The flight with a yield deadline in the past, and at its switch. -/
def late1 : State := { placed1 with flights := { placed1.flights with list := placed1.flights.list.map (fun f => { f with ydl := 5, deadline := 5 }) }, time := 6 }
def stopped1 : State := { placed1 with flights := { placed1.flights with list := placed1.flights.list.map (fun f => { f with state := .switching, switchAt := some 0 }) } }
theorem witness_FlightsAndSlotsGoOn_deadline : (late1.flights.list.find? (fun f => f.num == 9)).map (fun f => (f.state == .placed, f.ydl != 0, decide (f.deadline < late1.time))) = some (true, true, true) := by decide +kernel
theorem witness_FlightsAndSlotsGoOn_stop : (stopped1.flights.list.find? (fun f => f.num == 9)).map stopped1.stopped = some true := by decide +kernel
theorem witness_FlightsAndSlotsGoOn_saved : let s := stopped1.gangStop 9
    (s.flights.list.find? (fun f => f.num == 9)).map (fun f =>
      let v := f.groups.flatten.foldl (fun (v : State) c => v.drainCore c) s
      (s.stopped f, f.groups, f.groups.flatten.all v.coreQuiet && v.gangStored f, match (v.gangPages f .write (State.pagesOf f .write) f.cocoons).1 with | some r => decide (r.2 = []) | none => false)) = some (true, [[16]], true, true) := by decide +kernel

def word7 : NetWord := { core := 3, txport := 1, kind := 0, unit := 7, town := 1, port := 3, value := 0x55, closing := true, spilled := 0 }
def faulty : FaultEntry := { FaultEntry.fresh with valid := true, gen := 511 }
def combined : State := { nx (.fstD 7 6 0) (xr mp [(6, 0x80000040), (7, 99)]) with cycle := 32 }
def load : Access := { kind := .load 3, owner := 1, space := 1, core := 0, va := 0x80000000, size := 8, data := 0, cmp := 0, bytes := [], dreg := 5, flight := 0, evid := none }

theorem witness_MemoryAndEngineEventsGoOn_message : let s : State := { mp with net := [word7] }
    s.net = [word7] ∧ word7.unit < 16384 ∧ s.coreOwner word7.unit = word7.town ∧ (s.spillFor word7 word7.unit).isNone = true ∧ (s.getEntry (State.entryOfCore word7.unit)).scrub = false ∧ ((s.getCore word7.unit).rx.toList.getD word7.port []).length < 16 := by decide +kernel
theorem witness_MemoryAndEngineEventsGoOn_reply : let s := mp.setFaultPage 2 ((mp.faultPage 2).set 63 faulty)
    let v := s.setFaultPage 2 ((s.faultPage 2).modify 63 (fun e => { e with reply := 5 }))
    (2 : Nat) < 2 ^ 20 ∧ (v.faultPage 2).getD (63 % 64) FaultEntry.fresh = { faulty with reply := 5 } ∧ faulty.valid = true ∧ faulty.waiters = [] ∧ wbits (BitVec.ofNat 64 ((63 * 512 + 511) * 2 ^ 48)) 62 48 = 63 % 64 * 512 + faulty.gen ∧ (mp.faultPage 2).getD 0 FaultEntry.fresh = FaultEntry.fresh := by decide +kernel
theorem witness_MemoryAndEngineEventsGoOn_drain : let u := combined.focus 0 0
    (u.core.combining.find? (fun e => decide (e.opened + 32 ≤ u.cycle))).map (fun e => (e.va, match (u.drainEntry u.coreNo e).1 with | .ok _ => true | .error _ => false)) = some (0x80000030, true) := by decide +kernel
theorem witness_MemoryAndEngineEventsGoOn_arrive : let s : State := { mp with inflight := [flying] }
    s.inflight = [flying] ∧ s.hostHolds flying.key = none ∧ s.scrubbing flying.key = false ∧ (s.harvestOf flying).isNone = true ∧ s.lineHeld flying.key = false ∧ s.matHoldsKey flying.key (State.reach flying.bytes) true = false ∧ s.time ≤ flying.stop + s.clock.skb := by decide +kernel
theorem witness_MemoryAndEngineEventsGoOn_visible : let a : Arrived := { key := 0x400040, bytes := [(0, 5)], tag := none, wake := false, vis := 3, core := 0, slot := 0 }
    let s : State := { mp with arrived := [a], time := 3 }
    s.arrived = [a] ∧ a.vis ≤ s.time ∧ a.wake = false ∧ a.tag = none ∧ s.due = [] := by decide +kernel
theorem witness_MemoryAndEngineEventsGoOn_waits : let w (x : Wait) : State := State.focus { mp with ctx := { mp.ctx with wait := x } } 0 0
    (w (.far load)).live = true ∧ (w (.far load)).ctx.wait = .far load ∧ (w (.response load 1 2)).ctx.wait = .response load 1 2 ∧ (w (.mwait 3 (some 0))).ctx.wait = .mwait 3 (some 0) ∧ 0 ≤ (w (.mwait 3 (some 0))).time := by decide +kernel
theorem witness_MemoryAndEngineEventsGoOn_loads : let o := outLoad mp
    let w (l : List Outstanding) : State := State.focus { mp with ctx := { mp.ctx with loads := l } } 0 0
    (w [o]).live = true ∧ (w [o]).ctx.wait = .ready ∧ (w [o]).ctx.loads[0]? = some o ∧ (match ((w [o]).perform ((w [o]).served o.acc)).1 with | .value _ _ => true | _ => false) = true ∧
      (w [o, { o with got := some (.value 5 0) }]).ctx.loads[1]? = some { o with got := some (.value 5 0) } := by decide +kernel
theorem witness_MemoryAndEngineEventsGoOn_log : let s := mp.setIface 15 { mp.getIface 15 with dirty := List.replicate 2048 (1, 0, 0) }
    (15 : Nat) < 16 ∧ 2048 ≤ (s.getIface 15).dirty.length := by decide +kernel
/-- A store to the harvest word of agent 0's log page, whose owner's entries are all merged. -/
theorem witness_MemoryAndEngineEventsGoOn_harvest : let s : State := { up with harvest := [(0, 1)], inflight := [{ flying with va := 0x1FE001000000000, bytes := [(24, 1)] }] }
    (s.inflight.findSome? (fun f => (s.harvestOf f).map (fun a => (a, f)))).map (fun p => (p.1, (State.agentIfaces p.1).any (fun i => (s.getIface i).dirty.any (fun e => e.1 == p.2.owner)))) = some (0, false) ∧ s.arrived = [] ∧ (∀ x ∈ s.inflight, x.core ≠ State.deviceCore) ∧ s.arg.e = 0 := by decide +kernel
/-- An evaluator has been parked for 1 ms on a cell that is still being evaluated. -/
def stalled : State := let k : Key := { owner := 1, die := 0, slot := 0 }
  { (mp.setTag 0x400008 3).setInstar k { mp.mkInstar 2 5 0 true mp.ctx.pc with state := .parked 0x400008 0, evc := 0x8000000000000001 } with time := 1000000 }
theorem witness_MemoryAndEngineEventsGoOn_watchdog :
    (∀ p ∈ stalled.instars, (State.linkCell p.2).map stalled.hostHolds = some none) ∧ (stalled.instars.find? (fun p => wbits p.2.evc 63 63 == 1 && match p.2.state with | .parked c since => stalled.tagAt c == 3 && decide (since + 1000000 ≤ stalled.time) | _ => false)).isSome = true := by decide +kernel
def copying (c : CopyCmd) : State := { mp with core := { mp.core with copyq := [c] } }
theorem witness_MemoryAndEngineEventsGoOn_engine : let c : CopyCmd := { CopyCmd.blank with res := some 0, owner := 1 }
    (copying c).engineQueue 0 = [c] ∧ c.res = some 0 ∧ c.visible ≤ (copying c).time ∧ (copying c).arrived = [] ∧ c.cell = 0 ∧ ((copying c).engineRelease 0 c 0).engineQueue 0 = [] := by decide +kernel
theorem witness_MemoryAndEngineEventsGoOn_lease : let c : CopyCmd := { CopyCmd.blank with started := true, owner := 1, src := 0x80000000, pages := [(0x80000, false, { page 0x80000000 0x200000 0x400000 false with stop := 0 })] }
    (copying c).engineQueue 0 = c :: [] ∧ c.res = none ∧ (c.pages.find? (fun e => decide (e.2.2.stop ≤ (copying c).time))).isSome = true ∧
      (match ((copying c).enginePage 0 c (0x80000 * 4096) false false).1 with | .ok _ => true | .error _ => false) = true := by decide +kernel
theorem witness_MemoryAndEngineEventsGoOn_split : let s : State := { mp with core := { mp.core with splitChange := some (3, 15, 0) } }
    (s.getCore 0).splitChange = some (3, 15, 0) ∧ s.splitClear 0 = true ∧ (s.getCore 0).combining = [] := by decide +kernel

/-! ## Witnesses of forms that need another package, an engine's command or a tile -/

/-- Registers: an address, a value, and targets of another owner here, of package 3, and of a package with no route. -/
def targets : State := xr ported [(6, 0x80000040), (7, 77), (8, 2), (9, 3 * 2 ^ 48), (10, 4 * 2 ^ 48)]
/-- The same where O1 holds no port share. -/
def unshared : State := { targets with entries := (List.range 16).map (fun i => (State.entryKey 7 (5 * 16 + i), { Entry.boot with holder := 2 })) ++ targets.entries }

theorem witness_FarLoadsReturn_remote : targets.hasGrant targets.owner 5 = true ∧ (0x80000040 : Nat) % 16 = 0 ∧ State.targetPkg (targets.rx 9) = 3 ∧ 3 ≠ targets.pkgNum ∧
    targets.usablePorts targets.owner 3 = [5] ∧ targets.edgeHolds targets.owner 3 = false ∧ targets.freeRid (State.requestDie targets.coreNo) targets.coreNo = some 0 := by decide +kernel
theorem witness_FarStoresEnterCombining_remote : CanSend targets 3 0 ∧ State.targetPkg (targets.rx 9) = 3 := by
  have h : targets.usablePorts targets.owner 3 = [5] := by decide +kernel
  exact ⟨⟨by simp [h], by decide +kernel, by decide +kernel⟩, by decide +kernel⟩
theorem witness_AtomicsReturnOldAndWrite_remote : Quiet targets ∧ targets.hasGrant targets.owner 5 = true ∧ State.targetPkg (targets.rx (8 + 1)) ≠ targets.pkgNum ∧ (atomicOps[0]?).isSome = true := by decide +kernel
theorem witness_AtomicsReturnOldAndWrite_scope : ungranted.hasGrant ungranted.owner 5 = false := by decide +kernel
/-- Each refusal at the issuing side: another owner here, no route, no share. -/
theorem witness_FarLoadsReturn_refused : EdgeRefuses targets (targets.rx 8) 2 ∧ EdgeRefuses targets (targets.rx 10) 6 ∧ EdgeRefuses unshared (unshared.rx 9) 7 :=
  ⟨.inl (by decide +kernel), .inr ⟨by decide +kernel, .inl (by decide +kernel)⟩, .inr ⟨by decide +kernel, .inr (by decide +kernel)⟩⟩
/-- The owner has a request under way on ports other than its present ones (R72). -/
theorem witness_FarLoadsReturn_held : let s : State := { targets with fabric := { targets.fabric with requests := [{ request with dpkg := 3, via := [5, 6] }] } }
    s.usablePorts s.owner 3 = [5] ∧ s.edgeHolds s.owner 3 = true := by decide +kernel

/-- Translations in use for reading one page and writing another. -/
def moves : List (Nat × Bool × Trans) := [(0x80000, false, page 0x80000000 0x200000 0x400000 false), (0x80001, true, page 0x80000000 0x200000 0x400000 false)]
/-- A command of 24 bytes from 0x80000040, or for a push from local 0x1000, to 0x80001000. -/
def moveCmd (kind : Nat) : CopyCmd :=
  { CopyCmd.blank with kind := kind, dst := 0x80001000, src := if kind = 1 then 0x1000 else 0x80000040, rows := 1, rowb := 24, sstride := 24, dstride := 24, index := [0],
                       sums := if kind = 3 then List.replicate 6 0 else [], started := true, owner := 1, pages := moves }
def moving (s : State) (c : CopyCmd) : State := { s with core := { s.core with copyq := [c] } }
def isAt (m : Meets) (k : Nat) : Bool := match m with | .at n => n == k | _ => false
/-- The hypotheses on the spot that is read, and on the spot that is written. -/
def readable (s : State) (u : Nat) (c : CopyCmd) : Bool :=
  let r := s.engineSpot u c 0x80000040 24 false
  isAt r.1 0x400040 && (r.2.2.hostOwnsRun 0x400040 24).isNone && (r.2.2.sourceStop 0x400040 24 false true).isNone && r.2.1 == { c with pages := r.2.1.pages } && r.2.2.engineQueue u != []
def writable (s : State) (u : Nat) (c : CopyCmd) : Bool :=
  let r := s.engineSpot u c 0x80001000 24 true
  isAt r.1 0x401000 && r.2.2.pageAsks r.2.1 0x80001000 0x401000 == [] && (r.2.2.destStop 0x401000 24 false).isNone && r.2.2.arrived == [] && storage 0x401000 == .hbm && r.2.2.engineQueue u != [] && r.2.1 == { c with pages := r.2.1.pages }

theorem witness_CopiesAreQueuedAndCounted_moves : let c := moveCmd 0
    let s := moving mp c
    Performing s 0 c ∧ c.row < c.rows ∧ readable s 0 c = true ∧ writable (s.engineSpot 0 c 0x80000040 24 false).2.2 0 c = true ∧ ({ c with row := 1 } : CopyCmd).rows ≤ 1 := by decide +kernel
theorem witness_MemoryCoreCommandsAnswer_moves : let n := 16384
    let s (c : CopyCmd) : State := moving (mapped upm) c
    let full : CopyCmd := { moveCmd 2 with sums := List.replicate 24 7 }
    let pooled : CopyCmd := { moveCmd 3 with row := 1 }
    isMc n = true ∧ Performing (s (moveCmd 1)) n (moveCmd 1) ∧ Performing (s (moveCmd 2)) n (moveCmd 2) ∧ Performing (s full) n full ∧ Performing (s (moveCmd 3)) n (moveCmd 3) ∧ Performing (s pooled) n pooled := by decide +kernel
theorem witness_MemoryCoreCommandsAnswer_spots : let n := 16384
    let s (c : CopyCmd) : State := moving (mapped upm) c
    let full : CopyCmd := { moveCmd 2 with sums := List.replicate 24 7 }
    let pooled : CopyCmd := { moveCmd 3 with row := 1 }
    writable (s (moveCmd 1)) n (moveCmd 1) = true ∧ (State.hostOwnsRun (s (moveCmd 1)) (sramKey n 0x1000) 24).isNone = true ∧ (State.sourceStop (s (moveCmd 1)) (sramKey n 0x1000) 24 false true).isNone = true ∧
      readable (s (moveCmd 2)) n (moveCmd 2) = true ∧ writable (s full) n full = true ∧ full.rowb ≤ full.sums.length ∧ readable (s (moveCmd 3)) n (moveCmd 3) = true ∧ writable (s pooled) n pooled = true ∧ pooled.row = pooled.rows := by decide +kernel

/-- An MLDW at the start of its lease, its bank out of refresh. -/
theorem witness_MatrixCommandsActInPlace_weights : let m : MatCmd := { matCmd 3 0 false with addr := 2 ^ 40 + 3 * 67108864, stop := 1000 }
    let s : State := { queued m with sealedExt := [3], time := 5000 }
    State.nextMat (s.getCore 0).matq = some ([], m, []) ∧ State.matClear (s.getCore 0).matq = true ∧ s.enginesHalt 0 = false ∧ m.recheck = false ∧
      ({ s with time := 1000 } : State).time ≤ m.stop + s.clock.skb ∧ s.weightRefusal 0 m.addr = none ∧ s.scrubbing m.addr = false ∧ s.bankFree m.addr 200 = true := by decide +kernel
theorem witness_MatrixCommandsActInPlace_store : let m : MatCmd := { matCmd 6 4 true with addr := 0x1000 }
    ((queued m).getCore 0).matq.find? (fun m => m.started) = some m ∧ m.fmt ∈ [0, 1, 2, 3, 4, 6, 7] ∧ m.addr % 64 = 0 ∧ (matCmd 4 4 true).fmt ≤ 6 := by decide +kernel

theorem witness_PortOperandsAreTaken_send : dst.destBad (dst.ctx.pdest.toList.getD 1 0) false = false ∧ wbits (dst.ctx.pdest.toList.getD 1 0) 60 48 = dst.pkgNum ∧ dst.canPut 29 = true ∧ (4095 : Nat) < 4096 ∧ (1048575 : Nat) < 2 ^ 20 ∧ (2047 : Nat) < 2 ^ 11 := by decide +kernel
theorem witness_PortOperandsAreTaken_room : let s : State := { dst with core := { dst.core with tx := dst.core.tx.setIfInBounds 0 16 } }
    State.portMask [5, 6] = 0 ∧ s.canPut 28 = false := by decide +kernel
theorem witness_MemoryWritersKeepTheCanonicalForm_step : Memory.wf up.mem = true ∧ (match step up with | .next _ => true | _ => false) = true := by decide +kernel
theorem witness_VectorLoadsRead_format : 8 ≤ (st up 8).effFmt ∧ up.effFmt ≤ 7 ∧ (st up 8).ctx.wait = .ready := by decide +kernel
theorem witness_ComparisonsReductionsAndMasks_format : (st up 6).effFmt ≠ 0 ∧ (st up 6).effFmt ≠ 7 := by decide +kernel
end Sys2Proof.Tests
end

section
/-! PROOF. The error log's entries, and what log entries, arrivals, the device's own writes and its reports leave as it was: one lemma an operation. -/

namespace Sys2Proof.Machine.State

/-! ## What a fold of updates leaves as it was -/

/-- A part of the state that every update of a fold keeps is kept by the fold. -/
theorem foldl_keeps {α β : Type} (part : State → β) {f : State → α → State} (hf : ∀ s a, part (f s a) = part s) (l : List α) (s : State) : part (l.foldl f s) = part s := by
  induction l generalizing s with
  | nil => rfl
  | cons a l ih => exact (ih (f s a)).trans (hf s a)

/-! ## The error log: an entry is written, and nothing but the log, the sideband port's events and the answers changes (R87, R88) -/

/-- The entry that logEntry writes (R87). -/
def newEntry (s : State) (kind uclass unit : Nat) (addr detail : Word) : LogEntry :=
  { seq := s.log.next, kind := kind, uclass := uclass, unit := unit, time := if s.clock.on then s.time else 0, addr := addr, detail := detail }

/-- A state becomes another by the writing of an entry: the entry stands in the log, and beside log, sideband events and answers nothing changes. -/
def Writes (s : State) (e : LogEntry) (t : State) : Prop :=
  ∃ (l : ErrorLog) (d : Sideband) (o : List Output), t = { s with log := l, side := d, out := o } ∧ d.resetDue = s.side.resetDue ∧ e ∈ l.entries

section
variable {s t : State} {e : LogEntry} (h : s.Writes e t)
include h

theorem Writes.mem_entries : e ∈ t.log.entries := by
  obtain ⟨l, d, o, rfl, -, he⟩ := h
  exact he

theorem Writes.resetDue : t.side.resetDue = s.side.resetDue := by
  obtain ⟨l, d, o, rfl, hd, -⟩ := h
  exact hd

theorem Writes.mem : t.mem = s.mem := by
  obtain ⟨l, d, o, rfl, -⟩ := h
  rfl

theorem Writes.host : t.host = s.host := by
  obtain ⟨l, d, o, rfl, -⟩ := h
  rfl

theorem Writes.owners : t.owners = s.owners := by
  obtain ⟨l, d, o, rfl, -⟩ := h
  rfl

theorem Writes.poison : t.poison = s.poison := by
  obtain ⟨l, d, o, rfl, -⟩ := h
  rfl

theorem Writes.tagAt (k : Nat) : t.tagAt k = s.tagAt k := by
  obtain ⟨l, d, o, rfl, -⟩ := h
  rfl

end

/-- An entry is written, and stands in the log even where the loss of an event is logged after it (R82). -/
theorem writes_logEntry (s : State) (kind uclass unit : Nat) (addr detail : Word) :
    s.Writes (s.newEntry kind uclass unit addr detail) (s.logEntry kind uclass unit addr detail) := by
  have pushed : s.newEntry kind uclass unit addr detail ∈ (s.pushLog kind uclass unit addr detail).log.entries := by simp [pushLog, newEntry]
  have lost (d : Word) : s.newEntry kind uclass unit addr detail ∈ ((s.pushLog kind uclass unit addr detail).pushLog 10 7 0 0 d).log.entries := by simp [pushLog, newEntry]
  unfold logEntry
  extract_lets u
  split
  · extract_lets n v
    split
    · split
      · exact ⟨_, _, _, rfl, rfl, lost _⟩
      · exact ⟨_, _, _, rfl, rfl, pushed⟩
    · exact ⟨_, _, _, rfl, rfl, pushed⟩
  · exact ⟨_, _, _, rfl, rfl, pushed⟩

/-! ## What the device's own writes, reports and answers leave as it was -/

/-- The cores with their contexts, time, boot, power, flash, gating and the entries of the ownership map: no log entry, arrival, message to another package or report touches them. -/
def steady (s : State) : (Nat × Nat × Bool × Ctx × Core × SMap Core) × (Nat × Clock) × (Boot × Power × Flash × List Gate) × SMap Entry × Nat :=
  ((s.coreNo, s.running, s.live, s.ctx, s.core, s.cores), (s.time, s.clock), (s.boot, s.power, s.flash, s.gating), s.entries, s.estate)

theorem clock_of_steady {s t : State} (h : t.steady = s.steady) : t.clock = s.clock := congrArg (·.2.1.2) h
theorem boot_of_steady {s t : State} (h : t.steady = s.steady) : t.boot = s.boot := congrArg (·.2.2.1.1) h
theorem entries_of_steady {s t : State} (h : t.steady = s.steady) : t.entries = s.entries := congrArg (·.2.2.2.1) h
theorem estate_of_steady {s t : State} (h : t.steady = s.steady) : t.estate = s.estate := congrArg (·.2.2.2.2) h

/-- Where an operation answers a value and a state, what the state keeps is read off the pair. -/
theorem steady_of_pair {α : Type} {r : α × State} {a : α} {s t : State} (h : r = (a, t)) (hr : r.2.steady = s.steady) : t.steady = s.steady := by
  rwa [h] at hr

theorem steady_logEntry (s : State) (kind uclass unit : Nat) (addr detail : Word) : (s.logEntry kind uclass unit addr detail).steady = s.steady := by
  obtain ⟨l, d, o, h, -⟩ := s.writes_logEntry kind uclass unit addr detail
  rw [h]
  rfl

theorem steady_logTo (s : State) (core town owner va k c : Nat) : (s.logTo core town owner va k c).steady = s.steady := by
  unfold logTo
  split
  · rfl
  · exact steady_logEntry _ _ _ _ _ _

/-! ### Memory and translation -/

theorem steady_setTag (s : State) (k : Nat) (t : BitVec 2) : (s.setTag k t).steady = s.steady := by
  unfold setTag
  split <;> rfl

theorem steady_setBytes (bs : List Byte) (s : State) (k : Nat) : (s.setBytes k bs).steady = s.steady := by
  induction bs generalizing s k with
  | nil => rfl
  | cons b bs ih => exact ih (s.setByte k b) (k + 1)

theorem steady_setOffsets (es : List (Nat × Byte)) (s : State) (k : Nat) : (s.setOffsets k es).steady = s.steady := by
  induction es generalizing s with
  | nil => rfl
  | cons e es ih => exact ih (s.setByte (k + e.1) e.2)

theorem steady_askHost (s : State) (port line : Nat) (inv : Bool) : (s.askHost port line inv).steady = s.steady := by
  unfold askHost
  split <;> rfl

theorem steady_askOwner (s : State) (k : Nat) : (s.askOwner k).steady = s.steady := by
  unfold askOwner
  split
  · exact steady_askHost _ _ _ _
  · rfl

theorem steady_logWalk (s : State) (owner va : Nat) (e : Service) : (s.logWalk owner va e).steady = s.steady := by
  unfold logWalk
  split
  · rfl
  · exact steady_logEntry _ _ _ _ _ _

theorem steady_logOnce (s : State) (owner va : Nat) (e : Service) : (s.logOnce owner va e).steady = s.steady := by
  unfold logOnce
  split
  · rfl
  · exact steady_logWalk _ _ _ _

theorem steady_lookUp (s : State) (iface owner va : Nat) (need : Need) : (s.lookUp iface owner va need).2.steady = s.steady := by
  unfold lookUp
  extract_lets i root r u j
  have hu : u.steady = s.steady := by
    unfold u
    split <;> rfl
  split
  · rfl
  · split
    · rfl
    · split
      · rfl
      · split
        · dsimp only
          split
          · exact (steady_askOwner _ _).trans hu
          · exact hu
        · dsimp only
          split <;> exact hu

theorem steady_devicePlace (s : State) (iface owner va : Nat) : (s.devicePlace iface owner va).2.steady = s.steady := by
  unfold devicePlace
  dsimp only
  split
  · exact (steady_logOnce _ _ _ _).trans (steady_lookUp _ _ _ _ _)
  · exact steady_lookUp _ _ _ _ _

/-! ### The L2s -/

theorem steady_l2Evict (s : State) (e : L2Line) : (s.l2Evict e).steady = s.steady := by
  unfold l2Evict
  dsimp only
  split <;> rfl

theorem steady_l2Put (s : State) (e : L2Line) : (s.l2Put e).steady = s.steady := by
  unfold l2Put
  extract_lets mine u
  have hu : u.steady = s.steady := by
    unfold u
    split
    · exact steady_l2Evict _ _
    · rfl
  exact hu

theorem steady_markLine (s : State) (core k : Nat) (nonval : Bool) : (s.markLine core k nonval).steady = s.steady := by
  unfold markLine
  extract_lets line b keep u
  have hu : u.steady = s.steady := by
    unfold u
    split <;> rfl
  clear_value b u
  split
  · rfl
  · split
    · exact hu
    · extract_lets hit
      split
      · exact hu
      · exact (steady_l2Put _ _).trans hu

/-! ### Records of instars and the ready rings -/

theorem steady_deviceStore (s : State) (owner : Nat) (ws : List (Dest × Word)) : (s.deviceStore owner ws).steady = s.steady := by
  unfold deviceStore
  split
  · rfl
  · exact foldl_keeps steady (fun s e => steady_setBytes _ s _) ws s

theorem steady_writeImage (s : State) (iface : Nat) (k : Key) : (s.writeImage iface k).steady = s.steady := by
  have hw : (s.workPa iface k).2.steady = s.steady := steady_devicePlace _ _ _ _
  unfold writeImage
  split
  next hp =>
    dsimp only
    split
    · exact (steady_deviceStore _ _ _).trans (steady_of_pair hp hw)
    · exact (steady_logTo _ _ _ _ _ _ _).trans (steady_of_pair hp hw)
  next hp =>
    have hu := steady_of_pair hp hw
    split <;> exact hu
  next hp => exact steady_of_pair hp hw

theorem steady_placeOne (s : State) (owner die prio : Nat) : (s.placeOne owner die prio).2.2.steady = s.steady := by
  unfold placeOne
  dsimp only
  split
  · split
    next hp => exact steady_of_pair hp (steady_devicePlace _ _ _ _)
    next hp =>
      have hw := steady_of_pair hp (steady_devicePlace _ _ _ _)
      dsimp only
      split
      · exact (steady_deviceStore _ _ _).trans hw
      · exact (steady_logTo _ _ _ _ _ _ _).trans hw
  · rfl

theorem steady_readyInstar (s : State) (k : Key) (i : Instar) : (s.readyInstar k i).steady = s.steady := by
  unfold readyInstar
  dsimp only
  split
  · rfl
  · exact steady_placeOne _ _ _ _

theorem steady_readyImage (s : State) (k : Key) (i : Instar) : (s.readyImage k i).steady = s.steady :=
  (steady_writeImage _ _ _).trans (steady_readyInstar _ _ _)

/-! ### Transactions that leave -/

theorem steady_emit (s : State) (p since : Nat) (t : Txn) : (s.emit p since t).steady = s.steady := by
  unfold emit
  dsimp only
  split <;> rfl

theorem steady_sendFree (s : State) (pkg key : Nat) (t : Txn) : (s.sendFree pkg key t).steady = s.steady := by
  unfold sendFree
  dsimp only
  split
  · exact steady_emit _ _ _ _
  · rfl

theorem steady_wakeList (v : Word) (n : Nat) (s : State) (k : Option Key) : (s.wakeList v n k).steady = s.steady := by
  induction n generalizing s k with
  | zero => rfl
  | succ n ih =>
    cases k with
    | none => rfl
    | some k =>
      unfold wakeList
      split
      · rfl
      · split
        · exact (ih _ _).trans (steady_sendFree _ _ _ _)
        · exact (ih _ _).trans (steady_readyImage _ _ _)

/-! ### Arrivals and the device's own writes -/

theorem steady_applyArrived (s : State) (a : Arrived) : (s.applyArrived a).steady = s.steady := by
  unfold applyArrived
  extract_lets w t u v x
  have hu : u.steady = s.steady := steady_setOffsets _ _ _
  have hv : v.steady = s.steady := by
    unfold v
    split
    · exact (steady_setTag _ _ _).trans hu
    · exact hu
  have hx : x.steady = s.steady := (steady_wakeList _ _ _ _).trans hv
  split
  · split <;> exact hx
  · exact hv

theorem steady_settleList (as : List Arrived) (s : State) : (s.settleList as).steady = s.steady := by
  induction as generalizing s with
  | nil => rfl
  | cons a as ih =>
    unfold settleList
    split
    · exact (ih _).trans (steady_applyArrived _ _)
    · exact ih _

theorem steady_flushDue (s : State) : s.flushDue.steady = s.steady := by
  unfold flushDue
  refine (foldl_keeps steady (fun s d => ?_) _ _).trans rfl
  split
  · exact steady_sendFree _ _ _ _
  · rfl

theorem steady_settle (s : State) : s.settle.steady = s.steady :=
  (steady_flushDue _).trans (steady_settleList _ _)

theorem steady_arriveFor (s : State) (b : By) (v0 k : Nat) (bs : List (Nat × Byte)) (tag : Option (BitVec 2)) (wake : Bool) :
    (s.arriveFor b v0 k bs tag wake).steady = s.steady :=
  (steady_settle _).trans (steady_markLine _ _ _ _)

theorem steady_arriveSeq (core : Nat) (l : List (Dest × Word)) (s : State) (v : Nat) : (s.arriveSeq core l v).2.steady = s.steady := by
  induction l generalizing s v with
  | nil => rfl
  | cons e l ih => exact (ih _ _).trans (steady_arriveFor _ _ _ _ _ _ _)

theorem steady_deviceSeq (s : State) (core owner : Nat) (l : List (Dest × Word)) : (s.deviceSeq core owner l).steady = s.steady := by
  unfold deviceSeq
  split
  · rfl
  · exact steady_arriveSeq _ _ _ _

/-! ### Reports (R182, R184) -/

theorem steady_trapWord (s : State) (iface o va : Nat) : (s.trapWord iface o va).2.steady = s.steady := by
  unfold trapWord
  split
  next hp => exact steady_of_pair hp (steady_devicePlace _ _ _ _)
  next hp =>
    have hd := steady_of_pair hp (steady_devicePlace _ _ _ _)
    dsimp only
    split
    · exact (steady_logTo _ _ _ _ _ _ _).trans hd
    · split
      · exact hd
      · split
        · exact (steady_askHost _ _ _ _).trans hd
        · exact hd

theorem steady_trapSlot (s : State) (iface o : Nat) : (s.trapSlot iface o).2.steady = s.steady := by
  unfold trapSlot
  extract_lets r full
  split
  · rfl
  · split
    next hp => exact steady_of_pair hp (steady_trapWord _ _ _ _)
    next hp =>
      have hh := steady_of_pair hp (steady_trapWord _ _ _ _)
      extract_lets prod
      split
      · exact hh
      · split
        next hq => exact (steady_of_pair hq (steady_trapWord _ _ _ _)).trans hh
        next hq => exact (steady_of_pair hq (steady_trapWord _ _ _ _)).trans hh

theorem steady_dropReport (s : State) (o : Nat) : (s.dropReport o).steady = s.steady := by
  unfold dropReport
  split
  · rfl
  · split
    next hp => exact (steady_deviceSeq _ _ _ _).trans (steady_of_pair hp (steady_trapWord _ _ _ _))
    next hp => exact steady_of_pair hp (steady_trapWord _ _ _ _)

/-- A report changes the memory it is written to and what that wakes, and nothing else. -/
theorem steady_report (s : State) (o cause : Nat) (addr detail : Word) : (s.report o cause addr detail).steady = s.steady := by
  have ht := s.steady_trapSlot (s.deviceIface o) o
  unfold report
  extract_lets t
  split
  · split
    next hp => exact (steady_deviceSeq _ _ _ _).trans (steady_of_pair hp ht)
    next hp =>
      have hu := steady_of_pair hp ht
      exact hu
    next hp => exact (steady_dropReport _ _).trans (steady_of_pair hp ht)
  · rfl

end Sys2Proof.Machine.State
end

section
/-! PROOF. The package's operations: what is lost with it, boot and bring-up, trip, power, throttling, gating, sync, soft errors and link configuration (R13 to R28, R37, R39, R46, R47, R52, R58, R89, R233). -/

namespace Sys2Proof.Machine.State

/-! ## Memory where the package loses it (log 2) -/

/-- What stands outside as a function of memory and of the host's dirty lines alone. -/
theorem outside_eq (s : State) : s.outside =
    SMap.clear (SMap.clear (s.host.dirty.foldl (fun m d => SMap.set 0 m d.1 d.2) s.mem) 0 (2 ^ 50)) (2 ^ 52) (2 ^ 60) :=
  congrArg (fun m => SMap.clear (SMap.clear m 0 (2 ^ 50)) (2 ^ 52) (2 ^ 60)) (List.foldl_hom State.mem (fun _ _ => rfl)).symm

theorem outside_congr {s t : State} (hm : t.mem = s.mem) (hh : t.host = s.host) : t.outside = s.outside := by
  rw [outside_eq, outside_eq, hm, hh]

/-- Memory inside the package reads zero once the package has lost it. -/
theorem byteAt_of_mem_eq_outside {s t : State} (h : t.mem = s.outside) {k : Nat} (hk : k < 2 ^ 50 ∨ (2 ^ 52 ≤ k ∧ k < 2 ^ 60)) : t.byteAt k = 0 := by
  rw [byteAt, h, outside_eq, SMap.get_clear, SMap.get_clear]
  rcases hk with hk | hk
  · rw [if_pos (show 0 ≤ k ∧ k < 2 ^ 50 from ⟨k.zero_le, hk⟩), ite_self]
  · rw [if_pos hk]

/-! ## Cold reset (R25, R27) -/

theorem coldReset_mem (s : State) : s.coldReset.mem = s.outside := by
  unfold coldReset
  dsimp only
  split <;> rfl

theorem coldReset_live (s : State) : s.coldReset.live = false := by
  unfold coldReset
  dsimp only
  split <;> rfl

theorem coldReset_log (s : State) : s.coldReset.log = { s.log with base := s.log.next } := by
  unfold coldReset
  dsimp only
  split <;> rfl

theorem coldReset_boots_first {s : State} (h : slotResult (s.slot s.firstSlot) = 1) :
    s.coldReset.boot.stage = 7 ∧ s.coldReset.boot.slot = s.firstSlot ∧ s.coldReset.boot.rescue = false ∧ s.coldReset.clock.on = true := by
  simp [coldReset, mainReset, State.reset, h]

theorem coldReset_boots_other {s : State} (hf : slotResult (s.slot s.firstSlot) ≠ 1) (hg : slotResult (s.slot (1 - s.firstSlot)) = 1) :
    s.coldReset.boot.stage = 7 ∧ s.coldReset.boot.slot = 1 - s.firstSlot ∧ s.coldReset.boot.rescue = false := by
  simp [coldReset, mainReset, State.reset, hf, hg]

theorem coldReset_rescues {s : State} (hf : slotResult (s.slot s.firstSlot) ≠ 1) (hg : slotResult (s.slot (1 - s.firstSlot)) ≠ 1) : s.coldReset.boot.rescue = true := by
  simp only [coldReset, hf, hg, if_false]

/-! ## Bring-up (R26, R39, R40, R71) -/

theorem steady_readRoutes (s : State) (n : Nat) (w : Word) : (s.readRoutes n w).steady = s.steady := by
  refine foldl_keeps steady (fun s i => ?_) _ s
  dsimp only
  split
  · rfl
  · split
    · exact steady_logEntry _ _ _ _ _ _
    · split <;> rfl

theorem steady_readGroup (s : State) (g : Nat) : (s.readGroup g).steady = s.steady := by
  unfold readGroup
  dsimp only
  split
  · exact steady_logEntry _ _ _ _ _ _
  · rfl

theorem steady_setPortState (s : State) (p : Nat) (q : Port) : (s.setPortState p q).steady = s.steady := by
  unfold setPortState
  split
  · rfl
  · exact steady_logEntry _ _ _ _ _ _

/-- Bring-up leaves the firmware in stage 5, and no entry of the map listed but all held by O1. -/
theorem bringUp_boot_map (s : State) : s.bringUp.boot = { s.boot with stage := 5 } ∧ s.bringUp.entries = [] ∧ s.bringUp.estate = 1 := by
  unfold bringUp
  extract_lets _ u _ x y
  have hy : y.boot = u.boot ∧ y.entries = u.entries ∧ y.estate = u.estate := by
    unfold y
    split
    · exact ⟨rfl, rfl, rfl⟩
    · have hx : x.steady = u.steady := foldl_keeps steady (fun s e => by split; exacts [steady_readRoutes s _ _, rfl]) _ _
      have h := (foldl_keeps steady steady_readGroup (List.range 256) x).trans hx
      exact ⟨boot_of_steady h, entries_of_steady h, estate_of_steady h⟩
  have h := foldl_keeps steady (fun s p => steady_setPortState s p { Port.fresh with state := 1 }) (List.range 144) y
  exact ⟨(boot_of_steady h).trans hy.1, (entries_of_steady h).trans hy.2.1, (estate_of_steady h).trans hy.2.2⟩

theorem holder_getEntry_bringUp (s : State) (k : Nat) : (s.bringUp.getEntry k).holder = 1 := by
  obtain ⟨-, he, hs⟩ := s.bringUp_boot_map
  simp only [getEntry, idleEntry, he, hs, SMap.get]

/-- A write of BOOTCTL with no reserved bit, no service cores named and GO not yet set is no violation (R39). -/
theorem writeBootctl_of_valid {s : State} {v : Word} (hgo : wbits s.boot.bootctl 63 63 = 0) (h61 : wbits v 61 40 = 0) (h31 : wbits v 31 13 = 0) (h39 : wbits v 39 32 = 0) :
    s.writeBootctl v = some (if wbits v 63 63 = 1 ∧ s.boot.stage = 7 then State.bringUp { s with boot := { s.boot with bootctl := v } } else { s with boot := { s.boot with bootctl := v } }) := by
  simp [writeBootctl, hgo, h61, h31, h39]

/-- While the firmware waits for GO, a host write to BOOTCTL reaches it. -/
theorem writeRegister_bootctl {s t : State} (port : Nat) {v : Word} (ht : s.boot.tripped = false) (hr : s.boot.rescue = false) (hs : s.boot.stage = 7) (h : s.writeBootctl v = some t) :
    s.writeRegister port 0 0x20 8 v = t := by
  simp [writeRegister, portReset, scrubbedQueue, writeAny, writeStatus, runs, ht, hr, hs, h]

theorem bootctl_stored {s : State} {v : Word} (port : Nat) (ht : s.boot.tripped = false) (hr : s.boot.rescue = false) (hs : s.boot.stage = 7)
    (hgo : wbits s.boot.bootctl 63 63 = 0) (h61 : wbits v 61 40 = 0) (h31 : wbits v 31 13 = 0) (h39 : wbits v 39 32 = 0) :
    let t := s.writeRegister port 0 0x20 8 v
    t.boot.bootctl = v ∧ (wbits v 63 63 = 1 → t.boot.stage = 5 ∧ ∀ k, (t.getEntry k).holder = 1) := by
  dsimp only
  rw [writeRegister_bootctl port ht hr hs (writeBootctl_of_valid hgo h61 h31 h39)]
  by_cases hv : wbits v 63 63 = 1
  · rw [if_pos ⟨hv, hs⟩, (bringUp_boot_map _).1]
    exact ⟨rfl, fun _ => ⟨rfl, holder_getEntry_bringUp _⟩⟩
  · rw [if_neg (fun h => hv h.1)]
    exact ⟨rfl, fun h => absurd h hv⟩

/-- DEVICE_READY in sync: stage 6, and the booted slot's active flag (step 5 of R26, R27). -/
theorem deviceReady_ready {s : State} (hr : s.runs = true) (hs : s.boot.stage = 5) (hc : s.clock.inSync = true) (hn : s.boot.slot < 2) :
    s.deviceReady.boot.stage = 6 ∧ (s.deviceReady.slot s.boot.slot).active = true := by
  rw [deviceReady, if_pos ⟨hr, hs, hc⟩]
  exact ⟨rfl, by simp [slot, hn]⟩

/-! ## The trip and the loss of power (R16, R46) -/

/-- A trip that no RESET waits for: its cause is in the log, and the package has lost its memory. -/
theorem trip_resets {s : State} (cause : Nat) (h : s.side.resetDue = false) :
    (s.trip cause).boot.tripped = true ∧ (s.trip cause).mem = s.outside ∧ (s.trip cause).live = false ∧ s.newEntry 4 7 0 0 (word cause) ∈ (s.trip cause).log.entries := by
  have hw := s.writes_logEntry 4 7 0 0 (word cause)
  have hd := hw.resetDue.trans h
  simp only [trip, hd, Bool.false_eq_true, false_and, if_false]
  exact ⟨trivial, outside_congr hw.mem hw.host, rfl, hw.mem_entries⟩

/-- A reading at a bound of R16 trips, and the junction is named where both are. -/
theorem thermalTrip_of_bound (s : State) {junction low : Nat} (h : 110 ≤ junction ∨ 10000 ≤ low) : s.thermalTrip junction low = s.trip (if 110 ≤ junction then 1 else 2) := by
  unfold thermalTrip
  split
  · rfl
  · rw [if_pos (h.resolve_left ‹_›)]

theorem thermalTrip_of_normal (s : State) {junction low : Nat} (hj : junction < 110) (hl : low < 10000) : s.thermalTrip junction low = s := by
  rw [thermalTrip, if_neg (by omega), if_neg (by omega)]

/-- Without a flash command under way the slots are what they were. -/
theorem powerLoss_slots {s : State} (cleared : Bool) (h : s.flash.engine = []) : (s.powerLoss cleared).flash.slots = s.flash.slots := by
  simp only [powerLoss, h]

/-! ## Sync (R20, R233) -/

/-- Reports leave the estimate of the offset, so that every owner is told the one of the loss. -/
theorem foldl_report_offset (l : List Nat) (s : State) {off : Word} (h : s.clock.offset = off) :
    l.foldl (fun s o => s.report o 0x47 0 s.clock.offset) s = l.foldl (fun s o => s.report o 0x47 0 off) s := by
  induction l generalizing s with
  | nil => simp only [List.foldl_nil]
  | cons o l ih =>
    have hc : (s.report o 0x47 0 off).clock.offset = off := by rw [clock_of_steady (steady_report s o 0x47 0 off), h]
    simp only [List.foldl_cons, h]
    exact ih _ hc

/-- The package out of sync, with its interfaces' caches empty and the loss logged. -/
def unsynced (s : State) : State :=
  State.logEntry { s with clock := { s.clock with inSync := false }, ifaces := s.ifaces.map (fun (e : Nat × Iface) => (e.1, { e.2 with leaf := [], walk := [] })) } 7 7 0 0 s.clock.offset

theorem unsynced_owners (s : State) : s.unsynced.owners = s.owners := (writes_logEntry _ _ _ _ _ _).owners

theorem unsynced_offset (s : State) : s.unsynced.clock.offset = s.clock.offset := by
  rw [unsynced, clock_of_steady (steady_logEntry _ _ _ _ _ _)]

theorem syncLoss_of_lost {s : State} (hc : s.clock.inSync = true) (hh : s.syncHolds = false) :
    s.syncLoss = (s.owners.map (·.1)).foldl (fun u o => u.report o 0x47 0 s.clock.offset) s.unsynced := by
  have h : s.clock.inSync = true ∧ ¬ s.syncHolds = true := ⟨hc, by simp [hh]⟩
  calc s.syncLoss = (s.unsynced.owners.map (·.1)).foldl (fun u o => u.report o 0x47 0 u.clock.offset) s.unsynced := by
        rw [syncLoss, if_pos h]
        rfl
    _ = (s.owners.map (·.1)).foldl (fun u o => u.report o 0x47 0 s.clock.offset) s.unsynced := by
        rw [unsynced_owners, foldl_report_offset _ _ s.unsynced_offset]

theorem syncRegained_of_holds {s : State} (hr : s.runs = true) (hc : s.clock.inSync = false) (hs : 5 ≤ s.boot.stage) (hh : s.syncHolds = true) :
    s.syncRegained = { s with clock := { s.clock with inSync := true } } :=
  if_pos ⟨hr, by simp [hc], hs, hh⟩

/-! ## Power and throttling (R13, R15, R17) -/

theorem setPower_of_runs {s : State} (h : s.runs = true) (p : Power) : s.setPower p = { s with power := p } := if_pos h

theorem coolantReading_of_bad {s : State} (hr : s.runs = true) {inlet flow ticks : Nat} (h : 400 < inlet ∨ flow < 20) (ht : 100000000 ≤ ticks) :
    s.coolantReading inlet flow ticks = { s with power := { s.power with coolant := true } } := by
  rw [coolantReading, if_pos ⟨h, ht⟩, setPower_of_runs hr]

theorem coolantReading_of_good (s : State) {inlet flow : Nat} (ticks : Nat) (hi : inlet ≤ 400) (hf : 20 ≤ flow) : s.coolantReading inlet flow ticks = s :=
  if_neg (by omega)

section
variable {s : State} (hr : s.runs = true) {t w : Nat}
include hr

/-- A reading at a bound of R15 raises a level below 3. -/
theorem raise_of_due (hk : s.power.ms < s.time / 1000000) (hl : s.power.level < 3) (hd : 95 ≤ t ∨ 4500 < w) :
    s.raise t w = { s with power := { s.power with tjmax := min t 255, ms := s.time / 1000000, warm := true, raised := s.time / 1000000, level := s.power.level + 1,
                                                   therm := s.power.therm || decide (95 ≤ t), powlim := s.power.powlim || decide (4500 < w) } } := by
  have due : (decide (95 ≤ t) || decide (4500 < w)) = true := by simpa using hd
  have warm : (s.power.warm || decide (90 ≤ t) || decide (4275 < w)) = true := by
    rcases hd with hd | hd
    · simp [show 90 ≤ t by omega]
    · simp [show 4275 < w by omega]
  rw [raise, if_neg (Nat.not_le.2 hk), setPower_of_runs hr]
  simp only [due, warm, hl, if_true, and_self]

/-- Another reading sets TJMAX, and whether it rules a lower out. -/
theorem raise_of_not_due (hk : s.power.ms < s.time / 1000000) (ht : t < 95) (hw : w ≤ 4500) :
    s.raise t w = { s with power := { s.power with tjmax := t, ms := s.time / 1000000, warm := s.power.warm || decide (90 ≤ t) || decide (4275 < w) } } := by
  have due : (decide (95 ≤ t) || decide (4500 < w)) = false := by simp [ht, hw]
  have tj : min t 255 = t := by omega
  rw [raise, if_neg (Nat.not_le.2 hk), setPower_of_runs hr]
  simp only [due, tj, Bool.false_eq_true, and_false, if_false]

theorem lower_of_calm (hk : s.power.ten < s.time / 10000000) (hm : 10 * (s.time / 10000000) ≤ s.power.ms)
    (ht : t < 90) (hw : w ≤ 4275) (hc : s.power.warm = false) (hn : s.power.raised < 10 * (s.time / 10000000)) :
    s.lower t w = { s with power := { s.power with ten := s.time / 10000000, warm := false, level := s.power.level - 1 } } := by
  have hd : ¬ (s.time / 10000000 ≤ s.power.ten ∨ s.power.ms < 10 * (s.time / 10000000)) := by omega
  rw [lower, if_neg hd, setPower_of_runs hr, if_pos ⟨ht, hw, hc, hn⟩]

theorem lower_of_not_calm (hk : s.power.ten < s.time / 10000000) (hm : 10 * (s.time / 10000000) ≤ s.power.ms)
    (h : 90 ≤ t ∨ 4275 < w ∨ s.power.warm = true ∨ 10 * (s.time / 10000000) ≤ s.power.raised) :
    s.lower t w = { s with power := { s.power with ten := s.time / 10000000, warm := false } } := by
  have hd : ¬ (s.time / 10000000 ≤ s.power.ten ∨ s.power.ms < 10 * (s.time / 10000000)) := by omega
  have hc : ¬ (t < 90 ∧ w ≤ 4275 ∧ s.power.warm = false ∧ s.power.raised < 10 * (s.time / 10000000)) := by
    rintro ⟨h1, h2, h3, h4⟩
    rcases h with h | h | h | h
    · omega
    · omega
    · simp [h3] at h
    · omega
  rw [lower, if_neg hd, setPower_of_runs hr, if_neg hc]

/-! ## Gating (R22 to R24) -/

theorem gateStart_quad {unit : Nat} (hm : s.mayGate false unit = true) (hg : s.gating = []) :
    s.gateStart false unit = { s with gating := [{ isDie := false, unit := unit, marked := false }] } := by
  simp [gateStart, hr, hm, hg]

end

theorem gating_setCore (s : State) (n : Nat) (c : Core) : (s.setCore n c).gating = s.gating := by
  unfold setCore
  split
  · split <;> rfl
  · rfl

/-- A quad whose sequence runs and that has no write on its way is marked. -/
theorem gating_gateMark_quad {s : State} {unit : Nat} (hg : ∃ g ∈ s.gating, g.isDie = false ∧ g.unit = unit ∧ g.marked = false) (hm : s.mayGate false unit = true)
    (hw : s.unitWrites (fun n => decide (n < 16384) && n / 4 == unit) = false) :
    (s.gateMark false unit).gating = s.gating.map (fun g => if g.isDie = false ∧ g.unit = unit then { g with marked := true } else g) := by
  have hs : s.gating.any (fun g => g.isDie == false && g.unit == unit && !g.marked) = true := by
    obtain ⟨g, hmem, h1, h2, h3⟩ := hg
    exact List.any_eq_true.2 ⟨g, hmem, by simp [h1, h2, h3]⟩
  simp only [gateMark, hs, hm, hw, Bool.false_eq_true, if_false, not_true_eq_false, false_and, or_self]
  refine (foldl_keeps State.gating (fun s n => ?_) _ _).trans rfl
  split
  · rfl
  · exact gating_setCore _ _ _

theorem wakeUnit_gating_die (s : State) (unit : Nat) : ∀ g ∈ (s.wakeUnit true unit).gating, ¬ (g.isDie = true ∧ g.unit = unit) := by
  rintro g hg ⟨hd, hu⟩
  simp [wakeUnit, hd, hu] at hg

/-! ## Soft errors (R89) -/

theorem softError_data (s : State) (k uclass unit n : Nat) :
    let t := s.softError k 1 uclass unit n
    k / 8 ∈ t.poison ∧ t.mem = s.mem ∧ ∃ e ∈ t.log.entries, e.kind = 6 ∧ e.addr = BitVec.ofNat 64 (logAddr k) := by
  have hw := writes_logEntry { s with poison := if s.poison.contains (k / 8) then s.poison else k / 8 :: s.poison } 6 uclass unit (word (logAddr k)) 0
  have hp : (s.softError k 1 uclass unit n).poison = if s.poison.contains (k / 8) then s.poison else k / 8 :: s.poison := hw.poison
  refine ⟨?_, hw.mem, _, hw.mem_entries, rfl, rfl⟩
  rw [hp]
  split
  next h => exact List.contains_iff_mem.1 h
  · exact List.mem_cons_self

theorem mem_setTag (s : State) (k : Nat) (t : BitVec 2) : (s.setTag k t).mem = s.mem := by
  unfold setTag
  split <;> rfl

theorem tagAt_setTag_zero (s : State) (k : Nat) : (s.setTag k 0).tagAt k = 0 := by
  by_cases h : tagged k
  · simp [setTag, tagAt, h, SMap.get_set]
  · simp [tagAt, h]

theorem mem_freeEvals (s : State) (p : Eval → Bool) : (s.freeEvals p).mem = s.mem := by
  unfold freeEvals
  dsimp only
  split <;> rfl

theorem tagAt_freeEvals (s : State) (p : Eval → Bool) (k : Nat) : (s.freeEvals p).tagAt k = s.tagAt k := by
  unfold freeEvals
  dsimp only
  split <;> rfl

theorem softError_tag (s : State) (k uclass unit n : Nat) : (s.softError k 2 uclass unit n).tagAt k = 0 ∧ (s.softError k 2 uclass unit n).mem = s.mem := by
  have hw := writes_logEntry ((s.setTag k 0).freeEvals (fun e => e.cell / 8 == k / 8)) 6 uclass unit (word (logAddr k)) 1
  constructor
  · calc (s.softError k 2 uclass unit n).tagAt k = ((s.setTag k 0).freeEvals (fun e => e.cell / 8 == k / 8)).tagAt k := hw.tagAt k
      _ = 0 := by rw [tagAt_freeEvals, tagAt_setTag_zero]
  · calc (s.softError k 2 uclass unit n).mem = ((s.setTag k 0).freeEvals (fun e => e.cell / 8 == k / 8)).mem := hw.mem
      _ = s.mem := by rw [mem_freeEvals, mem_setTag]

/-! ## Configuration of a CXL link (R37, R52, R58) -/

theorem cxlLink_setLink (s : State) {p : Nat} (hp : p < 2) (l : Link) : (s.setLink p l).cxlLink p = l := by
  simp [setLink, cxlLink, hp]

theorem cxlLink_configWrite (s : State) {port : Nat} (hp : port < 2) (ats pri : Bool) (alloc : Nat) :
    (s.configWrite port ats pri alloc).cxlLink port =
      { s.cxlLink port with ats := ats, pri := pri, alloc := alloc, failing := (s.cxlLink port).failing && !(pri && !(s.cxlLink port).pri) } := by
  rw [configWrite, if_neg (by omega)]
  extract_lets l _ u v
  have hv : v.cxlLink port = { l with ats := ats, pri := pri, alloc := alloc, failing := l.failing && !(pri && !l.pri) } := cxlLink_setLink u hp _
  split <;> exact hv

end Sys2Proof.Machine.State
end

section
/-! PROOF. The statements about the package, its power and its clocks, each from the lemmas about the operations. -/

namespace Sys2Proof.Machine

/-- What an event's operation comes to is what the event answers. -/
theorem answers_of_eq {i : Instr} {s t u : State} (h : Spec.Answers i s t) (e : t = u) : Spec.Answers i s u := e ▸ h

/-- Settles O48: each register's value and the empty memory are read off the power-on state. -/
theorem resetValues : Obligations.ResetValues := by
  unfold Obligations.ResetValues
  have tags (k : Nat) : State.reset.tagAt k = 0 := by
    unfold State.tagAt
    split <;> rfl
  exact ⟨rfl, rfl, rfl, rfl, rfl, rfl, rfl, rfl, rfl, rfl, rfl, rfl, rfl, rfl, fun _ => rfl, fun _ => rfl, rfl, rfl, rfl, reset_mem_wf, fun _ => rfl, tags⟩

/-- Settles O49: each event answers with what the lemma about its operation says. -/
theorem bootAndSync : Obligations.BootAndSync := by
  unfold Obligations.BootAndSync
  intro s
  refine ⟨?reset, ?bootctl, ?ready, ?trip, ?noTrip, ?loss, ?lost, ?regained⟩
  case reset =>
    exact ⟨s.coldReset, rfl, s.coldReset_mem, fun _ => State.byteAt_of_mem_eq_outside s.coldReset_mem, s.coldReset_live, s.coldReset_log,
      State.coldReset_boots_first, State.coldReset_boots_other, State.coldReset_rescues⟩
  case bootctl =>
    intro ht hr hs hgo h61 h31 h39
    exact ⟨_, rfl, State.bootctl_stored s.arg.b ht hr hs hgo h61 h31 h39⟩
  case ready =>
    intro hr hs hc hn
    exact ⟨s.deviceReady, rfl, State.deviceReady_ready hr hs hc hn⟩
  case trip =>
    intro h hd
    obtain ⟨htrip, hmem, hlive, hlog⟩ := State.trip_resets (if 110 ≤ s.arg.a then 1 else 2) hd
    refine ⟨_, answers_of_eq rfl (s.thermalTrip_of_bound h), htrip, hmem, hlive, _, hlog, rfl, rfl, ?_⟩
    split <;> rfl
  case noTrip =>
    intro hj hl
    exact answers_of_eq rfl (s.thermalTrip_of_normal hj hl)
  case loss =>
    intro h
    exact ⟨s.powerLoss (s.arg.a == 1), rfl, rfl, rfl, rfl, State.powerLoss_slots _ h⟩
  case lost =>
    intro hc hh
    exact answers_of_eq rfl (State.syncLoss_of_lost hc hh)
  case regained =>
    intro hr hc hs hh
    exact answers_of_eq rfl (State.syncRegained_of_holds hr hc hs hh)

/-- Settles O50: each event answers with what the lemma about its operation says. -/
theorem powerGatingAndErrors : Obligations.PowerGatingAndErrors := by
  unfold Obligations.PowerGatingAndErrors
  intro s ms ten
  have quad (h : s.arg.a = 0) : (s.arg.a == 1) = false := by rw [h]; rfl
  have die (h : s.arg.a = 1) : (s.arg.a == 1) = true := by rw [h]; rfl
  refine ⟨fun hr => ⟨?vin, ?bad, ?due, ?notDue, fun hk hm => ⟨?calm, ?notCalm⟩, ?gate⟩, ?good, ?marked, ?wake, ?data, ?tag, ?retrain, ?config⟩
  case vin => exact answers_of_eq rfl (State.setPower_of_runs hr _)
  case bad =>
    intro h ht
    exact answers_of_eq rfl (State.coolantReading_of_bad hr h ht)
  case due =>
    intro hk hl hd
    exact answers_of_eq rfl (State.raise_of_due hr hk hl hd)
  case notDue =>
    intro hk ht hw
    exact answers_of_eq rfl (State.raise_of_not_due hr hk ht hw)
  case calm =>
    intro ht hw hc hn
    exact answers_of_eq rfl (State.lower_of_calm hr hk hm ht hw hc hn)
  case notCalm =>
    intro h
    exact answers_of_eq rfl (State.lower_of_not_calm hr hk hm h)
  case gate =>
    intro ha hm hg
    refine answers_of_eq (t := s.gateStart (s.arg.a == 1) s.arg.b) rfl ?_
    rw [quad ha, State.gateStart_quad hr hm hg]
  case good =>
    intro hi hf
    exact answers_of_eq rfl (s.coolantReading_of_good _ hi hf)
  case marked =>
    intro ha hg hm hw
    refine ⟨s.gateMark (s.arg.a == 1) s.arg.b, rfl, ?_⟩
    rw [quad ha, State.gating_gateMark_quad hg hm hw]
  case wake =>
    intro ha
    refine ⟨s.wakeUnit (s.arg.a == 1) s.arg.b, rfl, ?_, rfl⟩
    rw [die ha]
    exact s.wakeUnit_gating_die s.arg.b
  case data =>
    intro hb
    refine ⟨s.softError s.arg.a s.arg.b s.arg.c s.arg.d s.arg.e, rfl, ?_⟩
    rw [hb]
    exact s.softError_data _ _ _ _
  case tag =>
    intro hb
    refine ⟨s.softError s.arg.a s.arg.b s.arg.c s.arg.d s.arg.e, rfl, ?_⟩
    rw [hb]
    exact s.softError_tag _ _ _ _
  case retrain =>
    intro ha hl
    exact answers_of_eq rfl (if_pos ⟨ha, hl⟩)
  case config =>
    intro ha
    refine ⟨s.configWrite s.arg.a (s.arg.b == 1) (s.arg.c == 1) s.arg.d, rfl, ?_⟩
    rw [s.cxlLink_configWrite ha]
    exact ⟨rfl, rfl, rfl⟩

end Sys2Proof.Machine
end

section
/-! PROOF. The host's register space: where a write arrives, and what it does to a queue, the pooled window, the mailbox and the flash (R38, R41, R43 to R46, R93, R94, R214). -/

namespace Sys2Proof.Machine.State

/-! ## Queues: reads after writes -/

@[simp] theorem getQueue_setQueue_same (s : State) (q : Nat) (r : Queue) : (s.setQueue q r).getQueue q = r := by
  simp [getQueue, setQueue, SMap.get_set]

theorem getQueue_setQueue_other (s : State) {q p : Nat} (r : Queue) (h : p ≠ q) : (s.setQueue q r).getQueue p = s.getQueue p := by
  simp [getQueue, setQueue, SMap.get_set, h]

theorem getQueue_of_queues {s t : State} (h : t.queues = s.queues) (q : Nat) : t.getQueue q = s.getQueue q := by
  rw [getQueue, getQueue, h]

/-! ## What the queue operations do (R43, R44, R93, R94) -/

/-- A KICK of an enabled queue that does not pass its ring's end. -/
theorem kick_in_range {s : State} {q v : Nat} (hv : v < 2 ^ 32) (he : (s.getQueue q).enable = true)
    (hd : (v + 2 ^ 32 - (s.getQueue q).rdidx) % 2 ^ 32 ≤ 2 ^ (s.getQueue q).ringlog) :
    s.kick q v = (s.setQueue q { s.getQueue q with wridx := v }).touchQueue q := by
  have fits : ¬ (¬ (s.getQueue q).halted = true ∧ 2 ^ (s.getQueue q).ringlog < (v + 2 ^ 32 - (s.getQueue q).rdidx) % 2 ^ 32) :=
    fun h => Nat.not_lt.2 hd h.2
  simp only [kick, Nat.mod_eq_of_lt hv, he, not_true_eq_false, if_false, if_neg fits]

/-- A RESUME of a halted queue that leaves no more than its ring to fetch. -/
theorem resume_in_range {s : State} {q v : Nat} (hv : v < 2 ^ 32) (hh : (s.getQueue q).halted = true)
    (hd : ((s.getQueue q).wridx + 2 ^ 32 - v) % 2 ^ 32 ≤ 2 ^ (s.getQueue q).ringlog) :
    s.resume q v = (s.setQueue q { s.getQueue q with rdidx := v, halted := false, cause := 0, rereads := 0, retryAt := 0 }).touchQueue q := by
  simp only [resume, Nat.mod_eq_of_lt hv, hh, not_true_eq_false, if_false, if_neg (Nat.not_lt.2 hd)]

theorem enableQueue_same (s : State) (q : Nat) :
    let r := (s.enableQueue q).getQueue q
    r.enable = true ∧ r.rdidx = 0 ∧ r.wridx = 0 ∧ r.cseq = 0 ∧ r.dseq = 0 ∧ r.halted = false := by
  simp [enableQueue]

theorem enableQueue_other (s : State) {q p : Nat} (h : p ≠ q) : (s.enableQueue q).getQueue p = s.getQueue p :=
  getQueue_setQueue_other s _ h

/-- A packet as a disable leaves it: what may be aborted is, and the others run on. -/
def disabledPacket (s : State) (p : Packet) : Packet := if abortable p then s.abortPacket p else p

/-- After a disable a packet that had not started is done. -/
theorem done_disabledPacket (s : State) (p : Packet) (h : (s.disabledPacket p).started = false) : (s.disabledPacket p).done = true := by
  unfold disabledPacket at h ⊢
  split
  · rfl
  next ha =>
    rw [if_neg ha] at h
    simpa [abortable, h] using ha

/-- Giving up the replies that aborted packets wait for changes no queue. -/
theorem queues_forgetAborted (q : Nat) (l : List Packet) (s : State) :
    (l.foldl (fun s p => if abortable p then s.forget (packetUnit q p.seq) else s) s).queues = s.queues :=
  foldl_keeps State.queues (fun s p => by split <;> rfl) l s

theorem disableQueue_same {s : State} {q : Nat} (h : (s.getQueue q).enable = true) :
    (s.disableQueue q).getQueue q =
      { s.getQueue q with enable := false, packets := (s.getQueue q).packets.map s.disabledPacket, drain := !((s.getQueue q).packets.map s.disabledPacket).isEmpty,
                          engine := 255, since := 0, rereads := 0, retryAt := 0 } := by
  simp only [disableQueue, h, not_true_eq_false, if_false, getQueue_setQueue_same]
  rfl

theorem disableQueue_other (s : State) {q p : Nat} (h : p ≠ q) : (s.disableQueue q).getQueue p = s.getQueue p := by
  unfold disableQueue
  dsimp only
  split
  · rfl
  · rw [getQueue_setQueue_other _ _ h]
    exact getQueue_of_queues (queues_forgetAborted q _ s) p

/-! ## Which queue's scrub holds a write up (R133) -/

theorem scrubbedQueue_kickPage {s : State} {q off : Nat} (hq : off / 4096 = q) (h : (s.getEntry (entryKey 6 q)).scrub = false) : s.scrubbedQueue 2 off = false := by
  simp [scrubbedQueue, hq, h]

theorem scrubbedQueue_descriptor {s : State} {q off : Nat} (hq : (off - 0x100000) / 64 = q) (h : (s.getEntry (entryKey 6 q)).scrub = false) :
    s.scrubbedQueue 0 off = false := by
  simp [scrubbedQueue, hq, h]

theorem scrubbedQueue_status (s : State) {off : Nat} (h : off < 0x1000) : s.scrubbedQueue 0 off = false := by
  simp [scrubbedQueue, show ¬ 0x100000 ≤ off by omega]

theorem scrubbedQueue_mailbox (s : State) (off : Nat) : s.scrubbedQueue 4 off = false := by
  simp [scrubbedQueue]

/-! ## Where a write arrives -/

section
variable {s t : State} (hr : s.boot.rescue = false) (ht : s.boot.tripped = false)
include hr ht

theorem portReset_of_normal (port : Nat) : s.portReset port = false := by
  simp [portReset, hr, ht]

/-- A write that a register takes does what the register does. -/
theorem writeRegister_of_some {port bar off size : Nat} {v : Word} (hq : s.scrubbedQueue bar off = false) (h : s.writeAny port bar off size v = some t) :
    s.writeRegister port bar off size v = t := by
  simp [writeRegister, portReset_of_normal hr ht, hq, h]

/-- A write that no register takes is a violation. -/
theorem writeRegister_of_none {port bar off size : Nat} {v : Word} (hq : s.scrubbedQueue bar off = false) (h : s.writeAny port bar off size v = none) :
    s.writeRegister port bar off size v = s.violation port bar off size true := by
  simp [writeRegister, portReset_of_normal hr ht, hq, h]

theorem hostRead_of_some {port bar off size : Nat} {w : Word} (h : s.readRegister port bar off size = some (w, t)) :
    s.hostRead port bar off size = t.answer (.register port w) := by
  simp [hostRead, portReset_of_normal hr ht, h]

theorem hostRead_of_none {port bar off size : Nat} (h : s.readRegister port bar off size = none) :
    s.hostRead port bar off size = (s.violation port bar off size false).answer (.unsupported port) := by
  simp [hostRead, portReset_of_normal hr ht, h]

variable (hs : s.boot.stage = 6)
include hs

theorem runs_of_ready : s.runs = true := by
  simp [runs, hr, ht, hs]

/-- A kick page's first word is KICK (R42). -/
theorem writeAny_kick (port : Nat) {q : Nat} {v : Word} (hq : q < 4096) (hv : v.toNat < 2 ^ 32) :
    s.writeAny port 2 (q * 4096) 8 v = some (s.kick q v.toNat) := by
  have high : wbits v 63 32 = 0 := by simp only [wbits, bits]; omega
  have place : ¬ 0x1000000 ≤ q * 4096 := by omega
  have aligned : q * 4096 % 8 = 0 := by omega
  simp [writeAny, runs_of_ready hr ht hs, hr, hs, high, place, aligned]

/-- The word at offset 0x28 of a kick page is RESUME (R42). -/
theorem writeAny_resume (port : Nat) {q : Nat} {v : Word} (hq : q < 4096) (hv : v.toNat < 2 ^ 32) :
    s.writeAny port 2 (q * 4096 + 0x28) 8 v = some (s.resume q v.toNat) := by
  have high : wbits v 63 32 = 0 := by simp only [wbits, bits]; omega
  have place : ¬ 0x1000000 ≤ q * 4096 + 0x28 := by omega
  have aligned : (q * 4096 + 0x28) % 8 = 0 := by omega
  have page : (q * 4096 + 0x28) / 4096 = q := by omega
  have register : (q * 4096 + 0x28) % 4096 = 0x28 := by omega
  simp [writeAny, runs_of_ready hr ht hs, hr, hs, high, place, aligned, page, register]

/-- The word at offset 0x18 of a descriptor holds ENABLE (R92). -/
theorem writeAny_enable (port : Nat) {q : Nat} (v : Word) (hq : q < 4096) :
    s.writeAny port 0 (0x100000 + q * 64 + 0x18) 8 v = s.writeEnable q v := by
  have status : ¬ 0x100000 + q * 64 + 0x18 < 0x1000 := by omega
  have window : ¬ (0x20000 ≤ 0x100000 + q * 64 + 0x18 ∧ 0x100000 + q * 64 + 0x18 < 0x26000) := by omega
  have place : 0x100000 ≤ 0x100000 + q * 64 + 0x18 ∧ 0x100000 + q * 64 + 0x18 < 0x140000 := by omega
  have aligned : (0x100000 + q * 64 + 0x18) % 8 = 0 := by omega
  have queue : (0x100000 + q * 64 + 0x18 - 0x100000) / 64 = q := by omega
  have register : (0x100000 + q * 64 + 0x18) % 64 = 0x18 := by omega
  simp only [writeAny, aligned, runs_of_ready hr ht hs, hr, hs, status, window, place, queue, register]
  simp [writeDescriptor]

theorem writeAny_poolen (port : Nat) (v : Word) : s.writeAny port 0 0x50 8 v = s.writePoolen port v := by
  simp [writeAny, runs_of_ready hr ht hs, writeStatus, hr]

/-- POOLBASE is written where the window is disabled and no reserved bit is set (R214). -/
theorem writeAny_poolbase (port : Nat) {v : Word} (he : s.host.poolen = false) (high : wbits v 63 52 = 0) (low : wbits v 27 0 = 0) :
    s.writeAny port 0 0x40 8 v = some { s with host := { s.host with poolbase := v } } := by
  simp [writeAny, runs_of_ready hr ht hs, writeStatus, hr, he, high, low]

/-- A read of TBASE's lower half latches the upper (R38). -/
theorem readRegister_tbaseLow (port : Nat) :
    s.readRegister port 0 0x18 4 = some (word (s.time % 2 ^ 32), { s with host := { s.host with tbaseHigh := BitVec.ofNat 32 (s.time / 2 ^ 32) } }) := by
  unfold readRegister
  simp [runs_of_ready hr ht hs, hr]

/-- The mailbox's first word is its command register (R45). -/
theorem writeAny_mailboxCommand (v : Word) : s.writeAny 0 4 0 4 v = s.mailboxCommand (v.toNat % 2 ^ 32) := by
  simp [writeAny, mailboxOpen, runs_of_ready hr ht hs, ht, writeMailbox]

end

/-! ## ENABLE -/

theorem writeEnable_one {s : State} {q : Nat} (h : s.canEnable q = true) : s.writeEnable q (word (2 ^ 63)) = some (s.enableQueue q) := by
  have h0 : ¬ wbits (word (2 ^ 63)) 61 0 ≠ 0 := by decide
  have h1 : wbits (word (2 ^ 63)) 63 63 = 1 := by decide
  rw [writeEnable, if_neg h0, if_pos h1, if_pos h]

theorem writeEnable_zero (s : State) (q : Nat) : s.writeEnable q 0 = some (s.disableQueue q) := by
  have h0 : ¬ wbits 0 61 0 ≠ 0 := by decide
  have h1 : ¬ wbits 0 63 63 = 1 := by decide
  rw [writeEnable, if_neg h0, if_neg h1]

/-! ## The pooled window (R214) -/

theorem writePoolen_one {s : State} (port : Nat) (h : wbits s.host.poolbase 51 28 + wbits s.host.poolsize 49 28 ≤ 2 ^ 24) :
    s.writePoolen port (word (2 ^ 63)) = some { s with host := { s.host with poolen := true } } := by
  have h0 : ¬ wbits (word (2 ^ 63)) 62 0 ≠ 0 := by decide
  have h1 : wbits (word (2 ^ 63)) 63 63 = 1 := by decide
  rw [writePoolen, if_neg h0, if_pos h1, if_neg (Nat.not_lt.2 h)]

theorem writePoolen_zero {s : State} (port : Nat) (hi : s.inflight = []) (ha : s.arrived = []) :
    s.writePoolen port 0 = some { s with host := { s.host with poolen := false } } := by
  have h0 : ¬ wbits 0 62 0 ≠ 0 := by decide
  have h1 : ¬ wbits 0 63 63 = 1 := by decide
  rw [writePoolen, if_neg h0, if_neg h1, if_neg (by simp [hi, ha])]

/-! ## The mailbox and the flash (R45, R46) -/

/-- A command enters the idle flash engine, with the slot and the number that the word names. -/
theorem mailboxCommand_enters {s : State} {slot cmd : Nat} (hs : slot < 2) (h1 : 1 ≤ cmd) (h3 : cmd ≤ 3) (hb : s.flash.busy = false) :
    ∃ t c, s.mailboxCommand (slot * 256 + cmd) = some t ∧ t.flash.busy = true ∧ t.flash.engine = s.flash.engine ++ [c] ∧ c.slot = slot ∧ c.cmd = cmd ∧
      c.off = s.flash.mboff ∧ c.sideband = none := by
  have hcmd : bits (slot * 256 + cmd) 3 0 = cmd := by simp only [bits]; omega
  have hslot : bits (slot * 256 + cmd) 8 8 = slot := by simp only [bits]; omega
  have good : ¬ (bits (slot * 256 + cmd) 31 9 ≠ 0 ∨ bits (slot * 256 + cmd) 7 4 ≠ 0 ∨ cmd = 0 ∨ 3 < cmd) := by simp only [bits]; omega
  unfold mailboxCommand
  simp only [hcmd, hslot, if_neg good, hb, Bool.false_eq_true, if_false]
  refine ⟨_, _, rfl, rfl, rfl, ?_⟩
  split <;> exact ⟨rfl, rfl, rfl, rfl⟩

/-- A command written to the idle mailbox of a ready device. -/
theorem mailboxWrite_enters {s : State} (hr : s.boot.rescue = false) (ht : s.boot.tripped = false) (hs : s.boot.stage = 6) {slot cmd : Nat} (hn : slot < 2)
    (h1 : 1 ≤ cmd) (h3 : cmd ≤ 3) (hb : s.flash.busy = false) :
    ∃ c, let t := s.writeRegister 0 4 0 4 (word (slot * 256 + cmd))
      t.flash.busy = true ∧ t.flash.engine = s.flash.engine ++ [c] ∧ c.slot = slot ∧ c.cmd = cmd ∧ c.off = s.flash.mboff ∧ c.sideband = none := by
  obtain ⟨t, c, hc, h⟩ := mailboxCommand_enters hn h1 h3 hb
  have hv : (word (slot * 256 + cmd)).toNat % 2 ^ 32 = slot * 256 + cmd := by simp only [word, BitVec.toNat_ofNat]; omega
  have hw : s.writeAny 0 4 0 4 (word (slot * 256 + cmd)) = some t := by rw [writeAny_mailboxCommand hr ht hs, hv, hc]
  exact ⟨c, by rw [writeRegister_of_some hr ht (scrubbedQueue_mailbox s 0) hw]; exact h⟩

theorem flashOutcome_erase {s : State} {c : FlashCmd} (hc : c.cmd = 1) (hb : c.slot ≠ s.boot.slot) :
    s.flashOutcome c = if Config.flashError s.free then (3, s.flash.slots) else (0, s.flash.slots.setIfInBounds c.slot FlashSlot.fresh) := by
  simp [flashOutcome, hc, hb]

/-- A mailbox command done, the only one at the engine. -/
theorem flashDone_mailbox {s : State} {c : FlashCmd} (he : s.flash.engine = [c]) (hm : c.sideband = none) (hd : s.side.resetDue = false) :
    s.flashDone.flash = { s.flash with engine := [], slots := (s.flashOutcome c).2, busy := false, result := (s.flashOutcome c).1, mbseq := s.flash.mbseq + 1 } := by
  simp [flashDone, he, hm, hd]

theorem slot_of_setIfInBounds {s t : State} {n : Nat} (hn : n < 2) (f : FlashSlot) (h : t.flash.slots = s.flash.slots.setIfInBounds n f) : t.slot n = f := by
  simp [slot, h, hn]

/-- An ERASE done of a slot that is not the booted one: it is erased, or the flash has failed and it is what it was. -/
theorem flashDone_erase {s : State} {c : FlashCmd} (he : s.flash.engine = [c]) (hm : c.sideband = none) (hc : c.cmd = 1) (hn : c.slot < 2) (hb : c.slot ≠ s.boot.slot)
    (hd : s.side.resetDue = false) :
    let t := s.flashDone
    t.slot c.slot = (if Config.flashError s.free = true then s.slot c.slot else FlashSlot.fresh) ∧ t.flash.result = (if Config.flashError s.free = true then 3 else 0) ∧
      t.flash.busy = false ∧ t.flash.mbseq = s.flash.mbseq + 1 ∧ t.flash.engine = [] := by
  have hf := flashDone_mailbox he hm hd
  rw [flashOutcome_erase hc hb] at hf
  dsimp only
  by_cases fails : Config.flashError s.free = true
  · rw [if_pos fails] at hf
    rw [if_pos fails, if_pos fails, slot, hf]
    exact ⟨rfl, rfl, rfl, rfl, rfl⟩
  · rw [if_neg fails] at hf
    rw [if_neg fails, if_neg fails, slot_of_setIfInBounds hn FlashSlot.fresh (congrArg Flash.slots hf), hf]
    exact ⟨rfl, rfl, rfl, rfl, rfl⟩

end Sys2Proof.Machine.State
end

section
/-! PROOF. The host attach: service of a port, decoders, snoops, host accesses to HBM4E, back-invalidation and translation services (R30, R33, R37, R48 to R50, R54 to R58). -/

namespace Sys2Proof.Machine.State

/-! ## Service of a port and its decoder (R30, R33, R37, R48) -/

/-- Answers to page requests leave the host attach as it was. -/
theorem host_foldl_answerPage (code : Nat) (l : List PageReq) (s : State) : (l.foldl (fun s r => s.answerPage r code) s).host = s.host :=
  foldl_keeps State.host (f := fun s r => s.answerPage r code) (fun _ _ => rfl) l s

theorem prifail_failPages (s : State) {port : Nat} (hp : port < 2) : ((s.failPages port).cxlLink port).prifail = true := by
  rw [failPages, cxlLink_setLink _ hp]

theorem pageReqs_failPages (s : State) (port : Nat) : (s.failPages port).host.pageReqs = s.host.pageReqs.filter (fun r => r.port != port) := by
  simp only [failPages, setLink, host_foldl_answerPage]

theorem hdm_failPages (s : State) (port : Nat) : (s.failPages port).host.hdm = s.host.hdm := by
  simp only [failPages, setLink, host_foldl_answerPage]

/-- A port that loses service has neither protocol, PRIFAIL set, no decoder and no page request (R33, R48). -/
theorem serviceLoss_port (s : State) {port : Nat} (why : Nat) (hp : port < 2) :
    let t := s.serviceLoss port why
    let l := t.cxlLink port
    l.cache = false ∧ l.mem = false ∧ (why ≠ 2 → l.up = false) ∧ l.prifail = true ∧ t.host.hdm.toList.getD port none = none ∧ ∀ r ∈ t.host.pageReqs, r.port ≠ port := by
  rw [serviceLoss, if_neg (Nat.not_le.2 hp)]
  extract_lets u h v x k t l
  have hk : k.prifail = true := v.prifail_failPages hp
  have hd : t.host.hdm = u.host.hdm.setIfInBounds port none := v.hdm_failPages port
  have hr : t.host.pageReqs = v.host.pageReqs.filter (fun r => r.port != port) := v.pageReqs_failPages port
  have hl : l = if why = 2 then { k with cache := false, mem := false, ioonly := 4 } else { k with up := false, cache := false, mem := false, flit := false, speed := 0, width := 0, ioonly := 0 } :=
    cxlLink_setLink x hp _
  clear_value l t k v u
  rw [hl, hd, hr]
  refine ⟨?cache, ?mem, fun h => by rw [if_neg h], ?prifail, ?decoder, fun r h => by simpa using (List.mem_filter.1 h).2⟩
  case cache => split <;> rfl
  case mem => split <;> rfl
  case prifail => split <;> exact hk
  case decoder => simp [hp]

/-- A good link comes up with both protocols on a ready device (R30). -/
theorem serviceRestore_good {s : State} {port speed width : Nat} (hp : port < 2) (hr : s.ready = true) (h5 : 5 ≤ speed) (h16 : speed < 16) (h4 : 4 ≤ width) (h256 : width < 256) :
    (s.serviceRestore port speed width true true).cxlLink port =
      { s.cxlLink port with up := true, speed := speed, width := width, flit := true, ioonly := 0, cache := true, mem := true } := by
  have hb : s.boot.rescue = false ∧ s.boot.tripped = false := by
    simp only [ready, runs, Bool.and_eq_true, Bool.not_eq_true'] at hr
    exact hr.1.1
  have taken : ¬ (2 ≤ port ∨ s.boot.tripped = true ∨ (s.boot.rescue = true ∧ port = 1)) := by
    simp [hb.1, hb.2, hp]
  rw [serviceRestore, if_neg taken]
  simp only [cxlLink_setLink _ hp, hb.1, hr, ioOnly, Nat.mod_eq_of_lt h16, Nat.mod_eq_of_lt h256, Nat.not_lt.2 h5, Nat.not_lt.2 h4]
  simp

theorem hdmCommit_good {s : State} {port : Nat} {d : Hdm} (hp : port < 2) (h : s.hdmGood port d = true) :
    s.hdmCommit port d = State.answer { s with host := { s.host with hdm := s.host.hdm.setIfInBounds port (some d) } } (.hdm port true) :=
  if_pos ⟨hp, h⟩

theorem hdmCommit_bad {s : State} {port : Nat} {d : Hdm} (h : s.hdmGood port d = false) : s.hdmCommit port d = s.answer (.hdm port false) :=
  if_neg (by simp [h])

/-! ## Snoops (R54, R55) -/

section
variable {s : State} {a : Arg} (i : Instr) (hk : storage a.a = .host) (hl : (s.cxlLink (a.b % 2)).up = true) (hf : ∀ f ∈ s.inflight, lineStart f.key ≠ lineStart (a.a / 64 * 64))
include hk hl hf

/-- A snoop of a line that is not recorded and that no engine has: RspI at once. -/
theorem hostSnoop_unrecorded (ht : s.host.tracker = []) (he : s.engineHolds (a.a / 64 * 64) 64 = false) (hb : a.bytes = []) :
    s.hostSnoop i a = s.answer (.snoop (a.b % 2) (a.a / 64 * 64) []) := by
  have flying : s.inflight.any (fun f => lineStart f.key == lineStart (a.a / 64 * 64)) = false := by simpa using hf
  simp [hostSnoop, hk, hl, flying, ht, he, hb, offsets]

/-- A snoop of a line that an engine has: it waits, or the engine gives the line up. -/
theorem hostSnoop_engine (he : s.engineHolds (a.a / 64 * 64) 64 = true) (hg : ∀ r ∈ s.host.tracker, s.gated true r.2.2 = false) :
    s.hostSnoop i a = if s.time + 1 < (if a.d = 0 then s.time + 1 else a.d) + 2000 then s.postpone i { a with d := if a.d = 0 then s.time + 1 else a.d }
      else (s.yieldLine (lineStart (a.a / 64 * 64))).answerSnoop (a.b % 2) a.a (offsets a.bytes) (a.a / 64 * 64) := by
  have flying : ¬ s.inflight.any (fun f => lineStart f.key == lineStart (a.a / 64 * 64)) = true := by simpa using hf
  have reached : ¬ (storage a.a ≠ .host ∨ (s.cxlLink (a.b % 2)).up = false) := by simp [hk, hl]
  have awake : ¬ (s.host.tracker.any (fun t => t.1 == a.b % 2 && t.2.1 == lineStart (a.a / 64 * 64)) = true ∧
      ¬ s.host.tracker.any (fun t => t.1 == a.b % 2 && t.2.1 == lineStart (a.a / 64 * 64) && !(s.gated true t.2.2)) = true) := by
    rintro ⟨h, hn⟩
    obtain ⟨t, ht, hm⟩ := List.any_eq_true.1 h
    exact hn (List.any_eq_true.2 ⟨t, ht, by simpa [hg t ht] using hm⟩)
  simp only [hostSnoop, if_neg reached, if_neg flying, if_neg awake, if_pos he]

variable (he : s.engineHolds (a.a / 64 * 64) 64 = true) (hg : ∀ r ∈ s.host.tracker, s.gated true r.2.2 = false) (hd : a.d ≠ 0)
include he hg hd

/-- Within 2 µs of the snoop's arrival the engine keeps the line, and the snoop comes again. -/
theorem hostSnoop_engine_keeps (h : s.time + 1 < a.d + 2000) : s.hostSnoop i a = s.postpone i a := by
  rw [hostSnoop_engine i hk hl hf he hg, if_neg hd, if_pos h]

/-- After them it gives the line up. -/
theorem hostSnoop_engine_yields (h : a.d + 2000 ≤ s.time + 1) :
    s.hostSnoop i a = (s.yieldLine (lineStart (a.a / 64 * 64))).answerSnoop (a.b % 2) a.a (offsets a.bytes) (a.a / 64 * 64) := by
  rw [hostSnoop_engine i hk hl hf he hg, if_neg hd, if_neg (Nat.not_lt.2 h)]

end

/-- An answer that nothing holds up carries the line's data where it is dirty here; then the line is neither dirty nor recorded. -/
theorem answerSnoop_now {s : State} (port k : Nat) {line : Nat} (h : s.snoopEnd line ≤ s.time) :
    let t := s.answerSnoop port k [] line
    t.mem = s.mem ∧
      t.out = .snoop port line (if s.host.dirty.any (fun d => decide (line ≤ d.1) && decide (d.1 < line + 64)) then (List.range 64).map (fun i => s.serialByte (line + i)) else []) :: s.out ∧
      (∀ d ∈ t.host.dirty, d.1 < lineStart line ∨ lineStart line + lineLen (lineStart line) ≤ d.1) ∧ ∀ r ∈ t.host.tracker, ¬ (r.1 = port ∧ r.2.1 = lineStart line) := by
  have hv : s.snoopEnd line ≤ (s.writeBack (lineStart line) (lineLen (lineStart line))).time := h
  simp only [answerSnoop, if_pos hv, if_true]
  refine ⟨rfl, rfl, fun d hd => ?_, fun r hr => ?_⟩
  · simpa using (List.mem_filter.1 hd).2
  · simpa [imp_iff_not_or] using (List.mem_filter.1 hr).2

/-! ## Host accesses to HBM4E (R48 to R50) -/

theorem time_of_steady {s t : State} (h : t.steady = s.steady) : t.time = s.time := congrArg (·.2.1.1) h

theorem arrived_l2Put (s : State) (e : L2Line) : (s.l2Put e).arrived = s.arrived := by
  unfold l2Put
  extract_lets mine u
  have hu : u.arrived = s.arrived := by
    unfold u
    split
    · unfold l2Evict
      dsimp only
      split <;> rfl
    · rfl
  exact hu

theorem arrived_markContended (s : State) (core k : Nat) : (s.markContended core k).arrived = s.arrived := by
  unfold markContended markLine
  extract_lets line b keep u
  have hu : u.arrived = s.arrived := by
    unfold u
    split <;> rfl
  clear_value b u
  split
  · rfl
  · split
    · exact hu
    · extract_lets hit
      split
      · exact hu
      · exact (arrived_l2Put _ _).trans hu

theorem steady_rawWrite (s : State) (core slot k : Nat) (bs : List (Nat × Byte)) : (s.rawWrite core slot k bs).steady = s.steady :=
  foldl_keeps steady (fun s _ => steady_arriveFor s _ _ _ _ _ _) _ s

/-- A write to HBM4E on which no lease stands and before which nothing is serialised is visible when it arrives (R241). -/
theorem formV_now {s : State} {k : Nat} (n : Nat) (hk : storage k = .hbm) (hl : s.leaseEnd k = 0) (ha : s.arrived = []) : s.formV k n = s.time := by
  simp [formV, hk, hl, ha]

theorem lastVis_now {s : State} (k : Nat) (ha : s.arrived = []) : s.lastVis k = s.time := by
  simp [lastVis, ha]

theorem serialByte_settled {s : State} (k : Nat) (ha : s.arrived = []) : s.serialByte k = s.byteAt k := by
  simp [serialByte, ha]

section
variable {s : State} {a : Arg} (hk : storage a.a = .hbm) (hm : (s.cxlLink (a.b % 2)).mem = true) (hd : s.decodes (a.b % 2) a.a = true)
include hk hm hd

/-- An access to an extent that O1 does not hold is logged: a write completes without effect, and a read brings no data (R49). -/
theorem hostWrite_violates (hh : s.holder 4 (a.a / 2097152) ≠ 1) : s.hostWrite a = (s.hostViolation a.a a.bytes.length true).answer (.hostDone (a.b % 2) a.a) := by
  simp [hostWrite, hk, hm, hd, hh]

theorem hostReadHbm_violates (hh : s.holder 4 (a.a / 2097152) ≠ 1) : s.hostReadHbm a = (s.hostViolation a.a a.d false).answer (.hostData (a.b % 2) a.a [] true) := by
  simp [hostReadHbm, hk, hm, hd, hh]

variable (hh : s.holder 4 (a.a / 2097152) = 1) (hs : s.scrubbing a.a = false) (hn : s.lineHeld a.a = false) (ha : s.arrived = [])
include hh hs hn ha

/-- A write on whose line no lease stands is performed and complete. -/
theorem hostWrite_now (hl : (s.markContended hostCore a.a).leaseEnd a.a = 0) :
    s.hostWrite a = (((s.markContended hostCore a.a).rawWrite hostCore 0 a.a (offsets a.bytes)).setHeld (a.b % 2) (lineStart a.a) a.c).answer (.hostDone (a.b % 2) a.a) := by
  have hv := formV_now a.bytes.length hk hl ((s.arrived_markContended hostCore a.a).trans ha)
  have ht : (((s.markContended hostCore a.a).rawWrite hostCore 0 a.a (offsets a.bytes)).setHeld (a.b % 2) (lineStart a.a) a.c).time = (s.markContended hostCore a.a).time :=
    time_of_steady (steady_rawWrite _ _ _ _ _)
  simp [hostWrite, hk, hm, hd, hh, hs, hn, hv, ht]

/-- A read that takes no hold of the line is answered with the bytes that stand there. -/
theorem hostReadHbm_now (hc : a.c = 0) :
    s.hostReadHbm a = s.answer (.hostData (a.b % 2) a.a ((List.range a.d).map (fun i => s.byteAt (a.a + i))) (s.poisoned a.a a.d)) := by
  simp [hostReadHbm, hk, hm, hd, hh, hs, hn, hc, lastVis_now _ ha, serialByte_settled _ ha]

end

/-- A response that gives the line up and brings no bytes frees it, and no snoop of it is out (R50). -/
theorem birsp_frees {s : State} {a : Arg} (hc : a.c = 0) (hb : a.bytes = []) :
    (∀ h ∈ (s.birsp a).host.held, h.2.1 ≠ lineStart a.a) ∧ lineStart a.a ∉ (s.birsp a).host.asked ∧ (s.birsp a).mem = s.mem := by
  simp [birsp, setHeld, hc, hb]

/-! ## Translation services (R56 to R58) -/

/-- An invalidation that nothing holds up removes the port's translations and is answered. -/
theorem atsInvalidate_now {s : State} {a : Arg} (hi : s.inflight = []) (ha : s.arrived = []) :
    (s.atsInvalidate a).out = .atsDone (a.a % 2) :: s.out ∧ ∀ e ∈ (s.atsInvalidate a).host.atsCache, ¬ (e.1 = a.a % 2 ∧ (a.c = 1 ∨ e.2 = a.b)) := by
  simp only [atsInvalidate, hi, ha, List.any_nil, Bool.false_eq_true, or_self, if_false]
  refine ⟨rfl, fun e he => ?_⟩
  simpa [imp_iff_not_or] using (List.mem_filter.1 he).2

theorem atsDeny_records {s : State} {page : Nat} {writes : Bool} (h : ∃ l ∈ s.host.links.toList, l.ats = true) : (hostPage page, writes) ∈ (s.atsDeny page writes).host.atsDenied := by
  have hl : s.host.links.toList.any (·.ats) = true := List.any_eq_true.2 h
  unfold atsDeny
  split
  · exact List.mem_cons_self
  next hn => exact List.contains_iff_mem.1 (not_not.1 (fun hc => hn ⟨hl, hc⟩))

/-- The first word in the network for a host-attach unit that exists reaches it (R57). -/
theorem pageRequest_reaches {s : State} {w : NetWord} (h : s.net.find? (fun w => w.kind == 2 && w.spilled == 0) = some w) (hu : w.unit < 2) :
    s.pageRequest = (State.txDone { s with net := s.net.erase w } w false).pageWord w.core w.txport w.unit w.value := by
  simp [pageRequest, h, Nat.not_le.2 hu]

/-- A successful response ends the request, and the page's denial as far as the request asked (R57). -/
theorem pageResponse_success {s : State} {tag page : Nat} {r : PageReq} (h : s.host.pageReqs.find? (fun r => r.tag == tag && r.page == page) = some r) :
    s.pageResponse tag page 0 =
      State.answerPage { s with host := { s.host with pageReqs := s.host.pageReqs.erase r, atsDenied := s.host.atsDenied.filter (fun p => p.1 != hostPage page || (p.2 && !r.write)) } } r 0 := by
  simp [pageResponse, h]

end Sys2Proof.Machine.State
end

section
/-! PROOF. The statements about the host's registers and the host attach, each from the lemmas about the operations. -/

namespace Sys2Proof.Machine

/-- Settles O51: each access arrives at the register that the lemma about its place names, and does what the lemma about that register says. -/
theorem hostRegisterAccesses : Obligations.HostRegisterAccesses := by
  unfold Obligations.HostRegisterAccesses
  intro s hr ht hs q r free
  have hq : q < 4096 := Nat.mod_lt _ (by decide)
  refine ⟨?kick, ?resume, ?enable, ?disable, ?poolOn, ?poolOff, ?mailbox, ?erase, ?poolbase, ?badWrite, ?badRead, ?tbase⟩
  case kick =>
    intro hf hv he _ hd
    refine answers_of_eq rfl ((State.writeRegister_of_some hr ht (State.scrubbedQueue_kickPage (by omega) hf) (State.writeAny_kick hr ht hs _ hq hv)).trans ?_)
    exact State.kick_in_range hv he hd
  case resume =>
    intro hf hv hh hd
    refine answers_of_eq rfl ((State.writeRegister_of_some hr ht (State.scrubbedQueue_kickPage (by omega) hf) (State.writeAny_resume hr ht hs _ hq hv)).trans ?_)
    exact State.resume_in_range hv hh hd
  case enable =>
    intro hf hc
    have hw := (State.writeAny_enable hr ht hs s.arg.b (word (2 ^ 63)) hq).trans (State.writeEnable_one hc)
    refine ⟨s.enableQueue q, answers_of_eq rfl (State.writeRegister_of_some hr ht (State.scrubbedQueue_descriptor (by omega) hf) hw), ?_⟩
    obtain ⟨h1, h2, h3, h4, h5, h6⟩ := s.enableQueue_same q
    exact ⟨h1, h2, h3, h4, h5, h6, fun p hp => s.enableQueue_other hp⟩
  case disable =>
    intro hf he
    have hw := (State.writeAny_enable hr ht hs s.arg.b 0 hq).trans (s.writeEnable_zero q)
    refine ⟨s.disableQueue q, answers_of_eq rfl (State.writeRegister_of_some hr ht (State.scrubbedQueue_descriptor (by omega) hf) hw), ?_⟩
    rw [State.disableQueue_same he]
    refine ⟨rfl, by simp [r], fun p hp hstart => ?_, fun p hp => s.disableQueue_other hp⟩
    obtain ⟨p', -, rfl⟩ := List.mem_map.1 hp
    exact s.done_disabledPacket p' hstart
  case poolOn =>
    intro h
    have hw := (State.writeAny_poolen hr ht hs s.arg.b (word (2 ^ 63))).trans (State.writePoolen_one _ h)
    exact answers_of_eq rfl (State.writeRegister_of_some hr ht (s.scrubbedQueue_status (by decide)) hw)
  case poolOff =>
    intro hi ha
    have hw := (State.writeAny_poolen hr ht hs s.arg.b 0).trans (State.writePoolen_zero _ hi ha)
    exact answers_of_eq rfl (State.writeRegister_of_some hr ht (s.scrubbedQueue_status (by decide)) hw)
  case mailbox =>
    intro hb
    have enters (cmd : Nat) (h1 : 1 ≤ cmd) (h3 : cmd ≤ 3) := State.mailboxWrite_enters hr ht hs (Nat.mod_lt s.arg.a (by decide)) h1 h3 hb
    simp only [List.forall_mem_cons, List.not_mem_nil, false_imp_iff, implies_true, and_true]
    obtain ⟨c1, h1⟩ := enters 1 (by decide) (by decide)
    obtain ⟨c2, h2⟩ := enters 2 (by decide) (by decide)
    obtain ⟨c3, h3⟩ := enters 3 (by decide) (by decide)
    exact ⟨⟨_, c1, rfl, h1⟩, ⟨_, c2, rfl, h2⟩, ⟨_, c3, rfl, h3⟩⟩
  case erase =>
    intro c he hm hc hn hb hd
    exact ⟨s.flashDone, rfl, State.flashDone_erase he hm hc hn hb hd⟩
  case poolbase =>
    intro hb hc hd he high low
    have hw := State.writeAny_poolbase hr ht hs s.arg.a he high low
    refine answers_of_eq (t := s.writeRegister s.arg.a s.arg.b s.arg.c s.arg.d s.arg.w) rfl ?_
    rw [hb, hc, hd]
    exact State.writeRegister_of_some hr ht (s.scrubbedQueue_status (by decide)) hw
  case badWrite =>
    intro hq' h
    exact answers_of_eq rfl (State.writeRegister_of_none hr ht hq' h)
  case badRead =>
    intro h
    exact answers_of_eq rfl (State.hostRead_of_none hr ht h)
  case tbase =>
    exact answers_of_eq rfl (State.hostRead_of_some hr ht (State.readRegister_tbaseLow hr ht hs s.arg.a))

/-- Settles O52: each event does what the lemma about its operation says. -/
theorem hostAttachEvents : Obligations.HostAttachEvents := by
  unfold Obligations.HostAttachEvents
  intro s port line
  refine ⟨?loss, ?restore, ⟨?commit, ?noCommit⟩, ?unrecorded, ?engine, ?violating, ?performed, ?response, ?invalidate, ?deny, ?request, ?answered⟩
  case loss =>
    intro ha
    exact ⟨_, rfl, s.serviceLoss_port s.arg.b ha⟩
  case restore =>
    intro ha hr h5 h16 h4 h256 hd he
    refine ⟨s.serviceRestore s.arg.a s.arg.b s.arg.c true true, answers_of_eq rfl (by rw [hd, he]; rfl), ?_⟩
    rw [State.serviceRestore_good ha hr h5 h16 h4 h256]
    exact ⟨rfl, rfl, rfl, rfl⟩
  case commit =>
    intro ha h
    exact answers_of_eq rfl (State.hdmCommit_good ha h)
  case noCommit =>
    intro h
    exact answers_of_eq rfl (State.hdmCommit_bad h)
  case unrecorded =>
    intro hk hl ht he hf hb
    exact ⟨answers_of_eq rfl (State.hostSnoop_unrecorded _ hk hl hf ht he hb), answers_of_eq rfl (State.hostSnoop_unrecorded _ hk hl hf ht he hb)⟩
  case engine =>
    intro hk hl he hf hg hd
    refine ⟨fun h => ?yields, fun h => ?keeps⟩
    case keeps =>
      exact ⟨answers_of_eq rfl (State.hostSnoop_engine_keeps _ hk hl hf he hg hd h), answers_of_eq rfl (State.hostSnoop_engine_keeps _ hk hl hf he hg hd h)⟩
    case yields =>
      have yields := State.hostSnoop_engine_yields .snoopEngineTimeout hk hl hf he hg hd h
      refine ⟨answers_of_eq rfl yields, fun hb hv => ?_⟩
      rw [hb] at yields
      exact ⟨_, answers_of_eq rfl yields, State.answerSnoop_now port s.arg.a hv⟩
  case violating =>
    intro hk hm hd hh
    exact ⟨answers_of_eq rfl (State.hostWrite_violates hk hm hd hh), answers_of_eq rfl (State.hostReadHbm_violates hk hm hd hh)⟩
  case performed =>
    intro hk hm hd hh hs hn ha
    exact ⟨fun hl => answers_of_eq rfl (State.hostWrite_now hk hm hd hh hs hn ha hl), fun hc => answers_of_eq rfl (State.hostReadHbm_now hk hm hd hh hs hn ha hc)⟩
  case response =>
    intro hc hb
    exact ⟨_, rfl, State.birsp_frees hc hb⟩
  case invalidate =>
    intro hi ha
    exact ⟨_, rfl, State.atsInvalidate_now hi ha⟩
  case deny =>
    intro h
    exact ⟨_, rfl, State.atsDeny_records h⟩
  case request =>
    intro w hw hu
    exact answers_of_eq rfl (State.pageRequest_reaches hw hu)
  case answered =>
    intro r hr hc
    refine answers_of_eq (t := s.pageResponse s.arg.a s.arg.b s.arg.c) rfl ?_
    rw [hc]
    exact State.pageResponse_success hr

end Sys2Proof.Machine
end

section
/-! PROOF. The sideband management port: which command an event is, what its place in the sequence makes of it, and what each command answers (R80 to R86, R90). -/

namespace Sys2Proof.Machine.State

/-! ## The sequence (R82, R83) -/

/-- A request in sequence has been taken: it is the last executed, and no answer to it is stored yet. -/
abbrev taken (s : State) : State := { s with side := { s.side with lastReq := s.arg.a % 65536, answer := [] } }

/-- The events that are commands of the sequence, with their CMD values (R83). -/
abbrev sequenced : List (Instr × Nat) := [(.getstat, 1), (.readlog, 2), (.portstat, 3), (.mapread, 4), (.flash, 5), (.reset, 6), (.evack, 8)]

section
variable {s : State} {cmd : Nat} {served : Bool} {k : State → SideRequest → State}

theorem requestFits_of_le (h : s.arg.bytes.length ≤ 1079) : s.requestFits = true := by
  simp only [requestFits, mctpFits, decide_eq_true_eq]
  omega

theorem inSequence_long (h : 1079 < s.arg.bytes.length) : s.inSequence cmd served k = s := by
  have hf : ¬ s.requestFits = true := by
    simp only [requestFits, mctpFits, decide_eq_true_eq]
    omega
  exact if_pos hf

theorem inSequence_repeat (hn : s.arg.bytes.length ≤ 1079) (hq : s.arg.a % 65536 = s.side.lastReq) (ha : s.side.answer ≠ []) : s.inSequence cmd served k = s.answer (.sideband s.side.answer) := by
  have hne : ¬ s.side.lastReq = (s.side.lastReq + 1) % 65536 := by omega
  simp [inSequence, sideRequest, requestFits_of_le hn, hq, hne, ha]

theorem inSequence_other (hn : s.arg.bytes.length ≤ 1079) (hl : s.arg.a % 65536 ≠ s.side.lastReq) (hq : s.arg.a % 65536 ≠ (s.side.lastReq + 1) % 65536) :
    s.inSequence cmd served k = s.answer (.sideband (sideMessage cmd 128 (s.arg.a % 65536) 1 (toBytes 2 ((s.side.lastReq + 1) % 65536)))) := by
  simp [inSequence, sideRequest, requestFits_of_le hn, hq, hl, sBadSeq]

theorem inSequence_next (hn : s.arg.bytes.length ≤ 1079) (hq : s.arg.a % 65536 = (s.side.lastReq + 1) % 65536) (hb : s.arg.b = 0) (hc : s.arg.c = 0) (hs : served = true) :
    s.inSequence cmd served k = k s.taken s.sideRequest := by
  simp [inSequence, sideRequest, taken, requestFits_of_le hn, hq, hb, hc, hs]

/-- A reserved CMD is answered with status 2 whatever its FLAGS and STATUS (R83). -/
theorem inSequence_reserved (hn : s.arg.bytes.length ≤ 1079) (hq : s.arg.a % 65536 = (s.side.lastReq + 1) % 65536) :
    s.inSequence cmd true (fun s r => s.respond cmd r sBadCmd []) = s.taken.respond cmd s.sideRequest 2 [] := by
  simp [inSequence, sideRequest, taken, requestFits_of_le hn, hq, sBadCmd]

end

theorem getstat_inSequence {s : State} (hd : s.arg.d = 0) (he : s.arg.e ≤ 8) : Spec.Answers .getstat s (s.inSequence 1 true State.getstat) := by
  have h : exec .getstat s = execGetstat s := rfl
  simp [Spec.Answers, h, execGetstat, hd, Nat.not_lt.2 he]

/-- Each command of the sequence is answered by its place in it (R82). -/
theorem sequenced_inSequence {s : State} {p : Instr × Nat} (hp : p ∈ sequenced) (hg : p.1 = .getstat → s.arg.d = 0 ∧ s.arg.e ≤ 8) :
    ∃ served k, Spec.Answers p.1 s (s.inSequence p.2 served k) := by
  simp only [List.mem_cons, List.not_mem_nil, or_false] at hp
  obtain rfl | rfl | rfl | rfl | rfl | rfl | rfl := hp
  · exact ⟨_, _, getstat_inSequence (hg rfl).1 (hg rfl).2⟩
  all_goals exact ⟨_, _, rfl⟩

/-! ## What the commands answer (R81, R83 to R86) -/

section
variable {u : State} {r : SideRequest}

theorem getstat_answer (h : r.body = []) :
    u.getstat r = u.respond 1 r 0 (toBytes 4 u.bootstat ++ toBytes 4 u.thrstat ++ toBytes 4 (u.linkstat 0) ++ toBytes 4 (u.linkstat 1) ++ toBytes 8 u.time) :=
  if_neg (not_not.2 h)

theorem readlog_answer (hl : r.body.length = 5) (h1 : 1 ≤ ofBytes ((r.body.drop 4).take 1)) (h32 : ofBytes ((r.body.drop 4).take 1) ≤ 32) :
    u.readlog r = u.respond 2 r 0 ((u.log.entries.reverse.filter (fun e => decide (ofBytes (r.body.take 4) ≤ e.seq) && decide (e.seq < ofBytes (r.body.take 4) + ofBytes ((r.body.drop 4).take 1)))).flatMap
      (fun e => (logWords e).flatMap (fun w => toBytes 8 w.toNat))) := by
  have hr : ¬ (ofBytes ((r.body.drop 4).take 1) = 0 ∨ 32 < ofBytes ((r.body.drop 4).take 1)) := by omega
  simp only [readlog, field, List.drop_zero, hl, hr, ne_eq, not_true_eq_false, if_false]

theorem portstatCommand_answer (hl : r.body.length = 1) (hp : ofBytes r.body < 144) : u.portstatCommand r = u.respond 3 r 0 (toBytes 8 (portstat (u.getPort (ofBytes r.body)))) := by
  have hf : field r 0 1 = ofBytes r.body := by rw [field, List.drop_zero, List.take_of_length_le hl.le]
  simp only [portstatCommand, hf, hl, Nat.not_le.2 hp, ne_eq, not_true_eq_false, if_false]

theorem mapread_answer (hl : r.body.length = 5) (hi : ofBytes (r.body.drop 1) < kindLimit (ofBytes (r.body.take 1))) (hk : ofBytes (r.body.take 1) ≠ 9) :
    u.mapread r = u.respond 4 r 0 (((u.silences 65536).entryWords (entryKey (ofBytes (r.body.take 1)) (ofBytes (r.body.drop 1)))).flatMap (fun w => toBytes 8 w.toNat)) := by
  have hf : field r 1 4 = ofBytes (r.body.drop 1) := by rw [field, List.take_of_length_le (by simp [hl])]
  have hg : field r 0 1 = ofBytes (r.body.take 1) := by rw [field, List.drop_zero]
  simp only [mapread, hf, hg, hl, hk, Nat.not_le.2 hi, ne_eq, not_true_eq_false, if_false, false_and, or_self]

/-- FLASH enters its command, whose completion is its answer (R84). -/
theorem flashCommand_enters (h6 : 6 ≤ r.body.length) (hn : r.body.length ≤ 1030) (hs : ofBytes (r.body.take 1) ≤ 1) (h1 : 1 ≤ ofBytes ((r.body.drop 1).take 1)) (h3 : ofBytes ((r.body.drop 1).take 1) ≤ 3)
    (he : ∀ c ∈ u.flash.engine, c.sideband = none) :
    u.flashCommand r = { u with flash := { u.flash with engine := u.flash.engine ++
      [{ slot := ofBytes (r.body.take 1), cmd := ofBytes ((r.body.drop 1).take 1), off := field r 2 4, bytes := r.body.drop 6, sideband := some r.seq }] } } := by
  have range : ¬ (1 < field r 0 1 ∨ field r 1 1 = 0 ∨ 3 < field r 1 1 ∨ 1024 < (r.body.drop 6).length) := by
    rw [field, field, List.drop_zero, List.length_drop]
    omega
  have idle : ¬ u.flash.engine.any (fun c => c.sideband.isSome) = true := by
    simpa using he
  exact (if_neg (Nat.not_lt.2 h6)).trans ((if_neg range).trans (if_neg idle))

theorem resetCommand_idle (h : r.body = []) (he : u.flash.engine = []) : u.resetCommand r = (u.respond 6 r 0 []).coldReset := by
  have hi : (u.respond 6 r 0 []).flash.engine.isEmpty = true := congrArg List.isEmpty he
  exact (if_neg (not_not.2 h)).trans (if_pos hi)

/-- EVACK removes the events that it names, and answers (R82). -/
theorem evack_removes (hl : r.body.length = 2) :
    ∃ events, u.evack r = State.respond { u with side := { u.side with events := events } } 8 r 0 [] ∧ ∀ e ∈ events, e ∈ u.side.events ∧ 32768 ≤ (ofBytes r.body + 65536 - e.1 % 65536) % 65536 := by
  have hf : field r 0 2 = ofBytes r.body := by rw [field, List.drop_zero, List.take_of_length_le hl.le]
  refine ⟨_, if_neg (not_not.2 hl), fun e he => ?_⟩
  obtain ⟨hm, hk⟩ := List.mem_filter.1 he
  rw [hf] at hk
  exact ⟨hm, by simpa using hk⟩

end

/-! ## Outside the sequence: SEQSYNC, events, PLDM and attestation (R80, R82, R90) -/

section
variable {s : State}

theorem seqsync_answer (hb : s.arg.b = 0) (hc : s.arg.c = 0) (h : s.arg.bytes = []) :
    s.seqsync = s.answer (.sideband (sideMessage 7 128 (s.arg.a % 65536) 0 (toBytes 2 s.side.lastReq ++ toBytes 2 (s.side.nextEv - 1) ++ toBytes 2 ((s.side.events.head?.map (·.1)).getD 0)))) := by
  have hf : s.requestFits = true := requestFits_of_le (by simp [h])
  simp [seqsync, sideRequest, hf, hb, hc, h]

theorem eventResend_due {n : Nat} {e : LogEntry} {l : List (Nat × LogEntry)} (he : s.side.events = (n, e) :: l) (h : s.clock.on = false ∨ s.side.sentAt + 100000000 ≤ s.time) :
    s.eventResend = State.answer { s with side := { s.side with sentAt := s.time } } (.sideband (eventMessage n e)) := by
  unfold eventResend
  rw [he]
  exact if_pos h

theorem eventResend_early (hc : s.clock.on = true) (h : s.time < s.side.sentAt + 100000000) : s.eventResend = s := by
  unfold eventResend
  split
  · exact if_neg (by simp [hc, h])
  · rfl

theorem getstat_reserved (hd : s.arg.d = 0) (h8 : 8 < s.arg.e) (h256 : s.arg.e ≤ 256) : Spec.Answers .getstat s s.reservedCommand := by
  have h : exec .getstat s = execGetstat s := rfl
  simp [Spec.Answers, h, execGetstat, hd, h8, h256]

theorem getstat_pldmRequest {type : Nat} (hd : s.arg.d = 65536 + type) : Spec.Answers .getstat s (s.pldmRequest type) := by
  have h : exec .getstat s = execGetstat s := rfl
  simp [Spec.Answers, h, execGetstat, hd]

theorem getstat_pldmRead (h0 : s.arg.d ≠ 0) (hd : s.arg.d < 65536) : Spec.Answers .getstat s (s.pldmRead s.arg.d) := by
  have h : exec .getstat s = execGetstat s := rfl
  simp [Spec.Answers, h, execGetstat, Nat.not_le.2 hd, h0]

theorem pldmRequest_answer {type : Nat} (ht : type ∈ [0, 2]) (hn : s.arg.bytes.length ≤ 1087) :
    s.pldmRequest type = s.answer (.pldmMessage (Config.pldmAnswer type (s.log.entries.reverse.flatMap (fun e => (logWords e).flatMap (fun w => toBytes 8 w.toNat))) s.arg.bytes)) := by
  have hf : mctpFits (1 + s.arg.bytes.length) = true := decide_eq_true (by omega)
  exact if_pos ⟨by simpa using ht, hf⟩

theorem pldmRead_answer {n v : Nat} (h : s.pldmSensor n = some v) : s.pldmRead n = s.answer (.pldm n v) := by
  unfold pldmRead
  rw [h]

theorem spdmReply_answer (hn : s.arg.bytes.length ≤ 1087) (body : List Byte) : s.spdmReply body = s.answer (.spdm body) :=
  if_pos (decide_eq_true (by omega))

theorem getreport_answer (h : s.arg.bytes.length = 32) :
    s.getreport = s.answer (.spdm (s.attestation s.arg.bytes ++ fit 2420 (Config.sign s.boot.digest (fit 32 (Config.sha3 (s.attestation s.arg.bytes)))))) := by
  have hf : mctpFits (1 + s.arg.bytes.length) = true := decide_eq_true (by omega)
  exact (if_neg (not_not.2 hf)).trans (if_neg (not_not.2 h))

end

end Sys2Proof.Machine.State
end

section
/-! PROOF. The statement about the sideband port, from the lemmas about the sequence and the commands. -/

namespace Sys2Proof.Machine

/-- Settles O53: a command in sequence answers what the lemma about it says, and any other what its place in the sequence makes of it. -/
theorem sidebandCommands : Obligations.SidebandCommands := by
  unfold Obligations.SidebandCommands
  intro s q u tells b
  refine ⟨?next, ?reserved, ?pldm, ?sensor, ?sequence, ?seqsync, ?resend, ?early, ?attestation, ?report⟩
  case next =>
    intro hq hb hc
    have next {served : Bool} (cmd : Nat) (k : State → SideRequest → State) (hn : b.length ≤ 1079) (hs : served = true) : s.inSequence cmd served k = k u s.sideRequest :=
      State.inSequence_next hn hq hb hc hs
    refine ⟨?getstat, ?readlog, ?portstat, ?mapread, ?flash, ?reset, ?evack⟩
    case getstat =>
      intro hn hd he
      exact answers_of_eq (State.getstat_inSequence hd he) ((next 1 State.getstat (by simp [hn]) rfl).trans (State.getstat_answer hn))
    case readlog =>
      intro hl h1 h32
      exact answers_of_eq rfl ((next 2 State.readlog (by omega) rfl).trans (State.readlog_answer hl h1 h32))
    case portstat =>
      intro hs hl hp
      exact answers_of_eq rfl ((next 3 State.portstatCommand (by omega) hs).trans (State.portstatCommand_answer hl hp))
    case mapread =>
      intro hs hl hi hk
      exact answers_of_eq rfl ((next 4 State.mapread (by omega) hs).trans (State.mapread_answer hl hi hk))
    case flash =>
      intro h6 hn hs h1 h3 he
      exact ⟨_, _, answers_of_eq rfl ((next 5 State.flashCommand (by omega) rfl).trans (State.flashCommand_enters h6 hn hs h1 h3 he)), rfl, rfl, rfl, rfl⟩
    case reset =>
      intro hn he
      exact answers_of_eq rfl ((next 6 State.resetCommand (by simp [hn]) rfl).trans (State.resetCommand_idle hn he))
    case evack =>
      intro hl
      obtain ⟨events, he, hkept⟩ := State.evack_removes (u := u) (r := s.sideRequest) hl
      exact ⟨_, answers_of_eq rfl ((next 8 State.evack (by omega) rfl).trans he), rfl, hkept⟩
  case reserved =>
    intro hq hn hd h8 h256
    exact answers_of_eq (State.getstat_reserved hd h8 h256) (State.inSequence_reserved hn hq)
  case pldm =>
    intro type ht hn hd
    exact answers_of_eq (State.getstat_pldmRequest hd) (State.pldmRequest_answer ht hn)
  case sensor =>
    intro v h0 hd hv
    exact answers_of_eq (State.getstat_pldmRead h0 hd) (State.pldmRead_answer hv)
  case sequence =>
    intro p hp hg
    obtain ⟨served, k, h⟩ := State.sequenced_inSequence hp hg
    exact ⟨fun hn hl ha => answers_of_eq h (State.inSequence_repeat hn hl ha), fun hn hl hq => answers_of_eq h (State.inSequence_other hn hl hq), fun hn => answers_of_eq h (State.inSequence_long hn)⟩
  case seqsync =>
    intro hb hc hn
    exact answers_of_eq rfl (State.seqsync_answer hb hc hn)
  case resend =>
    intro n e l he h
    exact answers_of_eq rfl (State.eventResend_due he h)
  case early =>
    intro hc h
    exact answers_of_eq rfl (State.eventResend_early hc h)
  case attestation =>
    intro hn
    have reply (body : List Byte) := State.spdmReply_answer hn body
    exact ⟨answers_of_eq rfl (reply _), answers_of_eq rfl (reply _), answers_of_eq rfl (reply _), answers_of_eq rfl (reply _)⟩
  case report =>
    intro hn
    exact answers_of_eq rfl (State.getreport_answer hn)

end Sys2Proof.Machine
end

section
/-! PROOF. The links of the scale-up fabric: what a received flit does, and how ports retrain, come up, fall and are sampled (R62 to R64, R66, R75, R78, R79). -/

namespace Sys2Proof.Machine

/-- A field at bit 0 is a remainder. -/
theorem bits_from_zero (v hi : Nat) : bits v hi 0 = v % 2 ^ (hi + 1) := by
  simp [bits]

namespace State

@[simp] theorem getPort_setPort_same (s : State) (p : Nat) (v : Port) : (s.setPort p v).getPort p = v := by
  simp [getPort, setPort, SMap.get_set]

/-! ## Flits (R62 to R64) -/

/-- A flit that decodes is counted where a byte of it was corrected. -/
abbrev corrected (s : State) (p : Nat) (fixed : Bool) : State := if fixed = true then s.setPort p { s.getPort p with feccor := (s.getPort p).feccor + 1 } else s

/-- ACK, NAK and the stop marks of a flit's header word are applied (R63, R64). -/
abbrev headed (s : State) (p h : Nat) : State := s.applyHeader p (bits h 19 8) (bits h 7 7) [bits h 6 6 == 1, bits h 5 5 == 1, bits h 4 4 == 1, bits h 3 3 == 1]

/-- The slots of a flit are taken, behind what is left of the flit before. -/
abbrev slotted (s : State) (p seq : Nat) (slots : List Byte) : State := (s.setPort p { s.getPort p with rxSeq := seq, part := [] }).takeSlots p 64 ((s.getPort p).part ++ slots)

section
variable {s : State} {p : Nat} {raw : List Byte} (hp : portUp (s.getPort p) = true)
include hp

theorem receiveFlit_undecoded (h : fecDecode raw = none) : s.receiveFlit p raw = s.nak p := by
  simp [receiveFlit, hp, h]

variable {b : List Byte} {fixed : Bool} (hd : fecDecode raw = some (b, fixed))
include hd

theorem receiveFlit_refused (h : crc64 (b.take 228) ≠ ofBytes ((b.drop 228).take 8) ∨ 2 < ofBytes (b.take 4) % 8) : s.receiveFlit p raw = (s.corrected p fixed).nak p := by
  simp [receiveFlit, hp, hd, bits_from_zero, h]

variable (hc : crc64 (b.take 228) = ofBytes ((b.drop 228).take 8))
include hc

theorem receiveFlit_idle (h : ofBytes (b.take 4) % 8 = 1) : s.receiveFlit p raw = (s.corrected p fixed).headed p (ofBytes (b.take 4)) := by
  simp [receiveFlit, hp, hd, bits_from_zero, hc, h]

theorem receiveFlit_retrains (h : ofBytes (b.take 4) % 8 = 2) : s.receiveFlit p raw = ((s.corrected p fixed).headed p (ofBytes (b.take 4))).retrain p := by
  simp [receiveFlit, hp, hd, bits_from_zero, hc, h]

theorem receiveFlit_data (h : ofBytes (b.take 4) % 8 = 0)
    (hq : bits (ofBytes (b.take 4)) 31 20 = ((((s.corrected p fixed).headed p (ofBytes (b.take 4))).getPort p).rxSeq + 1) % 4096) :
    s.receiveFlit p raw =
      (let w := ((s.corrected p fixed).headed p (ofBytes (b.take 4))).slotted p (bits (ofBytes (b.take 4)) 31 20) ((b.drop 4).take 224)
       w.answer (.link p (flitBytes (w.getPort p).txSeq (bits (ofBytes (b.take 4)) 31 20) 0 1 []))) := by
  simp [receiveFlit, hp, hd, bits_from_zero, hc, h, ← hq]

end

/-! ## Training, coming up and going down (R64, R66, R78) -/

theorem portLost_setPort (s : State) (p : Nat) (v : Port) (state : Nat) :
    (s.setPort p v).portLost p state = v.held.foldl (fun u e => u.resend p e) ((s.setPort p v).setPortState p
      { v with state := state, downs := v.downs + 1, replay := [], held := [], part := [], naks := 0, txSeq := 0, rxSeq := 4095, acked := 4095, stops := [false, false, false, false], kept := false }) := by
  simp [portLost]

section
variable {s : State} {p lanes rtt : Nat} (h1 : (s.getPort p).state = 1) (hk : (s.getPort p).kept = false ∨ s.time ≤ (s.getPort p).since + 1000000)
include h1 hk

/-- Training that ends with a good lane, and within 1 ms where the buffer is kept, gives the port a state. -/
theorem trainDone_guard (hl : lanes % 4 ≠ 0) : ¬ ((s.getPort p).state ≠ 1 ∨ lanes % 4 = 0 ∨ ((s.getPort p).kept = true ∧ (s.getPort p).since + 1000000 < s.time)) := by
  obtain hk | hk := hk
  · simp [h1, hl, hk]
  · simp [h1, hl, Nat.not_lt.2 hk]

theorem trainDone_up (hl : lanes % 4 = 3) (hr : rtt ≤ 1000) (hg : s.inGroup p = true) :
    s.trainDone p lanes rtt = ((s.setPortState p { s.getPort p with state := 2, lanes := 3, rtt := rtt, kept := false, ackAt := s.time }).replayAll p).flushHeld p := by
  refine (if_neg (trainDone_guard h1 hk (by omega))).trans ?_
  simp [hl, Nat.not_lt.2 hr, hg]

theorem trainDone_tooLong (hl : lanes % 4 ≠ 0) (hr : 1000 < rtt) :
    s.trainDone p lanes rtt = if (s.getPort p).kept = true then (s.setPort p { s.getPort p with lanes := lanes % 4, rtt := rtt }).portLost p 5
      else s.setPortState p { s.getPort p with state := 5, lanes := lanes % 4, rtt := rtt, kept := false, ackAt := s.time } := by
  refine (if_neg (trainDone_guard h1 hk hl)).trans ?_
  simp [hr]

end

theorem portDown_training {s : State} {p : Nat} (h1 : (s.getPort p).state = 1) : s.portDown p = (s.setPort p { s.getPort p with lanes := 0 }).portLost p 0 := by
  simp [portDown, h1]

/-! ## Time samples (R20, R21, R75) -/

section
variable {s : State} {p rtt err : Nat} {sent : Word} (hp : portUp (s.getPort p) = true) (hs : s.solo = false) (hr : s.runs = true)
include hp hs hr

theorem syncSample_estimates (h : s.boot.stage ≠ 5 ∨ s.clock.set = true) :
    s.syncSample p rtt err sent =
      { s.setPort p { s.getPort p with rtt := rtt, delay := rtt / 2 } with clock := { s.clock with offset := word s.time - (sent + word (rtt / 2)), err := err, lastSync := s.time } } := by
  have later : ¬ (s.boot.stage = 5 ∧ s.clock.set = false) := by
    obtain h | h := h <;> simp [h]
  have guard : ¬ (¬ portUp (s.getPort p) = true ∨ s.solo = true ∨ ¬ s.runs = true) := by simp [hp, hs, hr]
  exact (if_neg guard).trans (if_neg later)

/-- The one setting at step 4 of bring-up, which goes forward only (log 42). -/
theorem syncSample_sets (h5 : s.boot.stage = 5) (hc : s.clock.set = false) :
    s.syncSample p rtt err sent =
      (let first := max s.time (sent + word (rtt / 2)).toNat
       { s.setPort p { s.getPort p with rtt := rtt, delay := rtt / 2 } with
          time := first, clock := { s.clock with set := true, offset := word (first - (sent + word (rtt / 2)).toNat), err := err, lastSync := first } }) := by
  have guard : ¬ (¬ portUp (s.getPort p) = true ∨ s.solo = true ∨ ¬ s.runs = true) := by simp [hp, hs, hr]
  exact (if_neg guard).trans (if_pos ⟨h5, hc⟩)

end
end State
end Sys2Proof.Machine
end

section
/-! PROOF. The statement about the links, from the lemmas about flits, training and time samples; what a retrain, a retry and SYNC_SEND do is the model's own definition of them. -/

namespace Sys2Proof.Machine

/-- Settles O54: each event does what the lemma about its operation says. -/
theorem fabricLinksKeepTheirPorts : Obligations.FabricLinksKeepTheirPorts := by
  unfold Obligations.FabricLinksKeepTheirPorts
  intro s p q lost
  have goesDown (v : Port) (st : Nat) : (s.setPort p v).portLost p st = lost v st := s.portLost_setPort p v st
  refine ⟨fun hp => ⟨?flit, ?naks, ?ack, fun hs hr => ⟨?estimate, ?first⟩⟩, fun h1 hk => ⟨?comesUp, ?tooLong⟩, ?down, ?retry, ?send⟩
  case flit =>
    refine ⟨s.receiveFlit p s.arg.bytes, rfl, ?_⟩
    split
    next h => exact State.receiveFlit_undecoded hp h
    next h =>
      exact ⟨State.receiveFlit_refused hp h, fun hc => ⟨State.receiveFlit_idle hp h hc, State.receiveFlit_retrains hp h hc, State.receiveFlit_data hp h hc⟩⟩
  case naks =>
    intro h8
    exact answers_of_eq rfl (if_pos ⟨hp, h8⟩)
  case ack =>
    intro hr ht
    exact answers_of_eq rfl (if_pos ⟨hp, by simpa using hr, ht⟩)
  case estimate =>
    intro h
    exact answers_of_eq rfl (State.syncSample_estimates hp hs hr h)
  case first =>
    intro h5 hc
    exact answers_of_eq rfl (State.syncSample_sets hp hs hr h5 hc)
  case comesUp =>
    intro hl hc hg
    exact answers_of_eq rfl (State.trainDone_up h1 hk hl hc hg)
  case tooLong =>
    intro hl hc
    exact answers_of_eq rfl ((State.trainDone_tooLong h1 hk hl hc).trans (by rw [goesDown]))
  case down =>
    intro h1 hk
    exact answers_of_eq rfl ((if_pos ⟨h1, hk⟩).trans ((State.portDown_training h1).trans (goesDown _ 0)))
  case retry =>
    intro h0 hr h5 ht
    exact answers_of_eq rfl (if_pos ⟨h0, h5, hr, ht⟩)
  case send =>
    rfl

end Sys2Proof.Machine
end

section
/-! PROOF. Instars: what the device's writes, translations and log entries leave of them, and where a context that leaves the ring leaves its own (R163, R169). -/

namespace Sys2Proof.Machine.State

/-! ## What leaves every instar as it was -/

theorem instars_logEntry (s : State) (kind uclass unit : Nat) (addr detail : Word) : (s.logEntry kind uclass unit addr detail).instars = s.instars := by
  obtain ⟨l, d, o, h, -⟩ := s.writes_logEntry kind uclass unit addr detail
  rw [h]

theorem instars_logTo (s : State) (core town owner va k c : Nat) : (s.logTo core town owner va k c).instars = s.instars := by
  unfold logTo
  split
  · rfl
  · exact instars_logEntry _ _ _ _ _ _

theorem instars_logOnce (s : State) (owner va : Nat) (e : Service) : (s.logOnce owner va e).instars = s.instars := by
  unfold logOnce logWalk
  split
  · rfl
  · split
    · rfl
    · exact instars_logEntry _ _ _ _ _ _

theorem instars_setBytes (bs : List Byte) (s : State) (k : Nat) : (s.setBytes k bs).instars = s.instars := by
  induction bs generalizing s k with
  | nil => rfl
  | cons b bs ih => exact ih (s.setByte k b) (k + 1)

theorem instars_askOwner (s : State) (k : Nat) : (s.askOwner k).instars = s.instars := by
  unfold askOwner askHost
  split
  · split <;> rfl
  · rfl

theorem instars_lookUp (s : State) (iface owner va : Nat) (need : Need) : (s.lookUp iface owner va need).2.instars = s.instars := by
  unfold lookUp
  extract_lets i root r u j
  have hu : u.instars = s.instars := by
    unfold u
    split <;> rfl
  split
  · rfl
  · split
    · rfl
    · split
      · rfl
      · split
        · dsimp only
          split
          · exact (instars_askOwner _ _).trans hu
          · exact hu
        · dsimp only
          split <;> exact hu

theorem instars_workPa (s : State) (iface : Nat) (k : Key) : (s.workPa iface k).2.instars = s.instars := by
  unfold workPa devicePlace
  dsimp only
  split
  · exact (instars_logOnce _ _ _ _).trans (instars_lookUp _ _ _ _ _)
  · exact instars_lookUp _ _ _ _ _

theorem instars_deviceStore (s : State) (owner : Nat) (ws : List (Dest × Word)) : (s.deviceStore owner ws).instars = s.instars := by
  unfold deviceStore
  split
  · rfl
  · exact foldl_keeps instars (fun s e => instars_setBytes _ s _) ws s

/-- An instar's record goes to memory; the instars themselves stay as they were. -/
theorem instars_writeImage (s : State) (iface : Nat) (k : Key) : (s.writeImage iface k).instars = s.instars := by
  have place {r : Except Service Dest} {u : State} (h : s.workPa iface k = (r, u)) : u.instars = s.instars := by
    have hw := s.instars_workPa iface k
    rwa [h] at hw
  unfold writeImage
  split
  next hp =>
    dsimp only
    split
    · exact (instars_deviceStore _ _ _).trans (place hp)
    · exact (instars_logTo _ _ _ _ _ _ _).trans (place hp)
  next hp =>
    have hu := place hp
    split <;> exact hu
  next hp => exact place hp

theorem instars_emptySlot (s : State) : s.emptySlot.instars = s.instars := by
  have page : s.savePage.instars = s.instars := by
    unfold savePage writePage
    split
    · rfl
    · exact foldl_keeps instars (fun s e => instars_setBytes _ s _) _ _
  unfold emptySlot
  exact page

@[simp] theorem instars_focus (s : State) (n k : Nat) : (s.focus n k).instars = s.instars := by
  unfold focus
  dsimp only
  split <;> rfl

/-! ## Leaving the ring -/

theorem getInstar_of_instars {s t : State} (h : t.instars = s.instars) (k : Key) : t.getInstar k = s.getInstar k := by
  rw [getInstar, getInstar, h]

theorem getInstar_setInstar_same (s : State) (k : Key) (i : Instar) : (s.setInstar k i).getInstar k = some i := by
  by_cases h : (s.getInstar k).isSome = true
  case pos =>
    have replaced : (fun p : Key × Instar => p.1 == k) ∘ (fun p => if p.1 = k then (k, i) else p) = (fun p => p.1 == k) := by
      funext p
      by_cases hp : p.1 = k <;> simp [hp]
    obtain ⟨j, hj⟩ := Option.isSome_iff_exists.1 h
    obtain ⟨p, hp, -⟩ := Option.map_eq_some_iff.1 hj
    have hk : p.1 = k := by simpa using List.find?_some hp
    rw [setInstar, if_pos h, getInstar]
    simp only [List.find?_map, replaced, hp, Option.map_some, hk, if_true]
  case neg =>
    have hf : s.instars.find? (fun p => p.1 == k) = none := Option.map_eq_none_iff.1 (Option.not_isSome_iff_eq_none.1 h)
    rw [setInstar, if_neg h, getInstar]
    simp [List.find?_append, hf]

/-- The context's instar stands at its key, with the stores that had still to drain. -/
theorem getInstar_leave (s : State) (k : Key) (i : Instar) : ∃ rest, (s.leave k i).getInstar k = some { i with stores := rest } := by
  refine ⟨_, (getInstar_of_instars ((instars_emptySlot _).trans (instars_writeImage _ _ _)) k).trans (getInstar_setInstar_same _ k _)⟩

/-- The instar as which a context leaves whose load has parked under a RID, in a slot for which v is the context's state (R169, R345). -/
def parkedInstar (v : State) (r : Request) : Instar :=
  { v.mkInstar 2 r.acc.dreg 0xFFFF true (v.ctx.pc + 4) with state := .away r.rid, retryPc := v.ctx.pc, retry := some r.acc }

/-- Where there is room, the context whose load has parked leaves the ring. -/
theorem leaveParked_at {s v : State} {r : Request} {n : Nat} (hm : isMc r.acc.core = false) (hl : (s.focus r.acc.core r.slot).live = true)
    (hw : (s.focus r.acc.core r.slot).ctx.wait = .remote r.rid) (hr : (s.focus r.acc.core r.slot).findRoom = (.at n, v)) :
    (s.leaveParked r).1 = true ∧ (s.leaveParked r).2.instars = (v.leave (Spec.ownKey v n) (v.parkedInstar r)).instars := by
  simp only [leaveParked, hm, Bool.false_eq_true, if_false, hl, hw, hr, ne_eq, not_true_eq_false, instars_focus, true_and]
  rfl

end Sys2Proof.Machine.State
end

section
/-! PROOF. Transactions of other packages at the receiving edge, responses at the source, and transit (R68, R70, R71, R73, R74, R177, R254). -/

namespace Sys2Proof.Machine.State

/-! ## Requests at the edge (R73, R74) -/

/-- The events that are requests, with their KINDs (R69). -/
abbrev requestKinds : List (Instr × Nat) := [(.farRd, 0), (.farWr, 1), (.amo, 2), (.push, 4)]

theorem request_atEdge {s : State} {x : Instr × Nat} (hx : x ∈ requestKinds) : Spec.Answers x.1 s (s.edgeRequest s.arg x.2) := by
  simp only [List.mem_cons, List.not_mem_nil, or_false] at hx
  obtain rfl | rfl | rfl | rfl := hx <;> rfl

section
variable {s : State} {a : Arg} {kind : Nat} (hd : a.txn.dpkg = s.pkgNum) (hk : a.txn.kind = kind)
include hd hk

theorem edgeRequest_late (ha : a.a ≠ 144) (ht : s.inTime a.txn a.b (s.entered a) = false) : s.edgeRequest a kind = s.answerTxn a.txn 8 1 [] := by
  simp [edgeRequest, hd, hk, ha, ht]

variable (ht : s.inTime a.txn a.b (s.entered a) = true)
include ht

theorem edgeRequest_refused (h : s.isLive a.txn.town = false ∨ s.hasGrant a.txn.town 5 = false) : s.edgeRequest a kind = s.answerTxn a.txn 8 2 [] := by
  simp [edgeRequest, hd, hk, ht, h]

theorem edgeRequest_served (hl : s.isLive a.txn.town = true) (hg : s.hasGrant a.txn.town 5 = true) : s.edgeRequest a kind = s.serve a.txn (a.b / 36 % 4) := by
  simp [edgeRequest, hd, hk, ht, hl, hg]

end

/-- A read of at most 8 bytes that has its value is answered OK with it. -/
theorem serve_read {s u : State} {t : Txn} {e : Nat} {lo hi : Word} (hk : t.kind = 0) (hs : t.size < 4)
    (h : s.perform (edgeAccess t e (.load t.size) (2 ^ t.size) (word (ofBytes (t.data.take 8))) (word (ofBytes ((t.data.drop 8).take 8)))) = (.value lo hi, u)) :
    s.serve t e = u.answerTxn t 8 0 (toBytes 8 lo.toNat) := by
  have h5 : t.size ≠ 5 := by omega
  have single : 2 ^ t.size ≠ 16 := (Nat.pow_lt_pow_right one_lt_two hs).ne
  simp [serve, hk, h5, h, single]

/-! ## Messages and barrier tokens (R177, R254) -/

/-- The word that a message of another package is in this one's network (R177). -/
def messageWord (t : Txn) : NetWord :=
  { core := 20000, txport := 3, kind := wbits t.w3 21 20, unit := wbits t.w3 17 4, town := t.town, port := wbits t.w3 1 0, value := word (ofBytes (t.data.take 8)), closing := wbits t.w3 57 57 == 1, spilled := 0 }

theorem message_joins {s : State} {a : Arg} (hd : a.txn.dpkg = s.pkgNum) (hk : wbits a.txn.w3 21 20 = 0) (ht : s.inTime a.txn a.b (s.entered a) = true) (hl : s.isLive a.txn.town = true)
    (hg : s.hasGrant a.txn.town 5 = true) (hh : s.holder 1 (wbits a.txn.w3 17 4) = a.txn.town) : s.message a = { s with net := s.net ++ [messageWord a.txn] } := by
  simp [message, messageWord, hd, hk, ht, hl, hg, hh]

theorem barToken_counts {s : State} {a : Arg} (hd : a.txn.dpkg = s.pkgNum) (hn : a.txn.w2 ≠ 0) : s.barToken a = (s.barArrive 5 a.txn.town 0 (min a.txn.w2.toNat (barMax 5)) []).2 := by
  have counted : ¬ min a.txn.w2.toNat (barMax 5) = 0 := by
    have hw : a.txn.w2.toNat ≠ 0 := fun h => hn (BitVec.eq_of_toNat_eq h)
    have hm : barMax 5 = 100663296 := rfl
    omega
  exact (if_neg (not_not.2 hd)).trans (if_neg counted)

/-! ## Responses (R70, R73) -/

section
variable {s : State} {a : Arg} (hd : a.txn.dpkg = s.pkgNum)
include hd

theorem response_completes {r : Request} (h : s.fabric.requests.find? (isFor a.txn) = some r) : s.response a = (s.completeRequest r a.txn.code a.txn.data).flushAll := by
  simp [response, hd, h]

theorem response_late (h : s.fabric.requests.find? (isFor a.txn) = none) :
    s.response a = State.logEntry { s with fabric := { s.fabric with late := s.fabric.late.filter (fun l => !(l.2.1 == a.txn.rid && l.2.2 == a.txn.score)) } } 8 5 a.b (word a.txn.va) (word a.txn.code) := by
  simp [response, hd, h]

theorem wakeValue_completes {r : Request} (h : s.fabric.requests.find? (fun r => isFor a.txn r && r.parked) = some r) : s.wakeValue a = s.completeRequest r 0 a.txn.data := by
  simp [wakeValue, hd, h]

end

/-- PARKED marks its request, and what waited behind it goes on. -/
abbrev marked (s : State) (t : Txn) : State :=
  State.flushAll { s with fabric := { s.fabric with requests := s.fabric.requests.map (fun r => if isFor t r = true then { r with parked := true } else r) } }

/-- The request for which a context of the ring has still to leave. -/
abbrev parkedWaiter (s : State) (t : Txn) : Option Request := s.fabric.requests.find? (fun r => isFor t r && decide (r.slot < 8) && r.key.isNone)

theorem parkedNotice_none {s : State} {a : Arg} (hd : a.txn.dpkg = s.pkgNum) (h : (s.marked a.txn).parkedWaiter a.txn = none) : s.parkedNotice a = s.marked a.txn := by
  simp only [parkedNotice, hd, ne_eq, not_true_eq_false, if_false, h]

theorem parkedNotice_some {s u : State} {a : Arg} {r : Request} {ok : Bool} (hd : a.txn.dpkg = s.pkgNum) (h : (s.marked a.txn).parkedWaiter a.txn = some r) (hl : (s.marked a.txn).leaveParked r = (ok, u)) :
    s.parkedNotice a = if ok then u else u.postpone .parked a := by
  simp only [parkedNotice, hd, ne_eq, not_true_eq_false, if_false, h, hl]
  cases ok <;> rfl

theorem requestTimeout_completes {s : State} {r : Request} (h : s.fabric.requests.find? (fun r => !r.parked && decide (r.issue + 10000000 ≤ s.time)) = some r) :
    s.requestTimeout = (s.completeRequest r 5 []).flushAll := by
  simp [requestTimeout, h]

/-! ## Transit (R71, R75) -/

theorem forward_goesOn {s : State} {t : Txn} {p q : Nat} (since : Nat) (hh : t.hops < 7) (h : s.transitPort t = some q) :
    s.forward t p since = s.emitWord q since { t with w0 := word (t.w0.toNat + 2 ^ 56), w1 := word (wbits t.w1 63 32 * 2 ^ 32 + (t.transit + (s.getPort p).delay) % 2 ^ 32) } := by
  simp [forward, hh.ne, h]

theorem forward_atLimit {s : State} {t : Txn} (p since : Nat) (hh : t.hops = 7) (hc : classOf t.kind = 0) : s.forward t p since = s.answerTxn t 8 8 [] := by
  simp [forward, hh, hc]

end Sys2Proof.Machine.State
end

section
/-! PROOF. The statement about transactions, from the lemmas about the edge, responses and transit. -/

namespace Sys2Proof.Machine

/-- Settles O55: each event does what the lemma about its operation says. -/
theorem fabricTransactionsAreServed : Obligations.FabricTransactionsAreServed := by
  unfold Obligations.FabricTransactionsAreServed
  intro s t p came
  refine ⟨fun hd => ⟨?requests, ?message, ?barrier, ?response, ?late, ?parked, ?wake⟩, ?forward, ?limit, ?timeout⟩
  case requests =>
    intro x hx hk ha
    have edge := State.request_atEdge (s := s) hx
    refine ⟨fun ht => answers_of_eq edge (State.edgeRequest_late hd hk ha ht), fun ht h => answers_of_eq edge (State.edgeRequest_refused hd hk ht h), fun ht hl hg => ?_⟩
    have served := answers_of_eq edge (State.edgeRequest_served hd hk ht hl hg)
    exact ⟨served, fun lo hi u h0 hs h => answers_of_eq served (State.serve_read (hk.trans h0) hs h)⟩
  case message =>
    intro hk ht hl hg hh
    exact ⟨State.messageWord t, answers_of_eq rfl (State.message_joins hd hk ht hl hg hh), hk, rfl, rfl, rfl, rfl, rfl⟩
  case barrier =>
    intro hn
    exact answers_of_eq rfl (State.barToken_counts hd hn)
  case response =>
    intro r h
    exact answers_of_eq rfl (State.response_completes hd h)
  case late =>
    intro h
    exact answers_of_eq rfl (State.response_late hd h)
  case parked =>
    intro m waits
    refine ⟨fun h => answers_of_eq rfl (State.parkedNotice_none hd h), fun r ok u h hu => ⟨answers_of_eq rfl (State.parkedNotice_some hd h hu), fun n v hm hl hw hr => ?_⟩⟩
    obtain ⟨hok, hi⟩ := State.leaveParked_at hm hl hw hr
    rw [hu] at hok hi
    obtain ⟨rest, hrest⟩ := v.getInstar_leave (Spec.ownKey v n) (v.parkedInstar r)
    exact ⟨hok, _, (State.getInstar_of_instars hi _).trans hrest, rfl, rfl, rfl, rfl⟩
  case wake =>
    intro r h
    exact answers_of_eq rfl (State.wakeValue_completes hd h)
  case forward =>
    intro hd hh q h
    exact answers_of_eq rfl ((if_neg hd).trans (State.forward_goesOn came hh h))
  case limit =>
    intro hd hh hc
    exact answers_of_eq rfl ((if_neg hd).trans (State.forward_atLimit p came hh hc))
  case timeout =>
    intro r h
    exact answers_of_eq rfl (State.requestTimeout_completes h)

end Sys2Proof.Machine
end

section
/-! PROOF. Queues: what a change to a packet leaves of its queue, and how packets are fetched, start and are recorded (R94, R96, R97, R99, R102 to R107, R117). -/

namespace Sys2Proof.Machine.State

/-! ## Packets of a queue after a change -/

theorem getQueue_setPacket_same (s : State) (q : Nat) (p : Packet) :
    (s.setPacket q p).getQueue q = { s.getQueue q with packets := (s.getQueue q).packets.map (fun x => if x.seq = p.seq then p else x) } :=
  getQueue_setQueue_same s q _

/-- A packet as the end of its work leaves it: at its V, no earlier than now, it may complete (R107). -/
def workedPacket (s : State) (p : Packet) (status : Nat) (detail addr : Word) (v : Nat) : Packet :=
  { p with started := true, worked := true, status := status, detail := detail, addr := addr, relAt := max v s.time }

theorem getQueue_workDone_same (s : State) (q : Nat) (p : Packet) (status : Nat) (detail addr : Word) (v : Nat) :
    (s.workDone q p status detail addr v).getQueue q =
      { s.getQueue q with packets := (s.getQueue q).packets.map (fun x => if x.seq = p.seq then s.workedPacket p status detail addr v else x) } :=
  getQueue_setPacket_same _ q _

theorem workDone_mem (s : State) (q : Nat) (p : Packet) (status : Nat) (detail addr : Word) (v : Nat) : (s.workDone q p status detail addr v).mem = s.mem := rfl

/-- No packet of that number has its work under way any more. -/
theorem find?_unworked_workDone (s : State) (q : Nat) (p : Packet) (status : Nat) (detail addr : Word) (v : Nat) :
    ((s.workDone q p status detail addr v).getQueue q).packets.find? (fun x => x.seq == p.seq && !x.worked) = none := by
  rw [getQueue_workDone_same, List.find?_eq_none]
  intro x hx
  obtain ⟨y, -, rfl⟩ := List.mem_map.1 hx
  split
  · simp [workedPacket]
  next hy => simp [hy]

/-- Two changes to the packet of one number: the later one stands. -/
theorem map_replace_replace (l : List Packet) {a : Packet} {n : Nat} (ha : a.seq = n) (b : Packet) :
    (l.map (fun x => if x.seq = n then a else x)).map (fun x => if x.seq = n then b else x) = l.map (fun x => if x.seq = n then b else x) := by
  rw [List.map_map]
  refine List.map_congr_left fun x _ => ?_
  by_cases hx : x.seq = n <;> simp [hx, ha]

/-! ## Fetching (R99, R102, R104) -/

/-- A consumed packet joins those under way, not started. -/
theorem getQueue_consume (s : State) (q seq n : Nat) (ws : List Word) :
    ∃ p, ((s.consume q seq n ws).getQueue q).rdidx = ((s.getQueue q).rdidx + n) % 2 ^ 32 ∧ ((s.consume q seq n ws).getQueue q).cseq = seq ∧
      ((s.consume q seq n ws).getQueue q).packets = (s.getQueue q).packets ++ [p] ∧ p.type = wbits (ws.getD 1 0) 3 0 ∧ p.words = ws.drop 1 ∧ p.started = false := by
  unfold consume
  extract_lets r t num p u
  -- A LAUNCH takes its flight number beside: the queue is in both cases the one that u holds.
  have launch (v : Flights) : State.getQueue { u with flights := v } q = u.getQueue q := rfl
  have hq : (if t = 1 then { u with flights := { u.flights with nextNum := if num = 2 ^ 32 - 1 then 1 else num + 1 } } else u).getQueue q = u.getQueue q := by
    split
    · exact launch _
    · rfl
  rw [hq, getQueue_setQueue_same]
  exact ⟨p, rfl, rfl, rfl, rfl, rfl, rfl⟩

theorem ringSlots_one {s : State} {o k : Nat} {b : List Byte} (h : s.ringRead o k = (.bytes b, s)) : s.ringSlots o k 1 = (.bytes b, s) := by
  simp [ringSlots, h]

/-- Where a queue's next slot to fetch lies. -/
abbrev fetchPlace (s : State) (q : Nat) : Nat := (s.getQueue q).ringbase + 64 * ((s.getQueue q).rdidx % 2 ^ (s.getQueue q).ringlog)

/-- A packet of one slot that passes every check is consumed. -/
theorem fetchPacket_good {s : State} {q : Nat} {b : List Byte} (hb : s.ringRead (s.queueOwner q) (s.fetchPlace q) = (.bytes b, s))
    (hmark : bits (ofBytes (b.take 8)) 7 0 = 0x5A) (hseq : bits (ofBytes (b.take 8)) 63 32 = ((s.getQueue q).cseq + 1) % 2 ^ 32) (hone : bits (ofBytes (b.take 8)) 15 13 = 0)
    (hkick : 1 ≤ ((s.getQueue q).wridx + 2 ^ 32 - (s.getQueue q).rdidx) % 2 ^ 32) (hcrc : crc16 (b.drop 8) = bits (ofBytes (b.take 8)) 31 16)
    (hcause : s.packetCause (s.queueOwner q) (wordsOf 8 b) = none) :
    s.fetchPacket q = s.consume q (((s.getQueue q).cseq + 1) % 2 ^ 32) 1 (wordsOf 8 b) := by
  have fits : ¬ 2 ^ (s.getQueue q).ringlog < (s.getQueue q).rdidx % 2 ^ (s.getQueue q).ringlog + 1 := Nat.not_lt.2 (Nat.mod_lt _ (Nat.two_pow_pos _))
  simp only [fetchPacket, hb, hmark, hseq, hone, Nat.zero_add, and_self, if_true, if_neg fits, if_neg (Nat.not_lt.2 hkick), ringSlots_one hb, hcrc, Nat.mul_one, hcause]

theorem fetchNext_mayFetch {s : State} {q : Nat} (hf : mayFetch (s.getQueue q) = true) (hr : (s.getQueue q).retryAt = 0) : s.fetchNext q = s.fetchPacket q :=
  if_pos ⟨hf, hr⟩

theorem reread_due {s : State} {q : Nat} (hf : mayFetch (s.getQueue q) = true) (hr : (s.getQueue q).retryAt ≠ 0) (ht : (s.getQueue q).retryAt ≤ s.time) :
    s.reread q = (s.setQueue q { s.getQueue q with rereads := (s.getQueue q).rereads + 1, retryAt := 0 }).fetchPacket q :=
  if_pos ⟨hf, hr, ht⟩

/-! ## Starting (R96, R105) -/

/-- A packet as its start leaves it. -/
def startedPacket (s : State) (p : Packet) : Packet := { p with started := true, since := s.time, relAt := s.time }

@[simp] theorem startedPacket_seq (s : State) (p : Packet) : (s.startedPacket p).seq = p.seq := rfl
@[simp] theorem startedPacket_type (s : State) (p : Packet) : (s.startedPacket p).type = p.type := rfl

/-- A packet starts, and its queue's turn among all starts is noted. -/
def startedState (s : State) (q : Nat) (p : Packet) : State :=
  let u := s.setPacket q (s.startedPacket p)
  u.setQueue q { u.getQueue q with turn := u.nextStart }

theorem startedState_mem (s : State) (q : Nat) (p : Packet) : (s.startedState q p).mem = s.mem := rfl

theorem startedState_time (s : State) (q : Nat) (p : Packet) : (s.startedState q p).time = s.time := rfl

theorem startedState_flights (s : State) (q : Nat) (p : Packet) : (s.startedState q p).flights = s.flights := rfl

theorem packets_startedState (s : State) (q : Nat) (p : Packet) :
    ((s.startedState q p).getQueue q).packets = (s.getQueue q).packets.map (fun x => if x.seq = p.seq then s.startedPacket p else x) := by
  rw [startedState, getQueue_setQueue_same, getQueue_setPacket_same]
  rfl

/-- The work of a packet that is no COPY, SEAL or UNSEAL goes on as it starts. -/
theorem startPacket_progress (s : State) (q : Nat) {p : Packet} (h5 : p.type ≠ 5) (h6 : p.type ≠ 6) (h7 : p.type ≠ 7) :
    s.startPacket q p = (s.startedState q p).progress q (s.startedPacket p) := by
  have begun : s.beginPacket q p = s.startedState q p := by
    unfold beginPacket
    split
    · contradiction
    · contradiction
    · contradiction
    · rfl
  unfold startPacket
  split
  · contradiction
  · contradiction
  · contradiction
  · rw [begun]
    rfl

/-- Each packet type with the instruction of its work (R100). -/
abbrev packetInstrs : List (Instr × Nat) :=
  [(.nop, 0), (.launch, 1), (.waitAll, 2), (.waitAny, 3), (.signal, 4), (.copy, 5), (.seal, 6), (.unseal, 7), (.own, 8), (.fencePacket, 9)]

theorem packetInstr_turns {s : State} {x : Instr × Nat} (hx : x ∈ packetInstrs) : Spec.Answers x.1 s (s.packetTurn s.arg.a x.2) := by
  simp only [List.mem_cons, List.not_mem_nil, or_false] at hx
  obtain rfl | rfl | rfl | rfl | rfl | rfl | rfl | rfl | rfl | rfl := hx <;> rfl

section
variable {s : State} {q : Nat} {before : List Packet} {p : Packet}
  (hfirst : firstUnstarted [] (s.getQueue q).packets = some (before, p)) (hen : (s.getQueue q).enable = true) (hrun : (s.getQueue q).halted = false)
  (hturn : ((s.getQueue q).engine ≠ 255 ∧ s.engineNext (s.getQueue q).engine = some q) ∨ ((s.getQueue q).engine = 255 ∧ candidate (s.getQueue q) = false))
  (hmay : mayStart before p = true)
include hfirst hen hrun hturn hmay

/-- The first packet not started may start: an engine's turn has come to its queue, or the queue needs no engine (R96, log 29). -/
theorem startable_first : startable (s.getQueue q) = some p := by
  have served : (s.getQueue q).engine ≠ 255 ∨ candidate (s.getQueue q) = false := hturn.imp And.left And.right
  have runs : ¬ (s.getQueue q).halted = true := by simp [hrun]
  simp only [startable, hfirst]
  exact if_pos ⟨hen, runs, served, hmay⟩

theorem packetTurn_starts : s.packetTurn q p.type = s.startPacket q p := by
  have next : (s.getQueue q).engine = 255 ∨ s.engineNext (s.getQueue q).engine = some q := hturn.symm.imp And.left And.right
  simp only [packetTurn, startNext, startable_first hfirst hen hrun hturn hmay, beq_self_eq_true, true_and, if_pos next]

end

/-- The instruction of a packet's type starts it. -/
theorem packetInstr_starts {s : State} {before : List Packet} {p : Packet} {x : Instr × Nat} (hx : x ∈ packetInstrs) (ht : p.type = x.2)
    (hfirst : firstUnstarted [] (s.getQueue s.arg.a).packets = some (before, p)) (hen : (s.getQueue s.arg.a).enable = true) (hrun : (s.getQueue s.arg.a).halted = false)
    (hturn : ((s.getQueue s.arg.a).engine ≠ 255 ∧ s.engineNext (s.getQueue s.arg.a).engine = some s.arg.a) ∨ ((s.getQueue s.arg.a).engine = 255 ∧ candidate (s.getQueue s.arg.a) = false))
    (hmay : mayStart before p = true) : Spec.Answers x.1 s (s.startPacket s.arg.a p) :=
  answers_of_eq (packetInstr_turns hx) (ht ▸ packetTurn_starts hfirst hen hrun hturn hmay)

theorem progress_idle {s : State} (q : Nat) {p : Packet} (h : p.type = 0 ∨ p.type = 9) : s.progress q p = s.workDone q p 0 0 0 s.time := by
  obtain h | h := h <;> simp only [progress, h]

/-- NOP and FENCE have nothing to do: their work is done as they start (R106, R116). -/
theorem startPacket_idle {s : State} {q : Nat} {p : Packet} (h : p.type = 0 ∨ p.type = 9) :
    s.startPacket q p = (s.startedState q p).workDone q (s.startedPacket p) 0 0 0 s.time :=
  (s.startPacket_progress q (by omega) (by omega) (by omega)).trans (progress_idle q h)

theorem startPacket_idle_mem {s : State} {q : Nat} {p : Packet} (h : p.type = 0 ∨ p.type = 9) : (s.startPacket q p).mem = s.mem := by
  rw [startPacket_idle h, workDone_mem, startedState_mem]

theorem packets_startPacket_idle {s : State} {q : Nat} {p : Packet} (h : p.type = 0 ∨ p.type = 9) :
    ((s.startPacket q p).getQueue q).packets = (s.getQueue q).packets.map (fun x => if x.seq = p.seq then
      { p with started := true, worked := true, status := 0, detail := 0, addr := 0, since := s.time, relAt := s.time } else x) := by
  have worked : (s.startedState q p).workedPacket (s.startedPacket p) 0 0 0 s.time =
      { p with started := true, worked := true, status := 0, detail := 0, addr := 0, since := s.time, relAt := s.time } := by
    simp only [workedPacket, startedPacket, startedState_time, Nat.max_self]
  rw [startPacket_idle h, getQueue_workDone_same, packets_startedState, worked]
  exact map_replace_replace _ (s.startedPacket_seq p) _

/-! ## Records (R103, R107, R117) -/

theorem haltRecord_none {s : State} {q : Nat} (h : (s.getQueue q).haltDue = none) : s.haltRecord q = s := by
  simp only [haltRecord, h]

theorem completePacket_done (s : State) (q : Nat) {p : Packet} (h : p.done = true) : s.completePacket q p = s :=
  if_pos (.inr (.inl h))

/-- The oldest packet's record is visible: DSEQ follows, and the packet is dropped. -/
theorem recordPacket_visible {s : State} {q : Nat} {p : Packet} {rest : List Packet} (hl : (s.getQueue q).packets = p :: rest) (hh : (s.getQueue q).haltDue = none)
    (hd : p.done = true) (hr : p.recorded = true) (ht : p.relAt ≤ s.time) (h0 : p.status = 0) :
    s.recordPacket q = s.setQueue q { s.getQueue q with dseq := p.seq, packets := rest, drain := (s.getQueue q).drain && !rest.isEmpty } := by
  simp [recordPacket, hl, hh, hd, hr, Nat.not_lt.2 ht, h0]

theorem recordPacket_empty {s : State} {q : Nat} (hl : (s.getQueue q).packets = []) (hd : (s.getQueue q).drain = false) : s.recordPacket q = s := by
  simp [recordPacket, hl, hd]

/-- A queue's only packet is done and its record visible: DSEQ follows, and nothing is left to drain. -/
theorem completions_last {s : State} {q : Nat} {p : Packet} (hl : (s.getQueue q).packets = [p]) (hh : (s.getQueue q).haltDue = none)
    (hd : p.done = true) (hr : p.recorded = true) (ht : p.relAt ≤ s.time) (h0 : p.status = 0) :
    s.completions q = s.setQueue q { s.getQueue q with dseq := p.seq, packets := [], drain := false } := by
  have recorded : s.recordPacket q = s.setQueue q { s.getQueue q with dseq := p.seq, packets := [], drain := false } := by
    simpa using recordPacket_visible hl hh hd hr ht h0
  simp only [completions, haltRecord_none hh, hl, List.foldl_cons, List.foldl_nil, completePacket_done s q hd, recorded]
  exact recordPacket_empty (by simp) (by simp)

/-! ## Residency (R97) -/

theorem evictQueue_leaves {s : State} {q : Nat} (he : (s.getQueue q).engine ≠ 255) (hc : candidate (s.getQueue q) = false) :
    s.evictQueue q = s.setQueue q { s.getQueue q with engine := 255, since := 0 } := by
  simp [evictQueue, he, hc]

end Sys2Proof.Machine.State
end

section
/-! PROOF. The statement about fetching, starting and recording, from the lemmas about a queue's operations. -/

namespace Sys2Proof.Machine

/-- Settles O57: each event does to the queue what the lemma about its operation says. -/
theorem packetsAreFetchedAndRecorded : Obligations.PacketsAreFetchedAndRecorded := by
  unfold Obligations.PacketsAreFetchedAndRecorded
  intro s q fetched
  have consumed (u : State) (i : Instr) (hi : Spec.Answers i s (u.fetchPacket q)) : fetched u i := by
    rintro ⟨_, hread, rfl⟩ hmark hseq hone hkick hcrc hcause -
    obtain ⟨p, hrdidx, hcseq, hpackets, htype, hwords, hstarted⟩ := u.getQueue_consume q (((u.getQueue q).cseq + 1) % 2 ^ 32) 1 (State.wordsOf 8 (u.bytesAt (u.fetchPlace q) 64))
    exact ⟨_, p, answers_of_eq hi (State.fetchPacket_good hread hmark hseq hone hkick hcrc hcause), hrdidx, hcseq, hpackets, htype, hwords, hstarted⟩
  refine ⟨⟨?fetch, ?reread⟩, ?start, ?record, rfl, ?evict⟩
  case fetch =>
    intro hf hr
    exact consumed _ _ (answers_of_eq rfl (State.fetchNext_mayFetch hf hr))
  case reread =>
    intro hf hr ht
    exact consumed _ _ (answers_of_eq rfl (State.reread_due hf hr ht))
  case start =>
    intro before p hfirst hen hrun hturn hmay
    have starts (x : Instr × Nat) (hx : x ∈ State.packetInstrs) (ht : p.type = x.2) : Spec.Answers x.1 s (s.startPacket q p) := State.packetInstr_starts hx ht hfirst hen hrun hturn hmay
    refine ⟨starts, fun h => ⟨_, ?_, State.startPacket_idle_mem h, State.packets_startPacket_idle h⟩⟩
    obtain h | h := h
    · simpa [h] using starts (.nop, 0) (by simp) h
    · simpa [h] using starts (.fencePacket, 9) (by simp) h
  case record =>
    intro hh p hl hd hr ht h0
    refine ⟨_, answers_of_eq rfl (State.completions_last hl hh hd hr ht h0), ?_⟩
    rw [State.getQueue_setQueue_same]
    exact ⟨rfl, rfl, rfl⟩
  case evict =>
    intro he hc
    exact answers_of_eq rfl (State.evictQueue_leaves he hc)

end Sys2Proof.Machine
end

section
/-! PROOF. The work of packets: waits that hold or time out, launches, signals, copies, seals and ownership operations (R108 to R115, R146). -/

namespace Sys2Proof.Machine.State

/-! ## Which work a packet's type is (R100) -/

theorem startPacket_launch (s : State) (q : Nat) {p : Packet} (h : p.type = 1) (hf : s.flights.list = []) :
    s.startPacket q p = (s.startedState q p).launchWork q (s.startedPacket p) := by
  have waits : ((s.startedState q p).flights.list.any fun f => f.num == (s.startedPacket p).flight) = false := by rw [startedState_flights, hf, List.any_nil]
  rw [s.startPacket_progress q (by omega) (by omega) (by omega)]
  simp only [progress, startedPacket_type, h, waits, Bool.false_eq_true, if_false]

theorem startPacket_wait (s : State) (q : Nat) {p : Packet} (h : p.type = 2 ∨ p.type = 3) : s.startPacket q p = (s.startedState q p).waitWork q (s.startedPacket p) := by
  rw [s.startPacket_progress q (by omega) (by omega) (by omega)]
  obtain h | h := h <;> simp only [progress, startedPacket_type, h]

theorem startPacket_signal (s : State) (q : Nat) {p : Packet} (h : p.type = 4) : s.startPacket q p = (s.startedState q p).signalWork q (s.startedPacket p) := by
  rw [s.startPacket_progress q (by omega) (by omega) (by omega)]
  simp only [progress, startedPacket_type, h]

theorem startPacket_own (s : State) (q : Nat) {p : Packet} (h : p.type = 8) : s.startPacket q p = (s.startedState q p).ownWork q (s.startedPacket p) := by
  rw [s.startPacket_progress q (by omega) (by omega) (by omega)]
  simp only [progress, startedPacket_type, h]

/-- COPY, SEAL and UNSEAL only start: what ends their work are events of their own (R113, R114). -/
theorem startPacket_begins (s : State) (q : Nat) {p : Packet} (h : p.type = 5 ∨ p.type = 6 ∨ p.type = 7) : s.startPacket q p = s.beginPacket q p := by
  obtain h | h | h := h <;> simp only [startPacket, h]

theorem startPacket_copy (s : State) (q : Nat) {p : Packet} (h : p.type = 5) : s.startPacket q p = (s.startedState q p).copyStart q (s.startedPacket p) := by
  rw [s.startPacket_begins q (.inl h), beginPacket]
  split
  · rfl
  · omega
  · omega
  · contradiction

theorem startPacket_seal (s : State) (q : Nat) {p : Packet} (h : p.type = 6 ∨ p.type = 7) : s.startPacket q p = (s.startedState q p).sealStart q (s.startedPacket p) := by
  rw [s.startPacket_begins q (.inr h), beginPacket]
  split
  · omega
  · rfl
  · rfl
  · obtain h | h := h <;> contradiction

/-! ## Events of a packet whose work is under way -/

theorem waitPass_turn {s : State} {p : Packet} (h : working (s.getQueue s.arg.a) (fun t => t == 2 || t == 3) = some p) (hb : s.arg.b = 0) :
    Spec.Answers .waitPass s (s.waitPass s.arg.a p) := by
  refine answers_of_eq rfl ?_
  simp only [h, if_pos hb]

theorem waitTimeout_turn {s : State} {p : Packet} (h : working (s.getQueue s.arg.a) (fun t => t == 2 || t == 3) = some p) : Spec.Answers .waitTimeout s (s.waitTimeout s.arg.a p) := by
  refine answers_of_eq rfl ?_
  simp only [h]

theorem sealChange_turn {s : State} {p : Packet} (h : working (s.getQueue s.arg.a) (fun t => t == 6 || t == 7) = some p) : Spec.Answers .sealExtentChange s (s.sealChange s.arg.a p) := by
  refine answers_of_eq rfl ?_
  simp only [h]

/-! ## Waits (R110, R111) -/

/-- A packet whose one comparison has been read and holds. -/
def metPacket (p : Packet) : Packet := { p with seen := 1, held := 1, asked := 0 }

/-- The word of the first comparison has its value, and the comparison holds. -/
theorem passFrom_holds {s t : State} {q : Nat} {p : Packet} {w : Word} (hread : s.waitRead (packetUnit q p.seq) (s.packetOwner q) (p.w 4) = (.word (some w), t))
    (hcond : condHolds (wbits (p.w 3) 3 0) w (p.w 5) = true) : s.passFrom q p [0] = (none, { p with seen := p.seen + 1, held := p.held + 1 }, t) := by
  simp [passFrom, hread, hcond]

section
variable {s t : State} {q : Nat} {p : Packet} {w : Word} (hone : wbits (p.w 2) 63 60 = 1) (hseen : p.seen = 0) (hheld : p.held = 0) (hasked : p.asked = 0)
  (hread : s.waitRead (packetUnit q p.seq) (s.packetOwner q) (p.w 4) = (.word (some w), t)) (hcond : condHolds (wbits (p.w 3) 3 0) w (p.w 5) = true)
include hone hseen

theorem unread_one : unread p = [0] := by
  simp [unread, hone, hseen, bits]

omit hseen in
theorem unread_met : unread (metPacket p) = [] := by
  have met : wbits ((metPacket p).w 2) 63 60 = 1 := hone
  have seen : (metPacket p).seen = 1 := rfl
  simp [unread, met, seen, bits]

omit hone in
include hheld hread hcond in
theorem passFrom_met : s.passFrom q { p with asked := 0 } [0] = (none, metPacket p, t) :=
  (passFrom_holds (p := { p with asked := 0 }) hread hcond).trans (by simp [metPacket, hseen, hheld])

include hheld hasked hread hcond

theorem waitPass_all (h : p.type = 2) : s.waitPass q p = t.workDone q (metPacket p) 0 0 0 t.time := by
  have all : (metPacket p).type = 2 ∧ (metPacket p).held = 2 ^ wbits (p.w 2) 63 60 - 1 := ⟨h, by rw [hone]; rfl⟩
  simp only [waitPass, passOn, unread_one hone hseen, if_pos hasked, passFrom_met hseen hheld hread hcond, unread_met hone, ne_eq, not_true_eq_false, if_false, if_pos all]

theorem waitPass_any (h : p.type = 3) : s.waitPass q p = t.workDone q (metPacket p) 0 1 0 t.time := by
  have notAll : ¬ ((metPacket p).type = 2 ∧ (metPacket p).held = 2 ^ wbits (p.w 2) 63 60 - 1) := fun h2 => by
    have := h.symm.trans h2.1
    contradiction
  have any : (metPacket p).type = 3 ∧ (metPacket p).held ≠ 0 := ⟨h, one_ne_zero⟩
  simp only [waitPass, passOn, unread_one hone hseen, if_pos hasked, passFrom_met hseen hheld hread hcond, unread_met hone, ne_eq, not_true_eq_false, if_false, if_neg notAll, if_pos any]
  rfl

end

/-- A pass that is due and ends its packet's wait leaves no timeout to come. -/
theorem waitWork_ends {s t : State} {q : Nat} {p r : Packet} {status v : Nat} {detail addr : Word} (hdue : p.relAt ≤ s.time)
    (h : s.waitPass q p = t.workDone q r status detail addr v) (hr : r.seq = p.seq) : s.waitWork q p = t.workDone q r status detail addr v := by
  have ended := t.find?_unworked_workDone q r status detail addr v
  rw [hr] at ended
  simp only [waitWork, if_pos hdue, h, ended]

theorem waitTimeout_passed {s : State} {q : Nat} {p : Packet} (hl : wbits (p.w 2) 47 0 ≠ 0) (hr : p.reading = false ∨ s.waiting (.agent (packetUnit q p.seq)) = true)
    (ht : p.since + wbits (p.w 2) 47 0 ≤ s.time) : s.waitTimeout q p = s.workDone q p 1 0 0 s.time :=
  if_pos ⟨hl, ht, hr⟩

/-! ## LAUNCH, SIGNAL and OWN (R109, R112, R115, R146) -/

theorem agentReply_none {s : State} {unit : Nat} (hd : s.denied.contains unit = false) (hw : s.waiting (.agent unit) = false) : s.agentReply unit = (none, s) := by
  simp only [agentReply, hd, hw, Bool.false_eq_true, if_false]

theorem launchWork_accepted {s t : State} {q : Nat} {p : Packet} {l : List Nat} (hd : s.denied.contains (packetUnit q p.seq) = false) (hw : s.waiting (.agent (packetUnit q p.seq)) = false)
    (h : s.loadCheck (flightOf q (s.packetOwner q) p) (packetUnit q p.seq) = (.accepted l, t)) :
    s.launchWork q p = t.joinList { flightOf q (s.packetOwner q) p with handles := l } := by
  simp only [launchWork, agentReply_none hd hw, h]

theorem signalWork_written {s t : State} {q v : Nat} {p : Packet}
    (h : s.signalOp 0 (packetUnit q p.seq) (s.packetOwner q) (p.w 3) (wbits (p.w 2) 63 62) (p.w 4) = (.status 0, v, t)) : s.signalWork q p = t.workDone q p 0 0 0 v := by
  simp only [signalWork, h]

theorem ownWork_performed {s t v : State} {q st : Nat} {p : Packet} {image ws : List Word} (hb : s.storesBefore q p = true) (hn : wbits (p.w 2) 2 0 = 7 ∨ s.silenceNow = false)
    (hi : s.ownImage q p = (some image, t)) (h : t.ownPerform 20000 (wbits (p.w 2) 2 0) 1 (p.w 3) (p.w 4) (p.w 5) image = (some (st, ws), v)) :
    s.ownWork q p = v.workDone q p 0 (word st) 0 v.time := by
  have goes : ¬ (¬ s.storesBefore q p = true ∨ (wbits (p.w 2) 2 0 ≠ 7 ∧ s.silenceNow = true)) := by
    rintro (h | ⟨h7, hs⟩)
    · exact h hb
    · obtain h | h := hn
      · exact h7 h
      · simp [h] at hs
  simp only [ownWork, if_neg goes, hi, h]

/-! ## COPY (R113) -/

/-- The command that COPY gives its hub's engine. -/
def copyOf (s : State) (q : Nat) (p : Packet) : CopyCmd :=
  { CopyCmd.blank with dst := va57 (p.w 3), src := va57 (p.w 2), rowb := (p.w 4).toNat, tags := wbits (p.w 5) 63 63 == 1, owner := s.packetOwner q }

/-- The command joins the tail of its hub's queue. -/
theorem hubCopy_copyStart (s : State) (q : Nat) (p : Packet) :
    (s.copyStart q p).hubCopy.toList.getD (q % 4) [] = s.hubCopy.toList.getD (q % 4) [] ++ [(q, s.copyOf q p)] := by
  have hub : q % 4 < 4 := Nat.mod_lt q (by decide)
  simp [copyStart, copyOf, hub]

/-! ## SEAL and UNSEAL (R114) -/

theorem sealStart_held {s : State} {q : Nat} {p : Packet} (h : (sealRun p).all (fun e => s.holder 5 e == s.packetOwner q) = true) : s.sealStart q p = s :=
  if_pos h

/-- The sealed extents once a run is sealed or unsealed. -/
def sealedAfter (s : State) (p : Packet) : List Nat :=
  let rest := s.sealedExt.filter (fun e => !((sealRun p).contains e))
  if p.type = 6 then rest ++ sealRun p else rest

theorem mem_sealedAfter_run (s : State) {p : Packet} {e : Nat} (h : e ∈ sealRun p) : e ∈ s.sealedAfter p ↔ p.type = 6 := by
  by_cases h6 : p.type = 6 <;> simp [sealedAfter, h6, h]

theorem mem_sealedAfter_other (s : State) {p : Packet} {e : Nat} (h : e ∉ sealRun p) : e ∈ s.sealedAfter p ↔ e ∈ s.sealedExt := by
  by_cases h6 : p.type = 6 <;> simp [sealedAfter, h6, h]

/-- The extents of a run change once no flight of the owner is placed and none of them is under scrub. -/
theorem sealChange_changes {s : State} {q : Nat} {p : Packet} (hf : ∀ f ∈ s.flights.list, ¬ (f.owner = s.packetOwner q ∧ placedNow f = true))
    (hs : ∀ e ∈ sealRun p, (s.getEntry (entryKey 5 e)).scrub = false) :
    s.sealChange q p = State.workDone { s with sealedExt := s.sealedAfter p } q p 0 0 0 s.time := by
  refine if_neg ?_
  rintro (h | h)
  · obtain ⟨f, hm, hp⟩ := List.any_eq_true.1 h
    exact hf f hm (by simpa using hp)
  · obtain ⟨e, hm, he⟩ := List.any_eq_true.1 h
    simp [hs e hm] at he

end Sys2Proof.Machine.State
end

section
/-! PROOF. The statement about the work of packets, from the lemmas about each type. -/

namespace Sys2Proof.Machine

/-- Settles O58: a packet's start leads into the work of its type, which does what the lemma about it says. -/
theorem packetWorkIsDone : Obligations.PacketWorkIsDone := by
  unfold Obligations.PacketWorkIsDone
  intro s before p q o p' u₀ u
  -- From here on the packet as it starts and the state in which it starts go by the names that the lemmas give them.
  have hp' : p' = s.startedPacket p := rfl
  have hu : u = s.startedState q p := rfl
  clear_value u p'
  subst hp' hu
  refine ⟨fun hfirst hen hrun hturn hmay => ?starts, fun hwork => ⟨?pass, ?timeout⟩, ?extents⟩
  case starts =>
    have starts (x : Instr × Nat) (hx : x ∈ State.packetInstrs) (ht : p.type = x.2) : Spec.Answers x.1 s (s.startPacket q p) := State.packetInstr_starts hx ht hfirst hen hrun hturn hmay
    refine ⟨?launch, ?wait, ?signal, ?copy, ?sealing, ?own⟩
    case launch =>
      intro ht hf hd hw l t hl
      exact answers_of_eq (starts (.launch, 1) (by simp) ht) ((s.startPacket_launch q ht hf).trans (State.launchWork_accepted hd hw hl))
    case wait =>
      intro w t hone hseen hheld hasked hread hcond
      have due : (s.startedPacket p).relAt ≤ (s.startedState q p).time := Nat.le_refl s.time
      refine ⟨fun ht => ?_, fun ht => ?_⟩
      · have pass := State.waitPass_all (p := s.startedPacket p) hone hseen hheld hasked hread hcond ht
        exact answers_of_eq (starts (.waitAll, 2) (by simp) ht) ((s.startPacket_wait q (.inl ht)).trans (State.waitWork_ends due pass rfl))
      · have pass := State.waitPass_any (p := s.startedPacket p) hone hseen hheld hasked hread hcond ht
        exact answers_of_eq (starts (.waitAny, 3) (by simp) ht) ((s.startPacket_wait q (.inr ht)).trans (State.waitWork_ends due pass rfl))
    case signal =>
      intro ht v t h
      exact answers_of_eq (starts (.signal, 4) (by simp) ht) ((s.startPacket_signal q ht).trans (State.signalWork_written h))
    case copy =>
      intro ht
      exact ⟨_, (s.startedState q p).copyOf q (s.startedPacket p), answers_of_eq (starts (.copy, 5) (by simp) ht) (s.startPacket_copy q ht), State.hubCopy_copyStart _ q _, rfl, rfl, rfl, rfl⟩
    case sealing =>
      intro held
      have sealed (h : p.type = 6 ∨ p.type = 7) : s.startPacket q p = s.startedState q p := (s.startPacket_seal q h).trans (State.sealStart_held held)
      exact ⟨fun ht => answers_of_eq (starts (.seal, 6) (by simp) ht) (sealed (.inl ht)), fun ht => answers_of_eq (starts (.unseal, 7) (by simp) ht) (sealed (.inr ht))⟩
    case own =>
      intro ht hb hn image t st ws v hi h
      exact answers_of_eq (starts (.own, 8) (by simp) ht) ((s.startPacket_own q ht).trans (State.ownWork_performed hb hn hi h))
  case pass =>
    intro w t hb ht hone hseen hheld hasked hread hcond
    exact answers_of_eq (State.waitPass_turn hwork hb) (State.waitPass_all hone hseen hheld hasked hread hcond ht)
  case timeout =>
    intro hl hr ht
    exact answers_of_eq (State.waitTimeout_turn hwork) (State.waitTimeout_passed hl hr ht)
  case extents =>
    intro hwork hf hs
    exact ⟨_, answers_of_eq (State.sealChange_turn hwork) (State.sealChange_changes hf hs), fun e he => s.mem_sealedAfter_run he, fun e he => s.mem_sealedAfter_other he, rfl⟩

end Sys2Proof.Machine
end

section
/-! PROOF. Words of memory: a word reads as it was last written, and a run of words as it was laid down. -/

namespace Sys2Proof.Machine

theorem length_toBytes (n v : Nat) : (toBytes n v).length = n := by
  induction n generalizing v with
  | zero => rfl
  | succ n ih => simp [toBytes, ih]

/-- The bytes of a number read back as the number, as far as they go. -/
theorem ofBytes_toBytes (n v : Nat) : ofBytes (toBytes n v) = v % 256 ^ n := by
  induction n generalizing v with
  | zero => simp [toBytes, ofBytes, Nat.mod_one]
  | succ n ih => calc
      ofBytes (toBytes (n + 1) v) = v % 256 + 256 * (v / 256 % 256 ^ n) := by rw [toBytes, ofBytes, ih, BitVec.toNat_ofNat]
      _ = v % 256 ^ (n + 1) := by rw [Nat.pow_succ', Nat.mod_mul]

namespace State

theorem bytesAt_setBytes_same (s : State) (k : Nat) (bs : List Byte) : (s.setBytes k bs).bytesAt k bs.length = bs := by
  refine List.ext_getElem (by simp [bytesAt]) fun i _ hi => ?_
  simp [bytesAt, byteAt_setBytes, hi]

theorem bytesAt_setBytes_apart (s : State) {k a n : Nat} {bs : List Byte} (h : a + n ≤ k ∨ k + bs.length ≤ a) : (s.setBytes k bs).bytesAt a n = s.bytesAt a n := by
  refine List.map_congr_left fun i hi => ?_
  have apart : ¬ (k ≤ a + i ∧ a + i < k + bs.length) := by
    have := List.mem_range.1 hi
    omega
  rw [byteAt_setBytes, if_neg apart]

theorem wordAt_setWord_same (s : State) (k : Nat) (v : Word) : (s.setWord k v).wordAt k = v := by
  have eight := s.bytesAt_setBytes_same k (toBytes 8 v.toNat)
  rw [length_toBytes] at eight
  rw [wordAt, natAt, setWord, eight, ofBytes_toBytes]
  exact BitVec.eq_of_toNat_eq (by simp [word, Nat.mod_eq_of_lt v.isLt])

theorem wordAt_setWord_apart (s : State) {k a : Nat} (v : Word) (h : a + 8 ≤ k ∨ k + 8 ≤ a) : (s.setWord k v).wordAt a = s.wordAt a := by
  rw [wordAt, natAt, setWord, s.bytesAt_setBytes_apart (by rwa [length_toBytes])]
  rfl

theorem wordAt_of_mem {s t : State} (h : t.mem = s.mem) (k : Nat) : t.wordAt k = s.wordAt k := by
  simp only [wordAt, natAt, bytesAt, byteAt, h]

theorem steady_setWord (s : State) (k : Nat) (v : Word) : (s.setWord k v).steady = s.steady := steady_setBytes _ s k

theorem leaving_setBytes (s : State) (k : Nat) (bs : List Byte) : (s.setBytes k bs).leaving = s.leaving := by
  induction bs generalizing s k with
  | nil => rfl
  | cons b bs ih => exact ih (s.setByte k b) (k + 1)

theorem coreNo_of_steady {s t : State} (h : t.steady = s.steady) : t.coreNo = s.coreNo := congrArg (·.1.1) h
theorem ctx_of_steady {s t : State} (h : t.steady = s.steady) : t.ctx = s.ctx := congrArg (·.1.2.2.2.1) h

/-! ## Words laid down one after another in the local space of the core in view, as OWNQ lays its copy (R407) -/

def layWords (s : State) (off : Nat) (ws : List Word) : State :=
  ((List.range ws.length).zip ws).foldl (fun s e => s.setWord (sramKey s.coreNo (off + 8 * e.1)) e.2) s

theorem steady_layWords (s : State) (off : Nat) (ws : List Word) : (s.layWords off ws).steady = s.steady :=
  foldl_keeps steady (fun s _ => s.steady_setWord _ _) _ s

theorem leaving_layWords (s : State) (off : Nat) (ws : List Word) : (s.layWords off ws).leaving = s.leaving :=
  foldl_keeps (·.leaving) (fun s _ => s.leaving_setBytes _ _) _ s

theorem layWords_concat (s : State) (off : Nat) (ws : List Word) (w : Word) :
    s.layWords off (ws ++ [w]) = (s.layWords off ws).setWord (sramKey s.coreNo (off + 8 * ws.length)) w := by
  rw [← coreNo_of_steady (s.steady_layWords off ws)]
  simp [layWords, List.range_succ, List.zip_append]

theorem wordAt_layWords (s : State) (off : Nat) (ws : List Word) {j : Nat} (hj : j < ws.length) :
    (s.layWords off ws).wordAt (sramKey s.coreNo (off + 8 * j)) = ws.getD j 0 := by
  induction ws using List.reverseRecOn with
  | nil => contradiction
  | append_singleton ws w ih =>
    rw [layWords_concat]
    by_cases h : j = ws.length
    · subst h
      rw [wordAt_setWord_same]
      simp
    · have before : j < ws.length := by
        rw [List.length_append, List.length_singleton] at hj
        omega
      rw [wordAt_setWord_apart _ _ (by unfold sramKey; omega), ih before, List.getD_append _ _ _ _ before]

end State

end Sys2Proof.Machine
end

section
/-! PROOF. Ownership instructions where nothing is outstanding: the operation is performed at issue, and its status written (R128, R406, R407). -/

namespace Sys2Proof.Machine.State

open Sys2Proof.Spec

/-! ## Nothing is outstanding -/

theorem drained_now {s : State} (k : State → State) (h : s.core.combining = []) : s.drained k = k s := by
  simp [drained, drainOwn, h, drainList]

theorem storesDone_quiet {s : State} (scope : Nat) (h : Quiet s) : s.storesDone s.coreNo s.running scope = true := by
  obtain ⟨⟨hlive, -⟩, -, hcombining, hinflight, harrived, hrequests⟩ := h
  simp [storesDone, sentDone, getCore, coreInView, hlive, hcombining, hinflight, harrived, hrequests]

theorem release_quiet {s : State} (scope : Nat) (k : State → State) (h : Quiet s) : s.release scope k = k s := by
  obtain ⟨-, -, hcombining, -⟩ := id h
  rw [release, drained_now _ hcombining, if_pos (storesDone_quiet scope h)]

/-! ## The status goes to rd (R128, R418) -/

theorem next_wx (s : State) (r : Nat) (v : Word) : (s.wx r v).next = { s with ctx := retired s.ctx r v } := by
  rw [wx_eq]
  rfl

theorem leaveAll_none {s : State} (h : s.leaving = []) : s.leaveAll = s := by
  rw [leaveAll, h]
  rfl

section
variable {s t : State} {op rd st : Nat} {a b c : Word} {image ws : List Word} (hplace : op = 5 → s.splitSpan s.coreNo c.toNat 64 = false)
  (h : s.ownPerform s.coreNo op s.owner a b c image = (some (st, ws), t))
include hplace h

theorem ownFinish_performed : s.ownFinish op rd a b c image = ((if st = 0 ∧ ws ≠ [] then t.layWords c.toNat ws else t).wx rd (word st)).next.leaveAll := by
  have free : ¬ (op = 5 ∧ s.splitSpan s.coreNo c.toNat 64 = true) := fun ⟨h5, hs⟩ => by simp [hplace h5] at hs
  rw [ownFinish, if_neg free, h]
  rfl

/-- A status without words: contexts that the operation stops leave once it is written. -/
theorem ownFinish_status (hw : ws = [] ∨ st ≠ 0) : s.ownFinish op rd a b c image = State.leaveAll { t with ctx := retired t.ctx rd (BitVec.ofNat 64 st) } := by
  have none : ¬ (st = 0 ∧ ws ≠ []) := fun ⟨h0, hn⟩ => hw.elim hn (· h0)
  rw [ownFinish_performed hplace h, if_neg none, next_wx]
  rfl

end

/-- A status of OK with its words, where no context is to leave: the words are laid down before it is written. -/
theorem ownFinish_words {s t : State} {op rd : Nat} {a b c : Word} {image ws : List Word} (hplace : op = 5 → s.splitSpan s.coreNo c.toNat 64 = false)
    (h : s.ownPerform s.coreNo op s.owner a b c image = (some (0, ws), t)) (hl : t.leaving = []) :
    s.ownFinish op rd a b c image = ((t.layWords c.toNat ws).wx rd 0).next := by
  have words : (if (0 : Nat) = 0 ∧ ws ≠ [] then t.layWords c.toNat ws else t) = t.layWords c.toNat ws := by
    cases ws with
    | nil => rfl
    | cons w ws => simp
  rw [ownFinish_performed hplace h, words, leaveAll_none (by simp [leaving_layWords, hl])]
  rfl

/-- An ownership instruction with nothing outstanding is performed at its issue. -/
theorem ownSend_quiet {s t : State} {op rd : Nat} {a b c : Word} {image : List Word} (hq : Quiet s) (h : s.ownFinish op rd a b c image = t) (hw : t.live = false ∨ t.ctx.wait ≠ .again 4) :
    s.ownSend op rd a b c image = t := by
  have stands : ¬ (t.live = true ∧ t.ctx.wait = .again 4) := fun ⟨hlive, hwait⟩ => by
    rcases hw with hdead | hw
    · simp [hdead] at hlive
    · exact hw hwait
  have issued : s.release 7 (fun s => if s.async then s.await (.own op rd a b c image) else s.ownFinish op rd a b c image) = t := by
    obtain ⟨-, hasync, -⟩ := id hq
    rw [release_quiet 7 _ hq, if_neg (by simp [hasync]), h]
  rw [ownSend, issued, if_neg stands]

/-- The ownership instructions of R406, each with the number of its operation and its operands. -/
def ownInstrs (s : State) (rd a b c : Nat) : List (Instr × Nat × Word × Word × Word) :=
  [(.give rd a b c, 0, s.rx a, s.rx b, s.rx c), (.accept rd a, 1, s.rx a, 0, 0), (.lend rd a b c, 2, s.rx a, s.rx b, s.rx c), (.returnLoan rd a, 3, s.rx a, 0, 0),
   (.reclaim rd a, 4, s.rx a, 0, 0), (.ownq rd a b c, 5, s.rx a, s.rx b, s.rx c), (.salvage rd a, 6, s.rx a, 0, 0), (.pulse rd, 7, 0, 0, 0)]

/-- A place for OWNQ's copy: aligned, in the scratchpad, and in no bank that changes portion (R407, R197). -/
abbrev CopyPlace (s : State) (c : Word) : Prop := c.toNat % 64 = 0 ∧ c.toNat + 64 ≤ scratchSize s.coreNo s.core ∧ s.splitSpan s.coreNo c.toNat 64 = false

/-- GIVE sends its operation where it reads no image (R129). -/
theorem give_sends {s : State} (rd : Nat) {a b : Nat} (c : Nat) (h : s.readsImage s.owner (s.rx a) (s.rx b) = false) :
    Answers (.give rd a b c) s (s.ownSend 0 rd (s.rx a) (s.rx b) (s.rx c) []) := by
  have arm : exec (.give rd a b c) s = execGive rd a b c s := rfl
  simp [Answers, arm, execGive, giveImage, h]

/-- OWNQ sends its operation where the place of its copy is good (R407). -/
theorem ownq_sends {s : State} (rd a b : Nat) {c : Nat} (h : s.CopyPlace (s.rx c)) : Answers (.ownq rd a b c) s (s.ownSend 5 rd (s.rx a) (s.rx b) (s.rx c) []) := by
  obtain ⟨haligned, hroom, hsplit⟩ := h
  have arm : exec (.ownq rd a b c) s = execOwnq rd a b c s := rfl
  simp [Answers, arm, execOwnq, haligned, hsplit, Nat.not_lt.2 hroom]

theorem ownInstr_sends {s : State} {rd a b c op : Nat} {i : Instr} {x y z : Word} (hi : (i, op, x, y, z) ∈ s.ownInstrs rd a b c)
    (himage : op = 0 → s.readsImage s.owner x y = false) (hplace : op = 5 → s.CopyPlace z) : Answers i s (s.ownSend op rd x y z []) := by
  simp only [ownInstrs, List.mem_cons, Prod.mk.injEq, List.not_mem_nil, or_false] at hi
  obtain ⟨rfl, rfl, rfl, rfl, rfl⟩ | ⟨rfl, rfl, rfl, rfl, rfl⟩ | ⟨rfl, rfl, rfl, rfl, rfl⟩ | ⟨rfl, rfl, rfl, rfl, rfl⟩ | ⟨rfl, rfl, rfl, rfl, rfl⟩ | ⟨rfl, rfl, rfl, rfl, rfl⟩ | ⟨rfl, rfl, rfl, rfl, rfl⟩ | ⟨rfl, rfl, rfl, rfl, rfl⟩ := hi
  · exact give_sends rd c (himage rfl)
  · rfl
  · rfl
  · rfl
  · rfl
  · exact ownq_sends rd a b (hplace rfl)
  · rfl
  · rfl

end Sys2Proof.Machine.State
end

section
/-! PROOF. The statement about ownership instructions, from the lemmas about their issue and their status. -/

namespace Sys2Proof.Machine

/-- Settles O46: each instruction sends its operation, which is performed at once, and what it leaves is read off the lemma about its status. -/
theorem ownershipOperationsAnswer : Obligations.OwnershipOperationsAnswer := by
  unfold Obligations.OwnershipOperationsAnswer
  intro rd a b c op s t i x y z st ws hi hq himage hplace h
  have sends : Spec.Answers i s (s.ownSend op rd x y z []) := State.ownInstr_sends hi himage hplace
  have free : op = 5 → s.splitSpan s.coreNo z.toNat 64 = false := fun h5 => by
    obtain ⟨-, -, hsplit⟩ := hplace h5
    exact hsplit
  refine ⟨fun hw hu => ?status, fun h0 hl => ?words⟩
  case status => exact answers_of_eq sends (State.ownSend_quiet hq (State.ownFinish_status free h hw) hu)
  case words =>
    subst h0
    have steady := t.steady_layWords z.toNat ws
    refine ⟨_, answers_of_eq sends (State.ownSend_quiet hq (State.ownFinish_words free h hl) (.inr (by simp))), ?_, fun j hj _ => ?_⟩
    · rw [State.next_wx, State.ctx_of_steady steady]
    · rw [State.wordAt_of_mem (s := t.layWords z.toNat ws) (by simp)]
      exact t.wordAt_layWords z.toNat ws hj

end Sys2Proof.Machine
end

section
/-! PROOF. The ownership map: handles and entries as they read, and GIVE, ACCEPT, transfers, scrubs and silence of frame extents (R121, R129, R132, R133, R137, R141). -/

namespace Sys2Proof.Machine

/-! ## Handles (R121) -/

theorem hIndex_lt (h : Word) : hIndex h < 1048576 := Nat.mod_lt _ (by decide)

theorem hKey_kind (h : Word) : hKey h / 1048576 = hKind h := by
  have := hIndex_lt h
  unfold hKey State.entryKey
  omega

theorem hKey_index (h : Word) : hKey h % 1048576 = hIndex h := by
  have := hIndex_lt h
  unfold hKey State.entryKey
  omega

/-- An entry whose offer is carried out: its receiver is the holder, under scrub, and after a lend the old holder is a lender (R132, R133). -/
def Entry.received (e : Entry) : Entry :=
  { e with holder := e.offer, offop := 0, offer := 0, offdl := 0, acc := false, scrub := true, prev := 0, lenders := if e.offop = 2 then e.lenders ++ [(e.holder, e.offdl)] else e.lenders }

namespace State

/-! ## Entries: reads after writes -/

@[simp] theorem getEntry_setEntry_same (s : State) (k : Nat) (e : Entry) : (s.setEntry k e).getEntry k = e := by
  simp [getEntry, setEntry, idleEntry, SMap.get_set]

theorem getEntry_setEntry_other (s : State) {k j : Nat} (e : Entry) (h : j ≠ k) : (s.setEntry k e).getEntry j = s.getEntry j := by
  simp [getEntry, setEntry, idleEntry, SMap.get_set, h]

theorem getEntry_of_entries {s t : State} (he : t.entries = s.entries) (hs : t.estate = s.estate) (k : Nat) : t.getEntry k = s.getEntry k := by
  rw [getEntry, getEntry, idleEntry, idleEntry, he, hs]

/-! ## Frame extents: kind 4 (R121), never in use (R125), with no core and no service -/

section
variable {k : Nat} (hk : k / 1048576 = 4)
include hk

theorem busyEntry_frame (s : State) : s.busyEntry k = false := by simp [busyEntry, hk]

theorem putEntry_frame (s : State) (e : Entry) : s.putEntry k e = s.setEntry k e := by simp [putEntry, hk]

theorem transfer_frame (s : State) : s.transfer k = s.setEntry k (s.getEntry k).received := by
  have notOwners : k ≠ entryKey 9 (s.getEntry k).holder := by
    unfold entryKey
    omega
  simp [transfer, coreFromFlight, putEntry_frame hk, Entry.received, scrubbed, hk, notOwners]

theorem acceptedTransfer_frame {s : State} (ha : (s.getEntry k).acc = true) (ho : (s.getEntry k).offop ≠ 0) (hf : s.frozen (s.getEntry k) = false)
    (hd : s.silentDue (s.getEntry k).holder = false) : s.acceptedTransfer k = s.setEntry k (s.getEntry k).received := by
  simp [acceptedTransfer, ha, ho, hf, hd, busyEntry_frame hk, transfer_frame hk]

end

/-! ## GIVE and ACCEPT (R129, R132, R133) -/

section
variable {s : State} {i : Nat} {a : Word} (hgood : goodHandle a = true) (hkind : hKind a = 4) (hfrozen : s.frozen (s.getEntry (hKey a)) = false)
include hgood hkind hfrozen

/-- GIVE by the holder of a frame extent that is neither offered nor lent, to an owner whose heir he is not: the offer stands. -/
theorem giveOp_offers {b : Word} (image : List Word) (hholder : (s.getEntry (hKey a)).holder = i) (hoffop : (s.getEntry (hKey a)).offop = 0) (hlenders : (s.getEntry (hKey a)).lenders = [])
    (hlive : s.isLive b.toNat = true) (hb : b.toNat < 65536) (hsilent : (s.ownerRec b.toNat).silent = false) (hheir : (s.ownerRec b.toNat).heir ≠ i) :
    s.giveOp i a b image = (0, s.setEntry (hKey a) { s.getEntry (hKey a) with offop := 1, offer := b.toNat, offdl := 0 }) := by
  have frame : hKey a / 1048576 = 4 := (hKey_kind a).trans hkind
  have idle : s.stateOf (hKey a) (s.getEntry (hKey a)) = 0 := by simp [stateOf, hoffop, hlenders, busyEntry_frame frame]
  have takes : s.ownerStatus b = stOk := by simp [ownerStatus, Nat.not_le.2 hb, hlive, hsilent]
  have offers : s.offer i (hKey a) b.toNat 1 0 = s.setEntry (hKey a) { s.getEntry (hKey a) with offop := 1, offer := b.toNat, offdl := 0 } := by
    have sameRec (e : Entry) : (s.setEntry (hKey a) e).ownerRec b.toNat = s.ownerRec b.toNat := rfl
    simp [offer, putEntry_frame frame, sameRec, hheir]
  simp [giveOp, hgood, hfrozen, hkind, svcEntry, frame, idle, takes, hholder, offers, stOk]

theorem acceptOp_moves (hoffop : 0 < (s.getEntry (hKey a)).offop) (hoffer : (s.getEntry (hKey a)).offer = i) (hacc : (s.getEntry (hKey a)).acc = false) :
    s.acceptOp i a = (0, s.setEntry (hKey a) (s.getEntry (hKey a)).received) := by
  have frame : hKey a / 1048576 = 4 := (hKey_kind a).trans hkind
  simp [acceptOp, hgood, hfrozen, hoffer, hacc, Nat.ne_of_gt hoffop, busyEntry_frame frame, transfer_frame frame, stOk]

omit hkind in
theorem acceptOp_noOffer (h : (s.getEntry (hKey a)).offop = 0 ∨ (s.getEntry (hKey a)).offer ≠ i) : s.acceptOp i a = (6, s) := by
  simp [acceptOp, hgood, hfrozen, h, stNoOffer]

end

/-! ## An operation before which no silence is due (R419) -/

theorem ownPerform_give {s t : State} {here i st : Nat} {a b c : Word} {image : List Word} (hs : s.silences 65536 = s) (h : s.giveOp i a b image = (st, t)) :
    s.ownPerform here 0 i a b c image = (some (st, []), t) := by
  simp [ownPerform, hs, h]

theorem ownPerform_accept {s t : State} {here i st : Nat} {a b c : Word} {image : List Word} (hs : s.silences 65536 = s) (h : s.acceptOp i a = (st, t)) :
    s.ownPerform here 1 i a b c image = (some (st, []), t) := by
  simp [ownPerform, hs, h]

/-- An operation other than OWNQ whose status is known at once, where no context is to leave: what it leaves, with the status in rd. -/
theorem ownSend_done {s t : State} {op rd st : Nat} {a b c : Word} {image : List Word} (hq : Spec.Quiet s) (h5 : op ≠ 5)
    (h : s.ownPerform s.coreNo op s.owner a b c image = (some (st, []), t)) (hl : t.leaving = []) : s.ownSend op rd a b c image = (t.wx rd (word st)).next := by
  refine ownSend_quiet hq ?_ (.inr (by simp))
  have status := ownFinish_status (rd := rd) (absurd · h5) h (.inl rfl)
  exact status.trans ((congrArg leaveAll (next_wx t rd (word st)).symm).trans (leaveAll_none (by simp [hl])))

/-- What the instruction then leaves to read: the status, the next PC, and the map as the operation leaves it. -/
theorem ownSend_answers {s t : State} {i : Instr} {op rd st : Nat} {a b c : Word} (hrd : rd < 28) (hrd0 : 0 < rd) (hq : Spec.Quiet s) (hi : Spec.Answers i s (s.ownSend op rd a b c [])) (h5 : op ≠ 5)
    (h : s.ownPerform s.coreNo op s.owner a b c [] = (some (st, []), t)) (hl : t.leaving = []) (hctx : t.ctx = s.ctx) :
    ∃ u, Spec.Answers i s u ∧ u.rx rd = word st ∧ u.ctx.pc = s.ctx.pc + 4 ∧ ∀ j, u.getEntry j = t.getEntry j := by
  refine ⟨_, answers_of_eq hi (ownSend_done hq h5 h hl), ?_, by simp [hctx], fun j => getEntry_of_entries (by simp) (by simp) j⟩
  rw [rx_next, rx_wx _ _ _ _ hrd, if_pos ⟨rfl, hrd0.ne'⟩]

/-! ## Silence, returns and scrubs as events (R135, R137, R141) -/

theorem fallSilent_due {s : State} {o : Nat} (hlive : s.isLive o = true) (hpint : (s.ownerRec o).pint ≠ 0) (hsilent : (s.ownerRec o).silent = false)
    (hdue : (s.ownerRec o).lastPulse + 4 * (s.ownerRec o).pint ≤ s.time) :
    s.fallSilent o = { State.tellSilence { ((s.freezeEntries o).dropMarks o (fun _ => true)).setOwner o { s.ownerRec o with silent := true } with time := (s.ownerRec o).lastPulse + 4 * (s.ownerRec o).pint } o 0x40 with time := s.time } :=
  if_pos ⟨hlive, hpint, hsilent, hdue⟩

theorem returnTransfer_quiescent {s : State} {k : Nat} (hr : s.returning.contains (k, (s.getEntry k).holder) = true) (hf : s.frozen (s.getEntry k) = false)
    (hd : s.silentDue (s.getEntry k).holder = false) (hb : s.busyEntry k = false) : s.returnTransfer k = s.doReturn k :=
  if_pos ⟨hr, by simp [hf], by simp [hd], by simp [hb]⟩

/-- Lines of the frame that the host holds are asked for first (R50). -/
theorem scrubDone_asks {s : State} {k : Nat} (he : (s.getEntry k).scrub = true) (hh : s.heldOfFrame k ≠ []) :
    s.scrubDone k = (s.heldOfFrame k).foldl (fun (u : State) h => u.askHost h.1 h.2.1 true) s := by
  simp [scrubDone, he, hh]

theorem scrubDone_frame {s : State} {k : Nat} (hk : k / 1048576 = 4) (he : (s.getEntry k).scrub = true) (hh : s.heldOfFrame k = []) (hr : s.scrubReady k = true) :
    s.scrubDone k = (s.zeroStore (k % 1048576 * 2097152) ((k % 1048576 + 1) * 2097152)).setEntry k { s.getEntry k with scrub := false } := by
  simp [scrubDone, scrubEffect, he, hh, hr, hk]

theorem byteAt_zeroStore (s : State) (lo hi k : Nat) : (s.zeroStore lo hi).byteAt k = if lo ≤ k ∧ k < hi then 0 else s.byteAt k := by
  have cleared : (s.zeroStore lo hi).mem = (s.clearMem lo hi).mem := mem_freeEvals ((s.clearMem lo hi).clearTags lo hi) _
  rw [← byteAt_clearMem, byteAt, byteAt, cleared]

/-! ## An operation at its home (R127) -/

theorem ownArrive_performed {u v : State} {op rd st : Nat} {a b c : Word} {image : List Word} (hlive : u.live = true) (hwait : u.ctx.wait = .own op rd a b c image)
    (h : u.ownPerform u.coreNo op u.owner a b c image = (some (st, []), v)) (hplace : op = 5 → u.splitSpan u.coreNo c.toNat 64 = false) :
    u.ownArrive = State.leaveAll { v with ctx := Spec.retired v.ctx rd (BitVec.ofNat 64 st) } := by
  rw [← ownFinish_status hplace h (.inl rfl)]
  simp only [ownArrive, hlive, hwait, h]

end State

end Sys2Proof.Machine
end

section
/-! PROOF. The statements about the moves of frame extents and the events of the ownership map, from the lemmas about its operations. -/

namespace Sys2Proof.Machine

/-- Settles O47: GIVE's offer and ACCEPT's transfer are each one write of the extent's entry, and a refusal writes none. -/
theorem holdersMoveByOffer : Obligations.HoldersMoveByOffer := by
  unfold Obligations.HoldersMoveByOffer
  intro rd a b c s hrd hrd0 hq hl hsilences hgood hkind k e n to? hfrozen
  refine ⟨?offers, ?moves, ?noOffer⟩
  case offers =>
    intro hholder hoffop hlenders hlive hn hsilent hheir
    have noImage : s.readsImage s.owner (s.rx a) (s.rx b) = false := by simp [State.readsImage, hkind]
    obtain ⟨u, hu, hstatus, hpc, hentries⟩ := State.ownSend_answers hrd hrd0 hq (State.give_sends rd c noImage) (by decide)
      (State.ownPerform_give hsilences (State.giveOp_offers hgood hkind hfrozen [] hholder hoffop hlenders hlive hn hsilent hheir)) hl rfl
    exact ⟨u, hu, hstatus, hpc, (hentries k).trans (s.getEntry_setEntry_same k _), fun j hj => (hentries j).trans (s.getEntry_setEntry_other _ hj)⟩
  case moves =>
    intro hoffop hoffer hacc
    obtain ⟨u, hu, hstatus, hpc, hentries⟩ := State.ownSend_answers (i := .accept rd a) hrd hrd0 hq rfl (by decide) (State.ownPerform_accept hsilences (State.acceptOp_moves hgood hkind hfrozen hoffop hoffer hacc)) hl rfl
    refine ⟨u, hu, hstatus, hpc, ?_, fun j hj => (hentries j).trans (s.getEntry_setEntry_other _ hj)⟩
    rw [hentries k, s.getEntry_setEntry_same k, ← hoffer]
    rfl
  case noOffer =>
    intro h
    exact State.ownSend_answers (i := .accept rd a) hrd hrd0 hq rfl (by decide) (State.ownPerform_accept hsilences (State.acceptOp_noOffer hgood hfrozen h)) hl rfl

/-- Settles O56: each event answers with what the lemma about its operation says. -/
theorem ownershipEventsMoveHolders : Obligations.OwnershipEventsMoveHolders := by
  unfold Obligations.OwnershipEventsMoveHolders
  intro s o k e
  have kind : k / 1048576 = hKind s.arg.w := hKey_kind s.arg.w
  have index : k % 1048576 = hIndex s.arg.w := hKey_index s.arg.w
  have scrubs (hl : s.leaving = []) : Spec.Answers .scrubComplete s (s.scrubDone k) := answers_of_eq rfl (by rw [State.leaveAll_none hl])
  refine ⟨?silence, ?transfer, ?returns, ?asks, ?zeroes, ?home, ?together⟩
  case silence =>
    intro hlive hpint hsilent hdue
    exact answers_of_eq rfl (State.fallSilent_due hlive hpint hsilent hdue)
  case transfer =>
    intro hkind _ hacc hoffop hfrozen hdue
    exact ⟨_, answers_of_eq rfl (State.acceptedTransfer_frame (kind.trans hkind) hacc hoffop hfrozen hdue), s.getEntry_setEntry_same k _, fun j hj => s.getEntry_setEntry_other _ hj⟩
  case returns =>
    intro hreturning hfrozen hdue hbusy
    exact answers_of_eq rfl (State.returnTransfer_quiescent hreturning hfrozen hdue hbusy)
  case asks =>
    intro _ _ hscrub hl hheld
    exact answers_of_eq (scrubs hl) (State.scrubDone_asks hscrub hheld)
  case zeroes =>
    intro hkind _ hscrub hl hheld hready
    refine ⟨_, answers_of_eq (scrubs hl) (State.scrubDone_frame (kind.trans hkind) hscrub hheld hready), State.getEntry_setEntry_same _ k _, fun j => ?_⟩
    rw [← index]
    exact s.byteAt_zeroStore _ _ j
  case home =>
    intro u op rd a b c image st v hlive hwait hperform hplace hc
    have acts : Spec.Answers .ownershipOperationAtHome s (u.ownArrive.focus s.coreNo s.running) := answers_of_eq rfl (if_neg hc)
    exact answers_of_eq acts (by rw [State.ownArrive_performed hlive hwait hperform hplace])
  case together =>
    intro hc
    exact answers_of_eq rfl (if_pos hc)

end Sys2Proof.Machine
end

section
/-! PROOF. Flights and slots: what a saved gang leaves of its list, and how a slot draws its item and starts or resumes it (R24, R142, R148, R152, R153, R155, R156, R158, R165, R167, R189). -/

namespace Sys2Proof.Machine.State

/-! ## Flights and due passes (R148) -/

theorem list_kickPass (s : State) (o : Nat) : (s.kickPass o).flights.list = s.flights.list := by
  unfold kickPass
  split <;> rfl

theorem mem_passes_kickPass_self (s : State) (o : Nat) : o ∈ (s.kickPass o).flights.passes := by
  unfold kickPass
  split
  next h => exact List.contains_iff_mem.1 h
  next => exact List.mem_append_right _ (List.mem_singleton_self o)

theorem mem_passes_kickPass {s : State} {o : Nat} (p : Nat) (h : o ∈ s.flights.passes) : o ∈ (s.kickPass p).flights.passes := by
  unfold kickPass
  split
  · exact h
  · exact List.mem_append_left _ h

theorem list_coresFreed (l : List Nat) (s : State) : (s.coresFreed l).flights.list = s.flights.list := by
  refine foldl_keeps (fun t => t.flights.list) (fun t n => ?_) l s
  split
  · exact list_kickPass _ _
  · rfl

/-- A pass that is due stays due as cores become free. -/
theorem mem_passes_coresFreed {o : Nat} (l : List Nat) {s : State} (h : o ∈ s.flights.passes) : o ∈ (s.coresFreed l).flights.passes := by
  induction l generalizing s with
  | nil => exact h
  | cons n l ih =>
    refine ih ?_
    dsimp only
    split
    · exact mem_passes_kickPass _ h
    · exact h

theorem getLast?_joinList (s : State) (f : Flight) : (s.joinList f).flights.list.getLast? = some { f with joined := s.time } := by
  rw [joinList, list_kickPass]
  exact List.getLast?_concat

theorem mem_passes_joinList (s : State) (f : Flight) : f.owner ∈ (s.joinList f).flights.passes := mem_passes_kickPass_self _ _

/-! ## A stopped gang is saved (R156, R189) -/

/-- The flight as which a gang of which every cocoon has been written rejoins its list. -/
def savedFlight (f : Flight) (cocoons : List (Nat × Nat × Nat × Nat)) (ties : List Tie) : Flight :=
  { f with groups := [], age := 0, marks := [], switchAt := none, deadline := 0, shape := f.groups.map List.length, cocoons := cocoons, ties := ties, state := .saved }

theorem map_getD_range {α β : Type} (d : α) (f : α → β) (l : List α) : (List.range l.length).map (fun n => f (l.getD n d)) = l.map f := by
  refine List.ext_getElem (by simp) (fun n h₁ h₂ => ?_)
  have hn : n < l.length := by simpa using h₂
  simp [hn]

/-- Once the gang's cores are drained and quiet, and every cocoon's pages can be written, it joins its list saved, and its cores are free. -/
theorem gangSaved_saved {s u v : State} {n : Nat} {f : Flight} {good : List ((Nat × Nat × Nat × Nat) × List (Nat × Nat))}
    (hf : (s.gangStop n).flights.list.find? (fun f => f.num == n) = some f) (hstopped : (s.gangStop n).stopped f = true) (hgroups : f.groups ≠ [])
    (hdrained : f.groups.flatten.foldl (fun (v : State) c => v.drainCore c) (s.gangStop n) = v) (hquiet : f.groups.flatten.all v.coreQuiet = true) (hstored : v.gangStored f = true)
    (hpages : v.gangPages f .write (pagesOf f .write) f.cocoons = (some (good, []), u)) :
    ∃ w cocoons ties, s.gangSaved n = (joinList w (savedFlight f cocoons ties)).coresFreed f.groups.flatten := by
  have kept : (List.range f.groups.length).filter (fun _ => true) = List.range f.groups.length := List.filter_true _
  have left : (List.range f.groups.length).isEmpty = false := by simp [hgroups]
  have shape : (List.range f.groups.length).map (fun g => (f.groups.getD g []).length) = f.groups.map List.length := map_getD_range [] List.length f.groups
  unfold gangSaved
  simp only [hf, hstopped, hdrained, hquiet, hstored, hpages, not_true_eq_false, or_self, if_false, List.map_nil, firsts, List.contains_nil, Bool.not_false, kept, left, shape, Bool.false_eq_true]
  exact ⟨_, _, _, rfl⟩

/-! ## Slots draw (R167) -/

theorem draw_fromRings {s u : State} {n k idle : Nat} {i : Item} (hempty : s.slotOf n k = .empty idle) (hscrub : (s.getEntry (entryOfCore n)).scrub = false)
    (hacc : (s.getEntry (entryOfCore n)).acc = false) (hleaves : s.coreLeaves n = false) (hwaits : s.workWaits n k = false) (htether : s.tetheredReady n = none)
    (hpinned : SMap.get [] s.rings (pinnedKey n) = []) (hdraw : s.drawFrom (s.coreOwner n) n k (dieOf n) [3, 2, 1, 0] = (some i, u)) :
    s.draw n k = u.drew n k i (dieOf n) := by
  simp [draw, hempty, hscrub, hacc, hleaves, hwaits, htether, hpinned, hdraw]

theorem steal_fromNeighbour {s u : State} {n k idle d : Nat} {i : Item} (hempty : s.slotOf n k = .empty idle) (hscrub : (s.getEntry (entryOfCore n)).scrub = false)
    (hacc : (s.getEntry (entryOfCore n)).acc = false) (hleaves : s.coreLeaves n = false) (hwaits : s.workWaits n k = false) (hidle : 512 ≤ idle)
    (hsteal : s.stealFrom (s.coreOwner n) n k (neighbours (dieOf n)) = (some (i, d), u)) : s.steal n k = u.drew n k i d := by
  simp [steal, hempty, hscrub, hacc, hleaves, hwaits, Nat.not_lt.2 hidle, hsteal]

/-! ## A drawn task starts (R158) -/

theorem taskStart_starts {u v : State} {h fl pr d : Nat} {ev : Option (Nat × Nat)} {ws : List Word} (hlive : u.live = false) (hwaits : u.workWaits u.coreNo u.running = false)
    (hdrawn : u.core.slots.toList.getD u.running (.empty 0) = .drawn (.task h fl pr ev) d) (hdenied : u.denied = []) (hfree : (u.freeSlot u.owner u.workDie).isSome = true)
    (hread : u.readPacket u.coreNo u.owner h = (.ok ws, v)) (hgood : malformed ws v.core.clim = false) :
    u.taskStart = joins { v.wakeCore v.coreNo with live := true, ctx := v.startCtx h fl pr ev ws } := by
  have free : (u.freeSlot u.owner u.workDie).isNone = false := by simpa using hfree
  have asked : u.denied.contains (u.coreNo * 4 + u.running) = false := by simp [hdenied]
  unfold taskStart
  simp only [hlive, hdrawn, free, hwaits, asked, hread, hgood, Bool.false_eq_true, or_self, if_false]

section
variable (s : State) (h flight prio : Nat) (ws : List Word)

theorem startCtx_handle : (s.startCtx h flight prio none ws).x.toList.getD 9 0 = word h := by
  simp [startCtx]

theorem startCtx_payload {j : Nat} (hj : j < 8) : (s.startCtx h flight prio none ws).x.toList.getD (10 + j) 0 = (payload ws).getD j 0 := by
  have inRange : 10 + j < 28 := by omega
  have passed : 10 + j ≤ 17 := by omega
  simp [startCtx, inRange, passed]

end

/-! ## A drawn instar resumes (R165, R400) -/

theorem getInstar_freeInstar_self (s : State) (k : Key) : (s.freeInstar k).getInstar k = none := by
  simp [getInstar, freeInstar]

section
variable (s : State)

theorem instars_joins : s.joins.instars = s.instars := by
  unfold joins
  split <;> rfl

theorem live_joins : s.joins.live = s.live := by
  unfold joins
  split <;> rfl

theorem ctx_joins : s.joins.ctx = s.ctx := by
  unfold joins
  split <;> rfl

end

/-- The state in which an instar goes on in the running slot: its core awake, its slot freed, its work under way with it. -/
def resumed (s : State) (k : Key) (i : Instar) : State := ((((s.wakeCore s.coreNo).freeInstar k).unkey k).restore i).joins

section
variable (s : State) (k : Key) (i : Instar)

theorem live_resumed : (s.resumed k i).live = true := live_joins _

theorem ctx_resumed : (s.resumed k i).ctx = resumedCtx i := ctx_joins _

/-- Its slot is free. -/
theorem getInstar_resumed : (s.resumed k i).getInstar k = none :=
  (getInstar_of_instars (instars_joins _) k).trans (getInstar_freeInstar_self _ k)

end

theorem instarResume_resumes {u w : State} {m f d e : Nat} {i : Instar} (hlive : u.live = false) (hwaits : u.workWaits u.coreNo u.running = false)
    (hdrawn : u.core.slots.toList.getD u.running (.empty 0) = .drawn (.instar m d f) e) (hi : u.getInstar { owner := u.owner, die := d, slot := m } = some i) (hready : i.state = .ready)
    (hread : u.peekWork u.owner u.coreNo u.running (workVa d m) = (.good, w)) :
    u.instarResume = w.resumed { owner := u.owner, die := d, slot := m } i := by
  unfold instarResume
  rw [hlive, hdrawn]
  split
  next heq =>
    cases heq
    extract_lets k gone va
    rw [hi]
    split
    next j hj =>
      cases hj
      rw [if_neg (not_not.2 hready), if_neg (by simp [hwaits])]
      split
      next hw =>
        cases hread.symm.trans hw
        rfl
      next hw => cases hread.symm.trans hw
      next hw => cases hread.symm.trans hw
    next hnone => cases hnone
  next hother => exact absurd rfl (hother _ _ _ _ rfl)

/-- What a register holds as an instar goes on: the value that it waited for, after SUSP zero, else what was saved. -/
theorem resumedRegs_getD (i : Instar) {r : Nat} (h0 : 0 < r) (h28 : r < 28) :
    (resumedRegs i).toList.getD r 0 = if r = i.dreg ∧ (i.why = 2 ∨ i.why = 3) then i.wakev else if r = i.dreg ∧ i.why = 0 then 0 else if bits i.mask (r - 1) (r - 1) = 1 then i.regs.toList.getD r 0 else 0 := by
  unfold resumedRegs
  extract_lets x
  have saved : x.toList.getD r 0 = if bits i.mask (r - 1) (r - 1) = 1 then i.regs.toList.getD r 0 else 0 := by
    simp [x, h28, h0.ne']
  have laid (v : Word) : (x.setIfInBounds i.dreg v).toList.getD r 0 = if r = i.dreg then v else x.toList.getD r 0 := by
    simp [List.getElem_set, h28, @eq_comm _ r]
  rw [apply_ite (fun y : Vector Word 28 => y.toList.getD r 0), apply_ite (fun y : Vector Word 28 => y.toList.getD r 0), laid, laid, ← saved]
  by_cases hr : r = i.dreg
  case pos =>
    have hd : i.dreg ≠ 0 := hr ▸ h0.ne'
    simp only [hr, hd, if_true, true_and, ne_eq, not_false_eq_true, and_true]
  case neg => simp only [hr, false_and, if_false, ite_self]

end Sys2Proof.Machine.State
end

section
/-! PROOF. The statement about flights and slots, from the lemmas about their operations. -/

namespace Sys2Proof.Machine

/-- Settles O59: the conditions of each clause decide its event's branches, and what a saved gang, a started task and a resumed instar are is read off the lemmas about them. -/
theorem flightsAndSlotsGoOn : Obligations.FlightsAndSlotsGoOn := by
  unfold Obligations.FlightsAndSlotsGoOn
  intro s n k
  refine ⟨?pass, fun f hf => ⟨?ends, ?deadline, ?stops⟩, ?saved, fun idle hempty hscrub hacc hleaves hwaits => ⟨?draws, ?steals⟩, ?slot⟩
  case pass =>
    intro hdue hheard hseal hsilent
    have runs : ¬ (¬ s.flights.passes.contains n ∨ (s.ownerRec n).silent ∨ s.silentDue n ∨ s.sealWaits n) := by
      rw [hdue, hheard, hseal, hsilent]
      decide
    exact answers_of_eq rfl (if_neg runs)
  case ends =>
    intro hplaced hremains
    have act : Spec.Answers .flightEnd s (s.endFlight n) := rfl
    exact answers_of_eq act (by simp [State.endFlight, hf, hplaced, hremains, word])
  case deadline =>
    intro hplaced hydl hlate
    have act : Spec.Answers .yieldDeadline s (s.yieldDeadline n) := rfl
    exact answers_of_eq act (by simp [State.yieldDeadline, hf, hplaced, hydl, hlate, word])
  case stops =>
    intro hstopped
    have act : Spec.Answers .gangSwitch s (s.gangStop n) := rfl
    exact answers_of_eq act (by simp [State.gangStop, hf, hstopped])
  case saved =>
    intro f good u hf hstopped hgroups atRest
    obtain ⟨hquiet, hstored, hpages⟩ := atRest
    obtain ⟨w, cocoons, ties, saves⟩ := State.gangSaved_saved hf hstopped hgroups rfl hquiet hstored hpages
    refine ⟨_, { State.savedFlight f cocoons ties with joined := w.time }, answers_of_eq rfl saves, ?_, rfl, rfl, rfl, rfl, State.mem_passes_coresFreed _ (State.mem_passes_joinList w _)⟩
    rw [State.list_coresFreed]
    exact State.getLast?_joinList _ _
  case draws =>
    intro i u htether hpinned hdraw
    exact answers_of_eq rfl (State.draw_fromRings hempty hscrub hacc hleaves hwaits htether hpinned hdraw)
  case steals =>
    intro i d u hidle hsteal
    exact answers_of_eq rfl (State.steal_fromNeighbour hempty hscrub hacc hleaves hwaits hidle hsteal)
  case slot =>
    intro u hlive hwaits
    refine ⟨fun h fl pr d ws v hdrawn hdenied hfree hread hgood => ?starts, fun m f d e i w hdrawn hi hready hread => ?resumes⟩
    case starts =>
      have acts : Spec.Answers .taskStart s (u.taskStart.focus s.coreNo s.running) := rfl
      rw [State.taskStart_starts hlive hwaits hdrawn hdenied hfree hread hgood] at acts
      exact ⟨_, acts, rfl, rfl, rfl, rfl, rfl, v.startCtx_handle h fl pr ws, fun j hj => v.startCtx_payload h fl pr ws hj⟩
    case resumes =>
      have acts : Spec.Answers .instarResume s (u.instarResume.focus s.coreNo s.running) := rfl
      rw [State.instarResume_resumes hlive hwaits hdrawn hi hready hread] at acts
      have ctx := w.ctx_resumed { owner := u.owner, die := d, slot := m } i
      refine ⟨_, acts, w.live_resumed _ i, congrArg (·.pc) ctx, congrArg (·.stat) ctx, congrArg (·.rstack) ctx, congrArg (·.flight) ctx, w.getInstar_resumed _ i, fun r h0 h28 => ?_⟩
      rw [ctx]
      exact State.resumedRegs_getD i h0 h28

end Sys2Proof.Machine
end

section
/-! PROOF. Operands by fields (R278, R317 to R331): what each table of instructions makes of its operands, and the three ways in which a form that may name ports goes. -/

namespace Sys2Proof.Machine

/-! ## Results as the tables of the statements write them (R295, R318 to R322, R331) -/

theorem sext_eq (v : Word) {n : Nat} (h0 : 0 < n) (h : n ≤ 64) : sext v n = (v.setWidth n).signExtend 64 := by
  have half : v.toNat % 2 ^ n < 2 ^ (n - 1) ↔ (v.setWidth n).msb = false := by
    rw [BitVec.msb_eq_false_iff_two_mul_lt, BitVec.toNat_setWidth]
    have double : 2 ^ n = 2 * 2 ^ (n - 1) := by rw [← Nat.pow_succ', Nat.succ_eq_add_one, Nat.sub_add_cancel h0]
    omega
  refine BitVec.eq_of_toNat_eq ?_
  rw [BitVec.toNat_signExtend]
  unfold sext
  split
  next hp => simp [half.1 hp, word]
  next hn =>
    have negative : (v.setWidth n).msb = true := by
      rw [← Bool.not_eq_false, ← half]
      exact hn
    have low : v.toNat % 2 ^ n < 2 ^ n := Nat.mod_lt _ (Nat.two_pow_pos n)
    have wide : 2 ^ n ≤ 2 ^ 64 := Nat.pow_le_pow_right (by decide) h
    rw [negative]
    simp [word]
    omega

theorem setWidth_word {n : Nat} (h : n ≤ 64) (m : Nat) : (word m).setWidth n = BitVec.ofNat n m := BitVec.setWidth_ofNat_of_le h m

theorem imm12_eq (i : Nat) : imm12 i = (BitVec.ofNat 12 i).signExtend 64 := by
  rw [imm12, sext_eq _ (by decide) (by decide), setWidth_word (by decide)]

theorem upper_eq (i : Nat) : upper i = (BitVec.ofNat 32 (i * 4096)).signExtend 64 := by
  rw [upper, sext_eq _ (by decide) (by decide), setWidth_word (by decide)]

theorem zext_eq (v : Word) (n : Nat) : zext v n = (v.setWidth n).setWidth 64 :=
  BitVec.eq_of_toNat_eq (by simp [zext, word])

/-- AUIPC's sum is of 57 bits (R322). -/
theorem auipc_eq (pc : BitVec 57) (i : Nat) : zext (pc.setWidth 64 + upper i) 57 = (pc + ((BitVec.ofNat 32 (i * 4096)).signExtend 64).setWidth 57).setWidth 64 := by
  rw [zext_eq, upper_eq, BitVec.setWidth_add _ _ (by decide), BitVec.setWidth_setWidth_of_le _ (by decide), BitVec.setWidth_eq]

/-- A branch's offset counts words (R331). -/
theorem branchOffset_eq (off : Nat) : BitVec.ofNat 57 (sext (word (4 * off)) 13).toNat = (BitVec.ofNat 13 (4 * off)).signExtend 57 := by
  rw [sext_eq _ (by decide) (by decide), setWidth_word (by decide), BitVec.ofNat_toNat]
  ext i hi
  simp [BitVec.getElem_signExtend, BitVec.getElem_setWidth, show i < 64 by omega]

theorem slt_eq (a b : Word) : bool (a.slt b) = if a.toInt < b.toInt then 1 else 0 := by
  simp [bool, BitVec.slt]

theorem ult_eq (a b : Word) : bool (a.ult b) = if a.toNat < b.toNat then 1 else 0 := by
  simp [bool, BitVec.ult]

theorem eq_zero_iff_toNat (b : Word) : b = 0 ↔ b.toNat = 0 := ⟨fun h => h ▸ rfl, fun h => BitVec.eq_of_toNat_eq h⟩

theorem mul_eq (a b : Word) : a * b = BitVec.ofNat 64 (a.toNat * b.toNat) :=
  BitVec.eq_of_toNat_eq (by simp)

theorem divS_eq (a b : Word) :
    divS a b = if b.toNat = 0 then 0xFFFFFFFFFFFFFFFF else if a.toInt = -2 ^ 63 ∧ b.toInt = -1 then a else BitVec.ofInt 64 (a.toInt.tdiv b.toInt) := by
  simp only [divS, eq_zero_iff_toNat]
  rfl

theorem divU_eq (a b : Word) : divU a b = if b.toNat = 0 then 0xFFFFFFFFFFFFFFFF else BitVec.ofNat 64 (a.toNat / b.toNat) := by
  simp only [divU, eq_zero_iff_toNat]
  rfl

theorem remS_eq (a b : Word) :
    remS a b = if b.toNat = 0 then a else if a.toInt = -2 ^ 63 ∧ b.toInt = -1 then 0 else BitVec.ofInt 64 (a.toInt - b.toInt * a.toInt.tdiv b.toInt) := by
  simp only [remS, eq_zero_iff_toNat]

theorem remU_eq (a b : Word) : remU a b = if b.toNat = 0 then a else BitVec.ofNat 64 (a.toNat - b.toNat * (a.toNat / b.toNat)) := by
  rw [← Nat.mod_eq_sub_mul_div]
  simp only [remU, eq_zero_iff_toNat]
  rfl

theorem countTrailing_eq (a : Word) : countTrailing a = (List.range 64).findIdx fun j => a.getLsbD j := by
  have inside : (List.range 64).findIdx (fun j => a.getLsbD j) ≤ 64 := List.findIdx_le_length.trans_eq List.length_range
  rw [countTrailing, List.find?_eq_getElem?_findIdx]
  rcases inside.lt_or_eq with h | h
  · rw [List.getElem?_range h, Option.getD_some]
  · rw [h]
    rfl

theorem countLeading_eq (a : Word) : countLeading a = (List.range 64).findIdx fun j => a.getLsbD (63 - j) := by
  unfold countLeading
  split
  next h => exact (List.findIdx_eq_length_of_false (xs := List.range 64) fun _ _ => by rw [h]; exact BitVec.getLsbD_zero).symm
  next h =>
    have nonzero : a.toNat ≠ 0 := fun h0 => h (BitVec.eq_of_toNat_eq h0)
    have top : a.toNat.log2 < 64 := (Nat.log2_lt nonzero).2 a.isLt
    refine ((List.findIdx_eq (by rw [List.length_range]; omega)).2 ⟨?_, fun j hj => ?_⟩).symm
    · rw [List.getElem_range, show 63 - (63 - a.toNat.log2) = a.toNat.log2 by omega]
      exact Nat.testBit_log2 nonzero
    · rw [List.getElem_range]
      exact Nat.testBit_lt_two_pow (Nat.lt_log2_self.trans_le (Nat.pow_le_pow_right (by decide) (by omega)))

theorem popCount_eq (a : Word) : popCount a = (List.range 64).countP fun j => a.getLsbD j := List.countP_eq_length_filter.symm

namespace State

open Sys2Proof.Spec

/-! ## The operand form of each table's instructions -/

theorem binaryOps_form (rd a b : Nat) (s : State) : ∀ p ∈ binaryOps ++ divisionOps, Answers (p.1 rd a b) s (s.binary rd a b p.2) := by
  have same {i : Instr} {f g : Word → Word → Word} (h : Answers i s (s.binary rd a b f)) (e : ∀ x y, f x y = g x y) : Answers i s (s.binary rd a b g) :=
    (funext fun x => funext (e x) : f = g) ▸ h
  simp only [binaryOps, divisionOps, List.cons_append, List.nil_append, List.forall_mem_cons, List.not_mem_nil, false_imp_iff, implies_true, and_true]
  refine ⟨rfl, rfl, rfl, rfl, rfl, rfl, rfl, rfl, same rfl slt_eq, same rfl ult_eq, same rfl fun x y => ?_, same rfl fun x y => ?_, same rfl fun x y => ?_, same rfl fun x y => ?_, same rfl mul_eq,
    rfl, rfl, rfl, rfl, same rfl divS_eq, same rfl divU_eq, same rfl remS_eq, same rfl remU_eq⟩
  · simp [BitVec.sle]
  · simp [BitVec.sle]
  · simp [BitVec.ule]
  · simp [BitVec.ule]

theorem unaryOps_form (rd a : Nat) (s : State) : ∀ p ∈ unaryOps, Answers (p.1 rd a) s (s.unary rd a p.2) := by
  have same {i : Instr} {f g : Word → Word} (h : Answers i s (s.unary rd a f)) (e : ∀ x, f x = g x) : Answers i s (s.unary rd a g) := (funext e : f = g) ▸ h
  simp only [unaryOps, List.forall_mem_cons, List.not_mem_nil, false_imp_iff, implies_true, and_true]
  exact ⟨same rfl fun x => congrArg word (countLeading_eq x), same rfl fun x => congrArg word (countTrailing_eq x), same rfl fun x => congrArg word (popCount_eq x),
    same rfl fun x => sext_eq x (by decide) (by decide), same rfl fun x => zext_eq x 32⟩

theorem immediateOps_form (rd a imm : Nat) (s : State) :
    ∀ p ∈ immediateOps, Answers (p.1 rd a imm) s (s.unary rd a fun x => p.2 x ((BitVec.ofNat 12 imm).signExtend 64) (imm % 64)) := by
  have same {i : Instr} {f g : Word → Word} (h : Answers i s (s.unary rd a f)) (e : ∀ x, f x = g x) : Answers i s (s.unary rd a g) := (funext e : f = g) ▸ h
  rw [← imm12_eq]
  simp only [immediateOps, List.forall_mem_cons, List.not_mem_nil, false_imp_iff, implies_true, and_true]
  exact ⟨rfl, rfl, rfl, rfl, same rfl fun x => slt_eq x _, same rfl fun x => ult_eq x _, rfl, rfl, rfl⟩

theorem roundedOps_form (w rd a b rm : Nat) (s : State) : ∀ p ∈ roundedOps, Answers (p.1 w rd a b rm) s (s.fpBinary w rd a b (p.2 (widthFmt w) (s.scalarRnd rm) false)) := by
  simp only [roundedOps, List.forall_mem_cons, List.not_mem_nil, false_imp_iff, implies_true, and_true]
  exact ⟨rfl, rfl, rfl, rfl⟩

/-- A branch of the table tests its condition. -/
theorem branchOps_form (a b off : Nat) (s : State) : ∀ p ∈ branchOps, ∃ c : Word → Word → Bool, (∀ x y, c x y = true ↔ p.2 x y) ∧ Answers (p.1 a b off) s (s.branch a b off c) := by
  simp only [branchOps, List.forall_mem_cons, List.not_mem_nil, false_imp_iff, implies_true, and_true]
  refine ⟨⟨_, fun x y => ?_, rfl⟩, ⟨_, fun x y => ?_, rfl⟩, ⟨_, fun x y => ?_, rfl⟩, ⟨_, fun x y => ?_, rfl⟩, ⟨_, fun x y => ?_, rfl⟩, ⟨_, fun x y => ?_, rfl⟩⟩
  · simp
  · simp
  · simp [BitVec.slt]
  · simp [BitVec.slt]
  · simp [BitVec.ult]
  · simp [BitVec.ult]

/-! ## The three ways of a form (R169, R278) -/

theorem portForm_withPorts {s : State} {i : Instr} {srcs : List Nat} {d : Nat} {k : State → State} (h : Answers i s (s.withPorts srcs d k)) : PortForm s i srcs d (k s) := by
  refine ⟨fun htake hput => ?runs, fun hlacks => ?waits, fun hregs hput => ?room⟩
  case runs => exact answers_of_eq h (s.withPorts_ready k htake hput)
  case waits =>
    have lacks : ¬ s.canTake srcs = true ∨ (portMask srcs ≠ 0 ∧ ¬ s.canPut d = true) := by simpa using hlacks
    exact ⟨_, answers_of_eq h (if_pos lacks)⟩
  case room =>
    have ready : s.canTake srcs = true := by simp [canTake, hregs]
    have full : s.withPorts srcs d k = s.await (.again 2) := by simp [withPorts, ready, hregs, hput]
    exact answers_of_eq h full

section
variable {s : State} {i : Instr} {rd a b w : Nat}

theorem portForm_result {v : State → Word} (h : Answers i s (s.result rd v)) : PortForm s i [] rd (s.put rd (v s)).next := portForm_withPorts h

theorem portForm_unary {f : Word → Word} (h : Answers i s (s.unary rd a f)) : PortForm s i [a] rd ((s.take a).2.put rd (f (s.take a).1)).next := portForm_withPorts h

theorem portForm_binary {f : Word → Word → Word} (h : Answers i s (s.binary rd a b f)) :
    PortForm s i [a, b] rd (((s.take a).2.take b).2.put rd (f (s.take a).1 ((s.take a).2.take b).1)).next := portForm_withPorts h

theorem portForm_fpUnary {f : Word → Nat × Flags} (h : Answers i s (s.fpUnary rd a f)) :
    PortForm s i [a] rd (((s.take a).2.orFlags (f (s.take a).1).2).put rd (word (f (s.take a).1).1)).next := portForm_withPorts h

theorem portForm_fpBinary {f : Nat → Nat → Nat × Flags} (h : Answers i s (s.fpBinary w rd a b f)) :
    let r := f (widthArg w (s.take a).1) (widthArg w ((s.take a).2.take b).1)
    PortForm s i [a, b] rd ((((s.take a).2.take b).2.orFlags r.2).put rd (word r.1)).next := portForm_withPorts h

end

theorem take_ctx_pc (s : State) (r : Nat) : (s.take r).2.ctx.pc = s.ctx.pc := by
  unfold take
  split
  · rfl
  · split
    · rfl
    · split <;> rfl

/-- A branch with its words goes where its condition on them says (R331). -/
theorem branch_goes {s : State} {i : Instr} {a b off : Nat} {c : Word → Word → Bool} (h : Answers i s (s.branch a b off c)) (t : BitVec 57)
    (ht : t = if c (s.take a).1 ((s.take a).2.take b).1 then s.ctx.pc + (BitVec.ofNat 13 (4 * off)).signExtend 57 else s.ctx.pc + 4) : PortForm s i [a, b] 0 (goTo ((s.take a).2.take b).2 t) := by
  have pc : ((s.take a).2.take b).2.ctx.pc = s.ctx.pc := (take_ctx_pc _ _).trans (take_ctx_pc _ _)
  have goes := portForm_withPorts h
  dsimp only at goes
  rw [next, pc, branchOffset_eq] at goes
  rw [ht]
  split at goes
  next hc => rwa [if_pos hc]
  next hc => rwa [if_neg hc]

/-! ## What a port gives and takes (R175, R178) -/

theorem rxOf_take_port {s : State} {q : Nat} {w : PortWord} {ws : List PortWord} (hq : q < 4) (hw : s.heldWords = []) (h : s.rxOf q = w :: ws) :
    (s.take (28 + q)).1 = w.value ∧ (s.take (28 + q)).2.rxOf q = ws ∧ (s.take (28 + q)).2.core.closed.toList.getD q false = w.closing ∧
      (s.take (28 + q)).2.ctx = s.ctx ∧ ∀ r, r < 4 → r ≠ q → (s.take (28 + q)).2.rxOf r = s.rxOf r := by
  rw [s.take_port hw h]
  refine ⟨rfl, ?_, ?_, rfl, fun r hr hrq => ?_⟩
  · simp [rxOf, Vector.toList_setIfInBounds, hq]
  · simp [Vector.toList_setIfInBounds, hq]
  · simp [rxOf, Vector.toList_setIfInBounds, List.getElem?_set_ne (Ne.symm hrq)]

theorem wbits_port (e : Word) : wbits e 1 0 = e.toNat % 4 := by simp [wbits, bits]

/-- A word through a destination that names a place in this package joins the network, and the send queue that it names counts it. -/
theorem sendWord_here {s : State} {e : Word} (h : wbits e 60 48 = s.pkgNum) (v : Word) (closing : Bool) :
    s.sendWord e v closing =
      { s with core := { s.core with tx := s.core.tx.setIfInBounds (e.toNat % 4) (s.core.tx.toList.getD (e.toNat % 4) 0 + 1) },
               net := s.net ++ [{ core := s.coreNo, txport := e.toNat % 4, kind := wbits e 62 61, unit := wbits e 17 4, town := if wbits e 47 32 = 0 then s.owner else wbits e 47 32,
                                  port := e.toNat % 4, value := v, closing := closing, spilled := 0 }] } := by
  rw [sendWord, if_pos h, wbits_port]

theorem put_port {s : State} {q : Nat} (v : Word) (h : s.destBad (s.ctx.pdest.toList.getD q 0) false = false) : s.put (28 + q) v = s.sendWord (s.ctx.pdest.toList.getD q 0) v false := by
  have port : ¬ 28 + q < 28 := by omega
  simp only [put, if_neg port, Nat.add_sub_cancel_left, h, Bool.false_eq_true, if_false]

end State

end Sys2Proof.Machine
end

section
/-! PROOF. The statement about operands by ports, from the lemmas about the operand forms. -/

namespace Sys2Proof.Machine

/-- Settles O10: each instruction is its operand form, which runs, waits for words or waits for room as the form's lemma says. -/
theorem portOperandsAreTaken : Obligations.PortOperandsAreTaken := by
  unfold Obligations.PortOperandsAreTaken
  refine ⟨?forms, fun q w ws s hq hw h => State.rxOf_take_port hq hw h, ?sends⟩
  case forms =>
    intro rd a b imm off w rm s x u y v sent flagged f arg mode
    refine ⟨?binary, ?unary, ?immediate, ?upper, ?branch, ?float⟩
    case binary => exact fun p hp => State.portForm_binary (State.binaryOps_form rd a b s p hp)
    case unary => exact fun p hp => State.portForm_unary (State.unaryOps_form rd a s p hp)
    case immediate => exact fun _ p hp => (State.portForm_unary (State.immediateOps_form rd a imm s p hp) :)
    case upper =>
      intro _
      rw [← auipc_eq, ← upper_eq]
      exact ⟨(State.portForm_result (i := .lui rd imm) rfl :), (State.portForm_result (i := .auipc rd imm) rfl :)⟩
    case branch =>
      intro _ p hp
      obtain ⟨c, hc, form⟩ := State.branchOps_form a b off s p hp
      exact ⟨fun h => State.branch_goes form _ (if_pos ((hc x y).2 h)).symm, fun h => State.branch_goes form _ (if_neg (mt (hc x y).1 h)).symm⟩
    case float =>
      intro _
      refine ⟨fun p hp => ?_, fun _ => ?_, ?_, ?_, ?_, ?_, fun c => ⟨?_, ?_⟩⟩
      · exact (State.portForm_fpBinary (State.roundedOps_form w rd a b rm s p hp) :)
      · exact (State.portForm_fpBinary (i := .fmadd w rd a b rm) rfl :)
      · exact (State.portForm_fpUnary (i := .fsqrt w rd a rm) rfl :)
      · exact (State.portForm_unary (i := .fclass w rd a) rfl :)
      · exact (State.portForm_fpBinary (i := .fmin w rd a b) rfl :)
      · exact (State.portForm_fpBinary (i := .fmax w rd a b) rfl :)
      · exact (State.portForm_fpBinary (i := .fcmp w rd a b c) rfl :)
      · exact (State.portForm_fpUnary (i := .fcvt w rd a c rm) rfl :)
  case sends =>
    intro q v s e p hbad hpkg
    rw [State.put_port v hbad, State.sendWord_here hpkg]

end Sys2Proof.Machine
end

section
/-! PROOF. Messages: a word stored in local space, and what MSEND, MSENDC, MWAIT and MPEEK do on registers (R178, R246, R403 to R405). -/

namespace Sys2Proof.Machine

namespace State

open Sys2Proof.Spec

/-! ## A word stored in local space (R246) -/

theorem setBytes_eq (s : State) (k : Nat) (bs : List Byte) : s.setBytes k bs = { s with mem := (s.setBytes k bs).mem } := by
  induction bs generalizing s k with
  | nil => rfl
  | cons b bs ih => exact ih (s.setByte k b) (k + 1)

theorem mem_setBytes_of_mem {s t : State} (h : t.mem = s.mem) (k : Nat) (bs : List Byte) : (t.setBytes k bs).mem = (s.setBytes k bs).mem := by
  induction bs generalizing s t k with
  | nil => exact h
  | cons b bs ih => exact ih (congrArg (SMap.set 0 · k b) h) (k + 1)

theorem setOffsets_range' (bs : List Byte) (s : State) (k j : Nat) : s.setOffsets k ((List.range' j bs.length).zip bs) = s.setBytes (k + j) bs := by
  induction bs generalizing s j with
  | nil => rfl
  | cons b bs ih => exact ih (s.setByte (k + j) b) (j + 1)

theorem setOffsets_offsets (s : State) (k : Nat) (bs : List Byte) : s.setOffsets k (offsets bs) = s.setBytes k bs := by
  rw [offsets, List.range_eq_range', setOffsets_range', Nat.add_zero]

/-- A word stored in local space changes memory as a write of the word, and poison. -/
theorem storeLocal_word (s : State) (k : Nat) (v : Word) : ∃ p, s.storeLocal k (offsets (toBytes 8 v.toNat)) = { s with mem := (s.setWord k v).mem, poison := p } := by
  have stored : s.setOffsets k (offsets (toBytes 8 v.toNat)) = { s with mem := (s.setWord k v).mem } := (s.setOffsets_offsets k _).trans (s.setBytes_eq k _)
  exact ⟨_, by rw [storeLocal, stored, unpoison]⟩

theorem byteAt_setWord_apart (s : State) {k j : Nat} (v : Word) (h : j < k ∨ k + 8 ≤ j) : (s.setWord k v).byteAt j = s.byteAt j := by
  rw [setWord, byteAt_setBytes, length_toBytes, if_neg (by omega)]

/-! ## MSEND and MSENDC (R403) -/

/-- The count that a send leaves in a route entry. -/
def sentCount (e : Word) (closing : Bool) : Nat := if closing then 0 else min (wbits e 31 18 + 1) 0x3FFF

theorem wbits_sentAfter (e : Word) (closing : Bool) : wbits (sentAfter e closing) 31 18 = sentCount e closing := by
  have fits : sentCount e closing ≤ 0x3FFF := by
    unfold sentCount
    split <;> omega
  have high := e.isLt
  have after : sentAfter e closing = word (e.toNat / 2 ^ 32 * 2 ^ 32 + sentCount e closing * 2 ^ 18 + wbits e 17 0) := rfl
  rw [after]
  simp only [wbits, bits, word, BitVec.toNat_ofNat]
  omega

/-- The place of the route entry that an index register names. -/
def routeKey (s : State) (a : Nat) : Nat := sramKey s.coreNo (s.ctx.rtb.toNat + 8 * ((s.rx a).toNat % 64))

/-- The route table of the running context lies in the scratchpad, no part of it in a bank that a SPLIT change moves. -/
abbrev TableHere (s : State) : Prop := s.splitSpan s.coreNo s.ctx.rtb.toNat 512 = false ∧ s.ctx.rtb.toNat + 512 ≤ scratchSize s.coreNo s.core

/-- A route entry that names a place in this package, with room in its send queue. -/
abbrev SendsHere (s : State) (e : Word) : Prop := s.destBad e true = false ∧ wbits e 60 48 = s.pkgNum ∧ s.txRoom (e.toNat % 4) = true

section
variable {s : State} {a b : Nat} (ha : a < 28) (htable : s.TableHere) (hsends : s.SendsHere (s.wordAt (s.routeKey a)))
include ha htable hsends

/-- Of register operands the value, or the count before a closing word, goes out, and the entry counts it. -/
theorem msend_here (hb : b < 28) (closing : Bool) :
    s.msend a b closing =
      ((s.sendWord (s.wordAt (s.routeKey a)) (if closing then word (wbits (s.wordAt (s.routeKey a)) 31 18) else s.rx b) closing).storeLocal (s.routeKey a)
        (offsets (toBytes 8 (sentAfter (s.wordAt (s.routeKey a)) closing).toNat))).next := by
  obtain ⟨hsplit, hroom⟩ := htable
  obtain ⟨hbad, hpkg, htx⟩ := hsends
  have regs : ∀ r ∈ if closing then [a] else [a, b], r < 28 := by
    cases closing
    · simp [ha, hb]
    · simpa using ha
  have place : sramKey s.coreNo (s.ctx.rtb.toNat + 8 * wbits (s.peekSource a 0) 5 0) = s.routeKey a := by simp [peekSource, ha, routeKey, wbits, bits]
  have value (n : Nat) : s.peekSource b n = s.rx b := by simp [peekSource, hb]
  have taken : s.takeAll (if closing then [a] else [a, b]) = s := by
    cases closing
    · simp [takeAll, take_reg, ha, hb]
    · simp [takeAll, take_reg, ha]
  have leaves : s.leaves (s.wordAt (s.routeKey a)) = true := by simp [State.leaves, hpkg]
  rw [← wbits_port] at htx
  unfold msend
  simp only [hsplit, Nat.not_lt.2 hroom, canTake_regs s regs, place, value, taken, hbad, leaves, htx, Bool.false_eq_true, not_true_eq_false, or_self, if_false]

/-- A send to this package leaves its word in the network, the count in the entry and in the send queue, and nothing else in memory. -/
theorem msend_sent (hb : b < 28) (closing : Bool) :
    let k := s.routeKey a
    let e := s.wordAt k
    let p := e.toNat % 4
    let t := s.msend a b closing
    t.net = s.net ++ [{ core := s.coreNo, txport := p, kind := wbits e 62 61, unit := wbits e 17 4, town := if wbits e 47 32 = 0 then s.owner else wbits e 47 32, port := p,
                        value := if closing then word (wbits e 31 18) else s.rx b, closing := closing, spilled := 0 }] ∧
      wbits (t.wordAt k) 31 18 = sentCount e closing ∧ t.core.tx.toList.getD p 0 = s.core.tx.toList.getD p 0 + 1 ∧ t.ctx = { s.ctx with pc := s.ctx.pc + 4, wait := .ready, word := none } ∧
      ∀ j, j < k ∨ k + 8 ≤ j → t.byteAt j = s.byteAt j := by
  intro k e p t
  obtain ⟨-, hpkg, -⟩ := id hsends
  let sent := s.sendWord e (if closing then word (wbits e 31 18) else s.rx b) closing
  obtain ⟨poison, stored⟩ := sent.storeLocal_word k (sentAfter e closing)
  have ends : t = State.next { sent with mem := (sent.setWord k (sentAfter e closing)).mem, poison := poison } := (msend_here ha htable hsends hb closing).trans (congrArg next stored)
  have same : sent.mem = s.mem := by rw [show sent = _ from sendWord_here hpkg _ closing]
  have mem : t.mem = (s.setWord k (sentAfter e closing)).mem := by
    rw [ends]
    exact mem_setBytes_of_mem same k _
  rw [show sent = _ from sendWord_here hpkg _ closing] at ends
  have port : p < 4 := Nat.mod_lt _ (by decide)
  refine ⟨by rw [ends]; rfl, ?_, ?_, by rw [ends]; rfl, fun j hj => ?_⟩
  · rw [wordAt_of_mem mem, wordAt_setWord_same, wbits_sentAfter]
  · rw [ends]
    simp [next, setPc, port, p, e, k]
  · rw [byteAt, mem]
    exact s.byteAt_setWord_apart _ hj

end

/-! ## MWAIT and MPEEK (R404, R405) -/

theorem retire_eq (s : State) (rd : Nat) (v : Word) : (s.wx rd v).next = retire s rd v := next_wx s rd v

/-- A sum of the powers of 2 that four tests leave out has a bit where its test fails. -/
theorem maskBit : ∀ b₀ b₁ b₂ b₃ : Bool, ∀ q : Fin 4,
    ((List.range 4).map fun p => if [b₀, b₁, b₂, b₃].getD p true then 0 else 2 ^ p).sum / 2 ^ q.val % 2 = 1 ↔ [b₀, b₁, b₂, b₃].getD q true = false := by decide

theorem nonempty_bit (s : State) {q : Nat} (hq : q < 4) : s.nonempty / 2 ^ q % 2 = 1 ↔ s.rxOf q ≠ [] := by
  have tests : s.nonempty = ((List.range 4).map fun p => if [(s.rxOf 0).isEmpty, (s.rxOf 1).isEmpty, (s.rxOf 2).isEmpty, (s.rxOf 3).isEmpty].getD p true then 0 else 2 ^ p).sum := rfl
  rw [tests, maskBit _ _ _ _ ⟨q, hq⟩]
  interval_cases q <;> simp

section
variable {s : State} {a b rd : Nat} (ha : a < 28) (hb : b < 28) (hready : s.ctx.wait = .ready)
include ha hb hready

theorem mwait_regs :
    s.mwait rd a b = if s.rx b = 0 then retire s rd (word ((s.rx a).toNat % 16 &&& s.nonempty))
      else s.mwaitTest rd ((s.rx a).toNat % 16) (if s.rx b = BitVec.allOnes 64 then none else some (min (s.time + (s.rx b).toNat) (2 ^ 64 - 1))) := by
  have mask : wbits (s.rx a) 3 0 = (s.rx a).toNat % 16 := by simp [wbits, bits]
  simp only [mwait, hready]
  rw [withPorts_regs s _ (by simp [ha, hb]) (by decide)]
  simp only [take_reg s ha, take_reg s hb, mask, retire_eq]
  rfl

end

theorem mwaitTest_some {s : State} {rd mask : Nat} (d : Option Nat) (h : mask &&& s.nonempty ≠ 0) : s.mwaitTest rd mask d = retire s rd (word (mask &&& s.nonempty)) := by
  rw [← retire_eq]
  exact if_pos h

theorem mwaitTest_none {s : State} {rd mask : Nat} (h : mask &&& s.nonempty = 0) : s.mwaitTest rd mask none = s.await (.mwait mask none) :=
  if_neg (not_not.2 h)

theorem mpeek_reg (s : State) {a rd : Nat} (ha : a < 28) : Answers (.mpeek rd a) s (retire s rd (s.portStatus ((s.rx a).toNat % 4))) := by
  have arm : exec (.mpeek rd a) s = execMpeek rd a s := rfl
  rw [Answers, arm, execMpeek, withPorts_regs s _ (by simpa using ha) (by decide)]
  simp only [take_reg s ha, wbits_port, retire_eq]

end State

end Sys2Proof.Machine
end

section
/-! PROOF. The statement about messages, from the lemmas about their instructions. -/

namespace Sys2Proof.Machine

/-- Settles O43: what a send leaves is read off one lemma for both instructions, and MWAIT's answer off its test. -/
theorem messagesSendAndArrive : Obligations.MessagesSendAndArrive := by
  unfold Obligations.MessagesSendAndArrive
  intro a b rd s ha hb hrd k e p sent
  refine ⟨fun hsplit hroom hbad hpkg htx => ⟨⟨_, rfl, ?send⟩, ⟨_, rfl, ?close⟩⟩, fun hready h0 => ?poll, fun hready hsome => ?some, fun hready hnone hall => ?waits,
    fun q hq => ⟨by interval_cases q <;> decide, s.nonempty_bit hq⟩, s.mpeek_reg ha⟩
  case send => exact State.msend_sent ha ⟨hsplit, hroom⟩ ⟨hbad, hpkg, htx⟩ hb false
  case close => exact State.msend_sent ha ⟨hsplit, hroom⟩ ⟨hbad, hpkg, htx⟩ (by decide) true
  case poll => exact answers_of_eq rfl ((State.mwait_regs ha hb hready).trans (if_pos h0))
  case some =>
    refine answers_of_eq rfl ((State.mwait_regs ha hb hready).trans ?_)
    split
    · rfl
    · exact State.mwaitTest_some _ hsome
  case waits =>
    have limit : s.rx b ≠ 0 := by
      rw [hall]
      decide
    refine answers_of_eq rfl ((State.mwait_regs ha hb hready).trans ?_)
    rw [if_neg limit, if_pos hall]
    exact State.mwaitTest_none hnone

end Sys2Proof.Machine
end

section
/-! PROOF. Leaving the ring and ending: where there is room for an instar and a ring entry, what YIELD and SUSP leave, and how HALT and DONE free the slot (R159, R161, R164, R166, R170, R180, R336, R400, R401). -/

namespace Sys2Proof.Machine.State

open Sys2Proof.Spec

/-! ## Where there is room, only translations have changed (R161) -/

/-- A look-up that finds a translation changes the interfaces' caches at most. -/
theorem lookUp_ok {s t : State} {iface owner va : Nat} {need : Need} {x : Nat × Trans × Bool} (h : s.lookUp iface owner va need = (.ok x, t)) : ∃ f, t = { s with ifaces := f } := by
  unfold lookUp at h
  extract_lets i root r u j at h
  have hu : ∃ f, u = { s with ifaces := f } := by
    unfold u
    split
    · exact ⟨_, rfl⟩
    · exact ⟨_, rfl⟩
  obtain ⟨f, hu⟩ := hu
  split at h
  · cases h
    exact ⟨_, rfl⟩
  · split at h
    · cases h
    · split at h
      · cases h
      · split at h
        · cases h
        · dsimp only at h
          split at h
          · cases h
            exact ⟨_, by rw [hu]; rfl⟩
          · obtain ⟨-, rfl⟩ := Prod.mk.inj h
            exact ⟨f, hu⟩

theorem devicePlace_ok {s t : State} {iface owner va : Nat} {d : Dest} (h : s.devicePlace iface owner va = (.ok d, t)) : ∃ f, t = { s with ifaces := f } := by
  unfold devicePlace at h
  dsimp only at h
  split at h
  next hr =>
    rw [hr] at h
    cases h
  next x hr =>
    obtain ⟨-, ht⟩ := Prod.mk.inj h
    exact ht ▸ lookUp_ok (Prod.ext hr rfl)

theorem workFault_ne_at {s t : State} {o core slot va n : Nat} {v : Service} {write : Bool} : s.workFault o core slot va v write ≠ (.at n, t) := by
  intro h
  unfold workFault at h
  dsimp only at h
  split at h
  · cases h
  · split at h
    · cases h
    · split at h <;> cases h

/-- A slot that is free and mapped: no reply was FAIL = 1. -/
theorem findRoom_at {s t : State} {n : Nat} (h : s.findRoom = (.at n, t)) : s.denied.contains (s.coreNo * 4 + s.running) = false ∧ ∃ f, t = { s with ifaces := f } := by
  unfold findRoom at h
  split at h
  · cases h
  · split at h
    · cases h
    next hd =>
      split at h
      next hp =>
        cases h
        exact ⟨by simpa using hd, devicePlace_ok hp⟩
      · exact absurd h workFault_ne_at

/-- A ring that is ready takes the item, in the state in which its page is translated. -/
theorem withRing_ready {s t : State} {die prio : Nat} (k : State → State) (h : RingReady s die prio t) (hw : s.workWaits s.coreNo s.running = false)
    (hd : s.denied.contains (s.coreNo * 4 + s.running) = false) : s.withRing die prio k = k t := by
  obtain ⟨hfull, rfl⟩ | ⟨n, x, hnext, hlook⟩ := h
  · simp only [withRing, hfull]
  · simp only [withRing, hnext, withEntry, hw, hd, hlook, Bool.false_eq_true, if_false]

theorem ifaces_of_ringReady {s t : State} {die prio : Nat} (h : RingReady s die prio t) : ∃ f, t = { s with ifaces := f } := by
  obtain ⟨-, rfl⟩ | ⟨n, x, -, hlook⟩ := h
  · exact ⟨_, rfl⟩
  · exact lookUp_ok hlook

/-! ## The slot that a context has left (R170) -/

/-- The running slot is empty on the spare page, and its old page is the spare one. -/
def Vacated (s u : State) : Prop :=
  u.live = false ∧ u.core.slots = s.core.slots.setIfInBounds s.running (.empty 0) ∧
    u.core.pages = (s.core.pages.setIfInBounds s.running (s.core.pages.toList.getD 4 0)).setIfInBounds 4 (s.core.pages.toList.getD s.running 0)

theorem core_of_steady {s t : State} (h : t.steady = s.steady) : t.core = s.core := congrArg (·.1.2.2.2.2.1) h
theorem running_of_steady {s t : State} (h : t.steady = s.steady) : t.running = s.running := congrArg (·.1.2.1) h
theorem live_of_steady {s t : State} (h : t.steady = s.steady) : t.live = s.live := congrArg (·.1.2.2.1) h

theorem Vacated.of_steady {s t u : State} (h : s.Vacated t) (hu : u.steady = t.steady) : s.Vacated u := by
  rw [Vacated, live_of_steady hu, core_of_steady hu]
  exact h

theorem steady_savePage (s : State) : s.savePage.steady = s.steady := by
  unfold savePage writePage
  split
  · rfl
  · exact (foldl_keeps steady (fun s _ => s.steady_setWord _ _) _ _).trans rfl

theorem emptySlot_vacates (s : State) : s.Vacated s.emptySlot := by
  have hcore := core_of_steady s.steady_savePage
  have hrunning := running_of_steady s.steady_savePage
  refine ⟨rfl, ?_, ?_⟩
  · rw [← hcore, ← hrunning]
    rfl
  · rw [← hcore, ← hrunning]
    rfl

/-- What is under way for a context follows it, and the slots and pages of its core stay as they were. -/
theorem core_rekey (s : State) (k : Key) : (s.rekey k).core.slots = s.core.slots ∧ (s.rekey k).core.pages = s.core.pages := by
  unfold rekey moveWork mapCommands
  dsimp only
  split <;> exact ⟨rfl, rfl⟩

theorem leave_vacates {s : State} (hc : s.core.combining = []) (k : Key) (i : Instar) : s.Vacated (s.leave k i) := by
  have none : s.ownEntries = [] := by simp [ownEntries, hc]
  have stays : (if retryStore i then s else (s.drainList s.coreNo s.ownEntries).2) = s := by
    rw [none]
    exact ite_self s
  let v := ((s.rekey k).setInstar k { i with stores := s.ownEntries }).writeImage (ifaceOf s.coreNo) k
  have left : s.leave k i = v.emptySlot := by
    unfold leave
    rw [stays]
    dsimp only
    rw [if_pos (by simp [none])]
  have hsteady : v.steady = (s.rekey k).steady := steady_writeImage _ _ _
  obtain ⟨hlive, hslots, hpages⟩ := v.emptySlot_vacates
  obtain ⟨rslots, rpages⟩ := s.core_rekey k
  have hrunning : v.running = s.running := (running_of_steady hsteady).trans rfl
  rw [core_of_steady hsteady, hrunning, rslots] at hslots
  rw [core_of_steady hsteady, hrunning, rpages] at hpages
  rw [left]
  exact ⟨hlive, hslots, hpages⟩

/-! ## The instar in its ring (R166) -/

theorem instars_devicePlace (s : State) (iface owner va : Nat) : (s.devicePlace iface owner va).2.instars = s.instars := by
  unfold devicePlace
  dsimp only
  split
  · exact (instars_logOnce _ _ _ _).trans (instars_lookUp _ _ _ _ _)
  · exact instars_lookUp _ _ _ _ _

theorem instars_placeOne (s : State) (owner die prio : Nat) : (s.placeOne owner die prio).2.2.instars = s.instars := by
  unfold placeOne
  dsimp only
  split
  next n _ _ =>
    have hplace := s.instars_devicePlace die owner (ringVa die prio n)
    split
    next hp => rwa [hp] at hplace
    next hp =>
      rw [hp] at hplace
      dsimp only
      split
      · exact (instars_deviceStore _ _ _).trans hplace
      · exact (instars_logTo _ _ _ _ _ _ _).trans hplace
  · rfl

theorem getInstar_readyInstar (s : State) (k : Key) (i : Instar) : (s.readyInstar k i).getInstar k = some { i with state := .ready } := by
  unfold readyInstar
  dsimp only
  split
  · exact getInstar_setInstar_same _ _ _
  · exact (getInstar_of_instars (instars_placeOne _ _ _ _) k).trans (getInstar_setInstar_same s k _)

/-- A context without stores that leaves the ring as an instar which becomes ready. -/
theorem leave_ready {s : State} (hc : s.core.combining = []) (k : Key) (i j : Instar) :
    s.Vacated ((s.leave k j).readyInstar k i) ∧ ((s.leave k j).readyInstar k i).getInstar k = some { i with state := .ready } :=
  ⟨(leave_vacates hc k j).of_steady (steady_readyInstar _ _ _), getInstar_readyInstar _ k i⟩

/-! ## YIELD and SUSP (R155, R180, R400) -/

theorem decideSwitch_flights (s : State) (f : Flight) (t : Nat) : ∃ g, (s.decideSwitch f t).2 = { s with flights := g } := by
  unfold decideSwitch
  dsimp only
  split
  · split <;> exact ⟨_, rfl⟩
  · split
    · split <;> exact ⟨_, rfl⟩
    · exact ⟨_, rfl⟩

theorem yieldEvent_flights (s : State) (num : Nat) : ∃ g, s.yieldEvent num = { s with flights := g } := by
  unfold yieldEvent
  split
  · exact ⟨_, rfl⟩
  · split
    · exact decideSwitch_flights _ _ _
    · exact ⟨_, rfl⟩

section
variable {s t w : State} {n : Nat} (hcompute : s.coreNo < 16384) (hc : s.core.combining = []) (hroom : s.findRoom = (.at n, t)) (hwaits : t.workWaits t.coreNo t.running = false)
  (hring : RingReady t t.workDie t.ctx.prio w)
include hcompute hc hroom hwaits hring

/-- YIELD leaves through its ring, its flight's switch decided first. -/
theorem yieldNow_leaves : ∃ f g r, let v : State := { s with ifaces := f, flights := g }
    s.yieldNow = (v.leave (ownKey s n) { s.mkInstar 1 0 0xFFFF true (s.ctx.pc + 4) with readyAt := r }).readyInstar (ownKey s n) { s.mkInstar 1 0 0xFFFF true (s.ctx.pc + 4) with readyAt := r } := by
  obtain ⟨hdenied, f, rfl⟩ := findRoom_at hroom
  obtain ⟨g, rfl⟩ := ifaces_of_ringReady hring
  obtain ⟨l, hl⟩ := yieldEvent_flights { s with ifaces := g } s.ctx.flight
  have birsar : isMc s.coreNo = false := by simp [isMc, Nat.not_le.2 hcompute]
  refine ⟨g, l, max (s.lastV s.coreNo s.running) ({ s with ifaces := g, flights := l } : State).switchTime, ?_⟩
  unfold yieldNow
  rw [if_neg (by simp [birsar]), drained_now _ hc, hroom]
  dsimp only
  rw [withRing_ready _ hring hwaits hdenied]
  dsimp only
  rw [hl]
  rfl

/-- SUSP that publishes no handle leaves through its ring, its mask saved. -/
theorem susp_leaves {a : Nat} (rd : Nat) (hmask : (s.rx a).toNat < 2 ^ 27) (hcount : (List.range 27).countP (fun j => (s.rx a).getLsbD j) ≤ 16) :
    ∃ f, let v : State := { s with ifaces := f }
      let i := s.mkInstar 0 rd (s.rx a).toNat (decide (5 < (List.range 27).countP (fun j => (s.rx a).getLsbD j))) (s.ctx.pc + 4)
      s.susp rd a 0 = (v.leave (ownKey s n) { i with state := .suspended }).readyInstar (ownKey s n) i := by
  obtain ⟨hdenied, f, rfl⟩ := findRoom_at hroom
  obtain ⟨g, rfl⟩ := ifaces_of_ringReady hring
  have birsar : isMc s.coreNo = false := by simp [isMc, Nat.not_le.2 hcompute]
  have good : ¬ (wbits (s.rx a) 63 27 ≠ 0 ∨ 16 < (List.range 27).countP (fun j => (s.rx a).getLsbD j)) := by
    have high : wbits (s.rx a) 63 27 = 0 := by
      simp only [wbits, bits]
      omega
    simp [high, hcount]
  refine ⟨g, ?_⟩
  unfold susp
  simp only [birsar, ← List.countP_eq_length_filter, if_neg good, Bool.false_eq_true, if_false, ne_eq, not_true_eq_false, false_and, drained_now _ hc, hroom, if_true]
  rw [withRing_ready _ hring hwaits hdenied]
  rfl

end

/-! ## HALT and DONE (R159, R336, R401) -/

theorem endSlot_plain {s : State} (h : wbits s.ctx.evc 63 63 = 0) : s.endSlot = { s with live := false, core := { s.core with slots := s.core.slots.setIfInBounds s.running (.empty 0) } } := by
  rw [endSlot, evaluatorGone, if_pos h]

theorem slots_set_same (c : Core) {k : Nat} (hk : k < 4) (x d : Slot) : (c.slots.setIfInBounds k x).toList.getD k d = x := by
  simp [Vector.toList_setIfInBounds, hk]

theorem slots_set_other (c : Core) {k j : Nat} (h : j ≠ k) (x d : Slot) : (c.slots.setIfInBounds k x).toList.getD j d = c.slots.toList.getD j d := by
  simp [Vector.toList_setIfInBounds, List.getD_eq_getElem?_getD, List.getElem?_set_ne (Ne.symm h)]

theorem finishing_done {s : State} (k : State → State) (hq : Quiet s) (h : s.enginesDone = true) : s.finishing k = k s := by
  rw [finishing, if_pos h, release_quiet 7 k hq]

theorem finishing_waits {s : State} (k : State → State) (h : s.enginesDone = false) : s.finishing k = s.await (.again 0) := by
  rw [finishing, if_neg (by simp [h])]

theorem successors_none {ws : List Word} (h : wbits (ws.getD 1 0) 47 43 = 0) : successors ws = [] := by
  rw [successors, h, Nat.sub_zero, List.drop_length]

/-- No ring has come to hold an item since a state that is the same. -/
theorem ringShort_self (s : State) : s.ringShort s = none := by
  simp [ringShort]

/-- DONE of a packet that names no successor decrements nothing. -/
theorem complete_alone {s t : State} {h : Word} {ws : List Word} (k : State → State) (hgood : badHandle h = false) (hread : s.readPacket s.coreNo s.owner h.toNat = (.ok ws, t))
    (hwell : malformed ws t.core.clim = false) (hnone : wbits (ws.getD 1 0) 47 43 = 0) : s.complete h k = k t := by
  simp only [complete, hgood, hread, hwell, successors_none hnone, List.map_nil, List.foldl_nil, ringShort_self, Bool.false_eq_true, if_false]

end Sys2Proof.Machine.State
end

section
/-! PROOF. The statements about leaving the ring and ending, from the lemmas about the instructions. -/

namespace Sys2Proof.Machine

/-- Settles O41: each instruction leaves through its ring, and what is empty and what is saved is read off the lemma about leaving. -/
theorem leavingTheRingSavesTheContext : Obligations.LeavingTheRingSavesTheContext := by
  unfold Obligations.LeavingTheRingSavesTheContext
  intro rd a n s t w ⟨hlive, hrunning⟩ hc hcompute hroom hwaits hring saved gone
  have leaves {v u : State} (hcore : v.core = s.core) (hrun : v.running = s.running) (h : v.Vacated u) : gone u := by
    obtain ⟨hdead, hslots, hpages⟩ := h
    rw [hcore, hrun] at hslots hpages
    refine ⟨hdead, ?_, ?_, ?_⟩
    · rw [hslots, State.slots_set_same _ hrunning]
    · rw [hpages]
      simp [Vector.toList_setIfInBounds, show s.running < 5 by omega, show (4 : Nat) ≠ s.running by omega]
    · rw [hpages]
      simp [Vector.toList_setIfInBounds, show s.running < 5 by omega]
  refine ⟨?yield, fun l hl hmask hcount => ?susp⟩
  case yield =>
    obtain ⟨f, g, r, hu⟩ := State.yieldNow_leaves hcompute hc hroom hwaits hring
    obtain ⟨hleft, hready⟩ := State.leave_ready (s := { s with ifaces := f, flights := g }) hc (Spec.ownKey s n)
      { s.mkInstar 1 0 0xFFFF true (s.ctx.pc + 4) with readyAt := r } { s.mkInstar 1 0 0xFFFF true (s.ctx.pc + 4) with readyAt := r }
    exact ⟨_, _, answers_of_eq rfl hu, leaves rfl rfl hleft, hready, ⟨rfl, rfl, rfl, rfl, rfl, rfl, rfl, rfl, rfl, rfl, rfl⟩, rfl, rfl⟩
  case susp =>
    subst hl
    obtain ⟨f, hu⟩ := State.susp_leaves hcompute hc hroom hwaits hring rd hmask hcount
    obtain ⟨hleft, hready⟩ := State.leave_ready (s := { s with ifaces := f }) hc (Spec.ownKey s n) _ _
    exact ⟨_, _, answers_of_eq rfl hu, leaves rfl rfl hleft, hready, ⟨rfl, rfl, rfl, rfl, rfl, rfl, rfl, rfl, rfl, rfl, rfl⟩, rfl, rfl, rfl, decide_eq_true_iff⟩

/-- Settles O42: with nothing outstanding each instruction comes to the end of its slot, and waits while a command of its context is queued. -/
theorem endingFreesTheSlot : Obligations.EndingFreesTheSlot := by
  unfold Obligations.EndingFreesTheSlot
  intro a ws s t hq hevc
  obtain ⟨⟨hlive, hrunning⟩, -⟩ := id hq
  refine ⟨fun hdone => ?halt, fun hdone hgood hread hwell hnone hevt hrun => ?done, fun hbusy => ⟨?_, ?_⟩⟩
  case halt =>
    refine ⟨_, answers_of_eq rfl ((State.finishing_done _ hq hdone).trans (State.endSlot_plain hevc)), rfl, State.slots_set_same _ hrunning _ _, rfl, fun k hk => State.slots_set_other _ hk _ _⟩
  case done =>
    have ends := (State.finishing_done (fun s => s.complete (s.rx a) State.endSlot) hq hdone).trans (State.complete_alone State.endSlot hgood hread hwell hnone)
    refine ⟨_, answers_of_eq rfl (ends.trans (State.endSlot_plain hevt)), rfl, ?_, rfl⟩
    rw [hrun]
    exact State.slots_set_same _ hrunning _ _
  · exact answers_of_eq rfl (State.finishing_waits _ hbusy)
  · exact answers_of_eq rfl (State.finishing_waits _ hbusy)

end Sys2Proof.Machine
end

section
/-! PROOF. Words, replies and memory: what delivery, replies, drains, arrivals, visibility, far accesses, leases and dirty logs do where nothing else stands in the way (R177, R187, R203, R212, R217, R226, R236, R238, R241, R242, R248, R275). -/

namespace Sys2Proof.Machine.State

/-! ## Words and replies (R177, R187) -/

/-- A word that goes nowhere but to a core with room joins its queue, and the readers there are served. -/
theorem deliverOne_room {s : State} {w : NetWord} (hnet : s.net = [w]) (hspilled : w.spilled = 0) (hkind : w.kind = 0) (hunit : w.unit < 16384) (howner : s.coreOwner w.unit = w.town) (hspill : s.spillFor w w.unit = none)
    (hscrub : (s.getEntry (entryOfCore w.unit)).scrub = false) (hroom : ((s.getCore w.unit).rx.toList.getD w.port []).length < 16) :
    let v := State.txDone { s with net := [] } w false
    s.deliverOne = (v.setCore w.unit { v.getCore w.unit with rx := (v.getCore w.unit).rx.setIfInBounds w.port ((s.getCore w.unit).rx.toList.getD w.port [] ++ [{ value := w.value, closing := w.closing }]) }).serveReaders w.unit := by
  have core : wordCore w = some w.unit := by rw [wordCore, if_pos hkind, if_pos hunit]
  have gone : s.net.erase w = [] := by rw [hnet, List.erase_cons_head]
  have waits : ¬ ((s.getEntry (entryOfCore w.unit)).scrub = true ∨ 16 ≤ ((s.getCore w.unit).rx.toList.getD w.port []).length) := by
    simp only [hscrub, Bool.false_eq_true, false_or]
    omega
  have delivered : s.deliverFrom [w] [] = s.deliverWord w := by
    simp only [deliverFrom, hspilled, List.any_nil, ne_eq, not_true_eq_false, Bool.false_eq_true, if_false]
    cases s.deliverWord w <;> rfl
  rw [deliverOne, hnet, delivered]
  simp only [deliverWord, core, howner, hspill, waits, gone, ne_eq, not_true_eq_false, if_false, Option.getD_some]

section
variable (s : State) (core idx : Nat) (w : Word)

/-- The state in which a reply is kept in its entry's word. -/
def replyKept : State := s.setFaultPage core ((s.faultPage core).modify idx (fun e => { e with reply := w }))

/-- The entry that a reply names, as the reply is kept. -/
def repliedEntry : FaultEntry := ((s.replyKept core idx w).faultPage core).getD idx FaultEntry.fresh

theorem replyStore_frees (hvalid : (s.repliedEntry core idx w).valid = true) (htag : wbits w 62 48 = idx * 512 + (s.repliedEntry core idx w).gen) (hnone : (s.repliedEntry core idx w).waiters = []) :
    s.replyStore core idx w = (s.replyKept core idx w).setFaultPage core (((s.replyKept core idx w).faultPage core).set idx
      { s.repliedEntry core idx w with valid := false, gen := ((s.repliedEntry core idx w).gen + 1) % 512, waiters := [] }) := by
  unfold repliedEntry replyKept at *
  simp only [replyStore, hvalid, htag, hnone, not_true_eq_false, ne_eq, or_self, if_false, List.isEmpty_nil, if_true, List.filter_nil, List.append_nil, List.foldl_nil]

theorem replyStore_late (h : (s.repliedEntry core idx w).valid = false ∨ wbits w 62 48 ≠ idx * 512 + (s.repliedEntry core idx w).gen) :
    s.replyStore core idx w = (s.replyKept core idx w).logEntry 8 0 core (word (s.repliedEntry core idx w).va) w := by
  unfold repliedEntry replyKept at *
  exact if_pos (h.imp (fun hv => by rw [hv]; exact Bool.false_ne_true) id)

end

/-! ## Drains, arrivals and visibility (R203, R226, R241, R242) -/

theorem drainOld_drains {u v : State} {e : Combine} (hold : u.core.combining.find? (fun e => decide (e.opened + 32 ≤ u.cycle)) = some e) (hdrain : u.drainEntry u.coreNo e = (.ok (), v)) : u.drainOld = State.dropEntry v (some e) := by
  simp only [drainOld, hold, hdrain]

theorem arriveNth_alone {s : State} {f : Flying} (hflight : s.inflight = [f]) (hcan : s.canArrive f = true) (hstop : s.time ≤ f.stop + s.clock.skb) (n : Nat) : s.arriveNth n = State.arriveFlying { s with inflight := [] } f := by
  have picked : (s.arrivable[n]?).or s.arrivable.head? = some f := by
    rw [arrivable, hflight, List.filter_cons_of_pos hcan]
    cases n <;> rfl
  have gone : s.inflight.erase f = [] := by rw [hflight, List.erase_cons_head]
  simp only [arriveNth, picked, gone, Nat.not_lt.2 hstop, if_false]

/-- A store that is the only one in flight is in turn. -/
theorem inTurn_alone {s : State} {f : Flying} (h : s.inflight = [f]) : s.inTurn f = true := by
  have first (p : Flying → Bool) : ([f].find? p).all (· == f) = true := by cases hp : p f <;> simp [hp]
  simp only [inTurn, h, first, Bool.or_true]

theorem canArrive_alone {s : State} {f : Flying} (hflight : s.inflight = [f]) (hhost : s.hostHolds f.key = none) (hscrub : s.scrubbing f.key = false) (hharvest : s.harvestOf f = none) (hline : s.lineHeld f.key = false)
    (hmat : s.matHoldsKey f.key (reach f.bytes) true = false) : s.canArrive f = true := by
  simp [canArrive, hhost, hscrub, hharvest, hline, hmat, inTurn_alone hflight]

/-- Bytes stored by their offsets are all that such a store changes. -/
theorem setOffsets_eq (es : List (Nat × Byte)) (s : State) (k : Nat) : s.setOffsets k es = { s with mem := (s.setOffsets k es).mem } := by
  induction es generalizing s with
  | nil => rfl
  | cons e es ih =>
    rw [setOffsets, ih]
    rfl

theorem mem_setOffsets_of_mem (es : List (Nat × Byte)) {s t : State} (h : t.mem = s.mem) (k : Nat) : (t.setOffsets k es).mem = (s.setOffsets k es).mem := by
  induction es generalizing s t with
  | nil => exact h
  | cons e es ih => exact ih (by simp only [setByte, h])

/-- A plain write whose time has come stands with its bytes, and it is gone. -/
theorem settle_one {s : State} {a : Arrived} (harrived : s.arrived = [a]) (hvis : a.vis ≤ s.time) (hwake : a.wake = false) (htag : a.tag = none) (hdue : s.due = []) :
    s.settle.arrived = [] ∧ s.settle.tags = s.tags ∧ s.settle.mem = (s.setOffsets a.key a.bytes).mem := by
  have empty : s.arrived.filter (fun a => decide (s.time < a.vis)) = [] := by simp [harrived, hvis]
  have settled : s.settle = (State.unpoison (State.setOffsets { s with arrived := [] } a.key a.bytes) a.key a.bytes).flushDue := by
    rw [settle, empty, harrived]
    simp [settleList, applyArrived, hvis, hwake, htag]
  rw [settled, setOffsets_eq]
  simp only [flushDue, unpoison, hdue, List.filter_nil, List.foldl_nil, true_and]
  exact mem_setOffsets_of_mem _ (by rfl) _

/-! ## Far accesses and outstanding loads (R217, R248) -/

theorem performOut_oldest {u v : State} {o : Outstanding} {lo hi : Word} (hload : u.ctx.loads[0]? = some o) (hgot : o.got = none) (hperform : u.perform (u.served o.acc) = (.value lo hi, v)) : u.performOut 0 = v.setGot 0 (.value lo hi) := by
  simp [performOut, hload, hgot, hperform]

/-- A returned load's value goes to its register, and the load is outstanding no more. -/
theorem returnOut_value {u : State} {j : Nat} {o : Outstanding} {lo hi : Word} (hload : u.ctx.loads[j]? = some o) (hgot : o.got = some (.value lo hi)) :
    ∃ c, u.returnOut j = u.setCtx c ∧ c.x = withValue u.ctx.x o.acc lo hi ∧ c.pc = u.ctx.pc ∧ c.loads.length + 1 = u.ctx.loads.length := by
  obtain ⟨hj, -⟩ := List.getElem?_eq_some_iff.1 hload
  simp only [returnOut, hload, hgot]
  refine ⟨_, rfl, rfl, rfl, ?_⟩
  simp only [List.length_append, List.length_take, List.length_map, List.length_drop]
  omega

@[simp] theorem arg_focus (s : State) (n k : Nat) : (s.focus n k).arg = s.arg := by
  unfold focus
  dsimp only
  split <;> rfl

/-! ## Leases and translations that are over (R212, R226) -/

theorem leaseEnds_live (s : State) : (∀ l ∈ s.leaseEnds.leases, s.time < l.2.2) ∧ ∀ e ∈ s.leaseEnds.core.l1, s.time < e.stop := by
  refine ⟨fun l hl => of_decide_eq_true (List.mem_filter.1 hl).2, fun e he => ?_⟩
  simp only [leaseEnds] at he
  split at he
  next => exact of_decide_eq_true (List.mem_filter.1 he).2
  next current =>
    simp only [List.any_eq_true, decide_eq_true_eq, not_exists, not_and, Nat.not_le] at current
    exact current e he

theorem translationEnds_live (s : State) (n : Nat) : (∀ x ∈ ((s.translationEnds n).getIface n).leaf, s.time < x.stop) ∧ ∀ x ∈ ((s.translationEnds n).getIface n).walk, s.time < x.stop := by
  simp only [translationEnds, getIface, setIface, SMap.get_set, if_true]
  exact ⟨fun x hx => of_decide_eq_true (List.mem_filter.1 hx).2, fun x hx => of_decide_eq_true (List.mem_filter.1 hx).2⟩

/-! ## Dirty logs and the HARVEST agent (R236, R238) -/

theorem mergeFull_merges {s : State} {n : Nat} (hn : n < 16) (hfull : 2048 ≤ (s.getIface n).dirty.length) : s.mergeFull n = s.merge n none := by
  simp [mergeFull, agentIfaces, hn, hfull]

/-- An agent that has nothing of the owner queued and nothing under way gives the line up. -/
theorem harvestAsked_idle {s : State} {a o : Nat} (hqueued : (agentIfaces a).any (fun i => (s.getIface i).dirty.any (fun e => e.1 == o)) = false) (harrived : s.arrived = []) (hflight : ∀ x ∈ s.inflight, x.core ≠ deviceCore) :
    (s.harvestAsked a o).2 = { s with harvest := s.harvest.filter (· != (a, o)) } := by
  have idle : s.inflight.any (fun x => x.core == deviceCore) = false := by simpa using hflight
  simp [harvestAsked, hqueued, harrived, idle]

/-! ## The stall watchdog (R275) -/

theorem cellsWait_free {s : State} {i : Instar} (h : ∀ c, linkCell i = some c → s.hostHolds c = none) : s.cellsWait [i] = (false, s) := by
  unfold cellsWait
  cases hi : linkCell i with
  | none => simp [hi]
  | some c => simp [hi, h c hi]

/-- An evaluator that has stayed parked on an ECLO cell for 1,000,000 ticks: what the watchdog looks for. -/
def stalled (s : State) (p : Key × Instar) : Bool :=
  wbits p.2.evc 63 63 == 1 && match p.2.state with
    | .parked c since => s.tagAt c == 3 && decide (since + 1000000 ≤ s.time)
    | _ => false

theorem evaluator_of_stalled {s : State} {p : Key × Instar} (h : s.stalled p = true) : wbits p.2.evc 63 63 = 1 := by
  simp only [stalled, Bool.and_eq_true, beq_iff_eq] at h
  exact h.1

theorem waitsOn_evaluator {i : Instar} (h : wbits i.evc 63 63 = 1) (s : State) (w : Option Nat) :
    s.waitsOn i w = { s with evals := s.evals.map (fun (e : Eval) => if e.evid = wbits i.evc 15 0 ∧ e.va = i.evcell then { e with waitev := w } else e) } := by
  rw [waitsOn, if_neg (by simp [h])]

/-- A stalled evaluator is unlinked, waits on nothing any more, and is trapped. -/
theorem watchdog_traps {s : State} {x : Key} {i : Instar} (hfind : s.instars.find? s.stalled = some (x, i)) (hhost : ∀ c, linkCell i = some c → s.hostHolds c = none) :
    let w := (s.unlink x i).waitsOn i none
    s.watchdog = w.postInstar x ((w.getInstar x).getD i) 0x0B (word ((i.retry.map (·.va)).getD 0)) (word ((i.retry.map (·.va)).getD 0)) := by
  unfold watchdog
  split
  next hnone => exact absurd (hnone.symm.trans hfind) (Option.some_ne_none _).symm
  next k j hsome =>
    obtain ⟨rfl, rfl⟩ := Prod.mk.inj (Option.some.inj (hsome.symm.trans hfind))
    simp only [cellsWait_free hhost]

/-! ## Engines (R387, R391) -/

theorem engineStep_idle {s : State} {n : Nat} (h : s.engineQueue n = []) : s.engineStep n = s := by
  rw [engineStep, h]

theorem engineRun_idle {s : State} {n : Nat} (h : s.engineQueue n = []) (steps : Nat) : s.engineRun n steps = s := by
  induction steps with
  | zero => rfl
  | succ steps ih => rw [engineRun, engineStep_idle h, ih]

/-- A step of an engine releases an ended command whose writes have arrived and are visible. -/
theorem engineStep_release {s : State} {n : Nat} {c : CopyCmd} {r : Word} (hn : n < 16384) (hqueue : s.engineQueue n = [c]) (hres : c.res = some r) (hvisible : c.visible ≤ s.time) (harrived : ∀ a ∈ s.arrived, a.core ≠ engineCore n)
    (hcell : c.cell = 0) : s.engineStep n = s.engineRelease n c r := by
  have landed : s.arrived.any (fun a => a.core == engineCore n) = false := by simpa using harrived
  simp [engineStep, hqueue, hres, Nat.not_lt.2 hvisible, landed, hcell, isMc, Nat.not_le.2 hn, show ¬ 17500 ≤ n by omega]

/-- The only command of an engine, ended and landed, is released, and the engine is idle then. -/
theorem engineRun_release {s : State} {n : Nat} {c : CopyCmd} {r : Word} (hn : n < 16384) (hqueue : s.engineQueue n = [c]) (hres : c.res = some r) (hvisible : c.visible ≤ s.time) (harrived : ∀ a ∈ s.arrived, a.core ≠ engineCore n)
    (hcell : c.cell = 0) (hlast : (s.engineRelease n c r).engineQueue n = []) {steps : Nat} (hsteps : steps ≠ 0) : s.engineRun n steps = s.engineRelease n c r := by
  obtain ⟨m, rfl⟩ := Nat.exists_eq_succ_of_ne_zero hsteps
  rw [engineRun, engineStep_release hn hqueue hres hvisible harrived hcell, engineRun_idle hlast]

/-- A page of a command under way whose lease is over is translated afresh. -/
theorem renewLease_renews {s v : State} {n page : Nat} {c d : CopyCmd} {l : List CopyCmd} {w : Bool} {tr t : Trans} (hqueue : s.engineQueue n = c :: l) (hres : c.res = none) (hstarted : c.started = true)
    (hover : c.pages.find? (fun e => decide (e.2.2.stop ≤ s.time)) = some (page, w, t)) (hpage : s.enginePage n c (page * 4096) w false = (.ok tr, d, v)) : s.renewLease n = v.setHead n d := by
  simp [renewLease, hqueue, hres, hstarted, hover, hpage]

/-! ## A SPLIT change (R197) -/

@[simp] theorem mem_setCore (s : State) (n : Nat) (c : Core) : (s.setCore n c).mem = s.mem := by
  unfold setCore
  split
  · split <;> rfl
  · rfl

@[simp] theorem mem_focus (s : State) (n k : Nat) : (s.focus n k).mem = s.mem := by
  unfold focus
  dsimp only
  split <;> rfl

theorem mem_asSlot {k : State → State} (hk : ∀ u, (k u).mem = u.mem) (s : State) (core slot : Nat) : (s.asSlot core slot k).mem = s.mem := by
  rw [asSlot, mem_focus, hk, mem_focus]

theorem byteAt_of_mem {s t : State} (h : t.mem = s.mem) (j : Nat) : t.byteAt j = s.byteAt j := by
  rw [byteAt, byteAt, h]

/-- A change that may go on clears the banks that change portion, and its memory is otherwise as it was. -/
theorem byteAt_splitComplete {s : State} {n mwt cb slot : Nat} (hchange : (s.getCore n).splitChange = some (mwt, cb, slot)) (hclear : s.splitClear n = true) (hdrained : (s.getCore n).combining = []) (j : Nat) :
    (s.splitComplete n).byteAt j = if sramKey n (min (scratchSize n (s.getCore n)) (98304 * (16 - cb))) ≤ j ∧ j < sramKey n (max (scratchSize n (s.getCore n)) (98304 * (16 - cb))) then 0 else s.byteAt j := by
  rw [← byteAt_zeroStore]
  refine byteAt_of_mem ?_ j
  simp only [splitComplete, hchange, hclear, hdrained, drainList, not_true_eq_false, if_false]
  refine (mem_asSlot (fun u => ?_) _ _ _).trans (mem_setCore _ _ _)
  split <;> rfl

end Sys2Proof.Machine.State
end

section
/-! PROOF. The statement about memory and engine events, from the lemmas about what each does. -/

namespace Sys2Proof.Machine

/-- Settles O60: each event's operation takes the branch that its clause's hypotheses name, by the lemma about that operation. -/
theorem memoryAndEngineEventsGoOn : Obligations.MemoryAndEngineEventsGoOn := by
  unfold Obligations.MemoryAndEngineEventsGoOn
  intro s n k u
  refine ⟨?message, ?reply, ?drain, ?arrive, ?visible, ?walk, ?stores, ?far, ?response, ?oldest, ?returned, ?lease, ?translation, ?merge, ?harvest, ?idle, ?watchdog, ?engine, ?renew, rfl, ?mwait, ?split⟩
  case message =>
    intro w hnet hspilled hkind hunit howner hspill hscrub hroom
    exact answers_of_eq rfl (State.deliverOne_room hnet hspilled hkind hunit howner hspill hscrub hroom)
  case reply =>
    intro v e hn
    have kept : Spec.Answers .reply s (s.replyStore n (s.arg.b % 64) s.arg.w) := answers_of_eq rfl (if_neg (Nat.not_le.2 hn))
    exact ⟨fun hvalid htag hnone => answers_of_eq kept (State.replyStore_frees _ _ _ _ hvalid htag hnone), fun hlate => answers_of_eq kept (State.replyStore_late _ _ _ _ hlate)⟩
  case drain =>
    intro e v hn hold hdrain
    exact answers_of_eq rfl ((if_neg (Nat.not_le.2 hn)).trans (congrArg (State.focus · _ _) (State.drainOld_drains hold hdrain)))
  case arrive =>
    intro f hflight hhost hscrub hharvest hline hmat hstop
    exact answers_of_eq rfl (State.arriveNth_alone hflight (State.canArrive_alone hflight hhost hscrub hharvest hline hmat) hstop _)
  case visible =>
    intro a harrived hvis hwake htag hdue
    obtain ⟨hgone, htags, hmem⟩ := State.settle_one harrived hvis hwake htag hdue
    exact ⟨s.settle, rfl, hgone, htags, State.byteAt_of_mem hmem⟩
  case walk =>
    intro h
    exact answers_of_eq rfl (if_pos h)
  case stores =>
    intro h
    exact answers_of_eq rfl (if_pos h)
  case far =>
    intro acc hone hlive hwait
    refine answers_of_eq rfl ((if_neg (by simp [hone])).trans ?_)
    simp only [State.asSlot, hlive, hwait, u, n, k]
  case response =>
    intro acc lo hi hlive hwait
    refine answers_of_eq rfl ?_
    simp only [State.asSlot, hlive, hwait, u, n, k]
  case oldest =>
    intro o v lo hi hone hlive hwait hindex hload hgot hperform
    refine answers_of_eq rfl ((if_neg (by simp [hone])).trans ?_)
    simp only [State.asSlot, hlive, hwait, State.arg_focus, hindex, State.performOut_oldest hload hgot hperform, u, n, k]
  case returned =>
    intro o lo hi hlive hwait hload hgot
    obtain ⟨c, hreturn, hregs⟩ := State.returnOut_value hload hgot
    refine ⟨c, answers_of_eq rfl ?_, hregs⟩
    simp only [State.asSlot, hlive, hwait, State.arg_focus, hreturn, u, n, k]
  case lease => exact ⟨s.leaseEnds, rfl, rfl, s.leaseEnds_live⟩
  case translation => exact ⟨s.translationEnds n, rfl, rfl, s.translationEnds_live n⟩
  case merge => exact fun hn hfull => answers_of_eq rfl (State.mergeFull_merges hn hfull)
  case harvest =>
    intro a f hfind
    refine answers_of_eq rfl ?_
    simp only [State.harvestRecall, hfind]
  case idle =>
    intro a f hfind hqueued harrived hflight
    refine answers_of_eq rfl (Eq.trans ?_ (State.harvestAsked_idle hqueued harrived hflight))
    simp only [State.harvestRecall, hfind]
  case watchdog =>
    intro x i hfind hhost v w
    have hstalled : s.instars.find? s.stalled = some (x, i) := hfind
    have hw : w = v.waitsOn i none := (State.waitsOn_evaluator (State.evaluator_of_stalled (List.find?_some hstalled)) v none).symm
    rw [hw]
    exact answers_of_eq rfl (State.watchdog_traps hstalled hhost)
  case engine =>
    intro c r hn hqueue hres hvisible harrived hcell hlast
    exact answers_of_eq rfl (State.engineRun_release hn hqueue hres hvisible harrived hcell hlast (by decide))
  case renew =>
    intro c l page w tr d v hqueue hres hstarted hover hpage
    exact answers_of_eq rfl (State.renewLease_renews hqueue hres hstarted hover hpage)
  case mwait =>
    intro m d hlive hwait hdue
    refine answers_of_eq rfl ?_
    simp only [State.asSlot, hlive, hwait, hdue, if_true, u, n, k]
  case split =>
    intro mwt cb slot hchange hclear hdrained
    exact ⟨s.splitComplete n, rfl, State.byteAt_splitComplete hchange hclear hdrained⟩

end Sys2Proof.Machine
end

section
/-! PROOF. Taking an exception: where the owner has a record, the context is frozen with its registers, and its entry is posted to the owner's trap queue or held as the newest (R181 to R184). -/

namespace Sys2Proof.Machine.State

open Sys2Proof.Spec

/-! ## What the search for an entry's place leaves as it was -/

/-- The instars and the owners' records: translating, logging and writing words touch neither. -/
def told (s : State) : List (Key × Instar) × List (Nat × OwnerRec) := (s.instars, s.owners)

theorem instars_of_told {s t : State} (h : t.told = s.told) : t.instars = s.instars := congrArg (·.1) h
theorem owners_of_told {s t : State} (h : t.told = s.told) : t.owners = s.owners := congrArg (·.2) h

/-- Where an operation answers a value and a state, what the state keeps is read off the pair. -/
theorem told_of_pair {α : Type} {r : α × State} {a : α} {s t : State} (h : r = (a, t)) (hr : r.2.told = s.told) : t.told = s.told := by
  rwa [h] at hr

theorem told_logEntry (s : State) (kind uclass unit : Nat) (addr detail : Word) : (s.logEntry kind uclass unit addr detail).told = s.told := by
  obtain ⟨l, d, o, h, -⟩ := s.writes_logEntry kind uclass unit addr detail
  rw [h]
  rfl

theorem told_logTo (s : State) (core town owner va k c : Nat) : (s.logTo core town owner va k c).told = s.told := by
  unfold logTo
  split
  · rfl
  · exact told_logEntry _ _ _ _ _ _

theorem told_logOnce (s : State) (owner va : Nat) (e : Service) : (s.logOnce owner va e).told = s.told := by
  unfold logOnce logWalk
  split
  · rfl
  · split
    · rfl
    · exact told_logEntry _ _ _ _ _ _

theorem told_setBytes (bs : List Byte) (s : State) (k : Nat) : (s.setBytes k bs).told = s.told := by
  induction bs generalizing s k with
  | nil => rfl
  | cons b bs ih => exact ih (s.setByte k b) (k + 1)

theorem told_askHost (s : State) (port line : Nat) (inv : Bool) : (s.askHost port line inv).told = s.told := by
  unfold askHost
  split <;> rfl

theorem told_askOwner (s : State) (k : Nat) : (s.askOwner k).told = s.told := by
  unfold askOwner
  split
  · exact told_askHost _ _ _ _
  · rfl

theorem told_lookUp (s : State) (iface owner va : Nat) (need : Need) : (s.lookUp iface owner va need).2.told = s.told := by
  unfold lookUp
  extract_lets i root r u j
  have hu : u.told = s.told := by
    unfold u
    split <;> rfl
  split
  · rfl
  · split
    · rfl
    · split
      · rfl
      · split
        · dsimp only
          split
          · exact (told_askOwner _ _).trans hu
          · exact hu
        · dsimp only
          split <;> exact hu

theorem told_devicePlace (s : State) (iface owner va : Nat) : (s.devicePlace iface owner va).2.told = s.told := by
  unfold devicePlace
  dsimp only
  split
  · exact (told_logOnce _ _ _ _).trans (told_lookUp _ _ _ _ _)
  · exact told_lookUp _ _ _ _ _

theorem told_deviceStore (s : State) (owner : Nat) (ws : List (Dest × Word)) : (s.deviceStore owner ws).told = s.told := by
  unfold deviceStore
  split
  · rfl
  · exact foldl_keeps told (fun s e => told_setBytes _ s _) ws s

theorem told_writeImage (s : State) (iface : Nat) (k : Key) : (s.writeImage iface k).told = s.told := by
  have hw : (s.workPa iface k).2.told = s.told := told_devicePlace _ _ _ _
  unfold writeImage
  split
  next hp =>
    dsimp only
    split
    · exact (told_deviceStore _ _ _).trans (told_of_pair hp hw)
    · exact (told_logTo _ _ _ _ _ _ _).trans (told_of_pair hp hw)
  next hp =>
    have hu := told_of_pair hp hw
    split <;> exact hu
  next hp => exact told_of_pair hp hw

theorem told_trapWord (s : State) (iface o va : Nat) : (s.trapWord iface o va).2.told = s.told := by
  unfold trapWord
  split
  next hp => exact told_of_pair hp (told_devicePlace _ _ _ _)
  next hp =>
    have hd := told_of_pair hp (told_devicePlace _ _ _ _)
    dsimp only
    split
    · exact (told_logTo _ _ _ _ _ _ _).trans hd
    · split
      · exact hd
      · split
        · exact (told_askHost _ _ _ _).trans hd
        · exact hd

theorem told_trapSlot (s : State) (iface o : Nat) : (s.trapSlot iface o).2.told = s.told := by
  unfold trapSlot
  extract_lets r full
  split
  · rfl
  · split
    next hp => exact told_of_pair hp (told_trapWord _ _ _ _)
    next hp =>
      have hh := told_of_pair hp (told_trapWord _ _ _ _)
      extract_lets prod
      split
      · exact hh
      · split
        next hq => exact (told_of_pair hq (told_trapWord _ _ _ _)).trans hh
        next hq => exact (told_of_pair hq (told_trapWord _ _ _ _)).trans hh

theorem owners_emptySlot (s : State) : s.emptySlot.owners = s.owners := by
  have page : s.savePage.owners = s.owners := by
    unfold savePage writePage
    split
    · rfl
    · exact foldl_keeps (·.owners) (fun s e => owners_of_told (told_setBytes _ s _)) _ _
  exact page

theorem owners_leave {s : State} (hc : s.core.combining = []) (k : Key) (i : Instar) : (s.leave k i).owners = s.owners := by
  have none : s.ownEntries = [] := by simp [ownEntries, hc]
  have stays : (if retryStore i then s else (s.drainList s.coreNo s.ownEntries).2) = s := by
    rw [none]
    exact ite_self s
  unfold leave
  rw [stays]
  dsimp only
  rw [if_pos (by simp [none])]
  exact (owners_emptySlot _).trans ((owners_of_told (told_writeImage _ _ _)).trans rfl)

/-! ## What wakes and messages leave of a frozen instar (R271) -/

/-- What a key finds after another's, or its own, pairs have been overwritten. -/
theorem find?_overwrite {α β : Type} [DecidableEq α] (m : List (α × β)) (k a : α) (v : β) :
    ((m.map (fun p => if p.1 = k then (k, v) else p)).find? (fun p => p.1 == a)).map (·.2) =
      (m.find? (fun p => p.1 == a)).map (fun p => if a = k then v else p.2) := by
  induction m with
  | nil => rfl
  | cons p m ih =>
    have key : (if p.1 = k then (k, v) else p).1 = p.1 := by
      split
      next hp => exact hp.symm
      next => rfl
    rw [List.map_cons, List.find?_cons, List.find?_cons, key]
    by_cases ha : p.1 = a
    · subst ha
      by_cases hp : p.1 = k <;> simp [hp]
    · rw [beq_false_of_ne ha]
      exact ih

theorem getInstar_setInstar_other (s : State) {k l : Key} (h : l ≠ k) (i : Instar) : (s.setInstar l i).getInstar k = s.getInstar k := by
  unfold setInstar
  split
  · simp only [getInstar, find?_overwrite, if_neg (Ne.symm h)]
  · simp [getInstar, List.find?_append, h]

theorem getInstar_freeInstar_other (s : State) {k l : Key} (h : l ≠ k) : (s.freeInstar l).getInstar k = s.getInstar k := by
  have kept : (fun p : Key × Instar => decide ((p.1 != l) = true ∧ (p.1 == k) = true)) = fun p => p.1 == k := by
    funext p
    by_cases hp : p.1 = k <;> simp [hp, Ne.symm h]
  simp only [getInstar, freeInstar, List.find?_filter, kept]

/-- The instar at a key is i but for its state, WAKEV and link, and stands for no other package's loader. -/
def Frozen (s : State) (k : Key) (i : Instar) : Prop :=
  ∃ (st : InstarState) (v : Word) (l : Option Key), s.getInstar k = some { i with state := st, wakev := v, link := l } ∧ ∀ rid pkg score cell, st ≠ .remote rid pkg score cell

theorem Frozen.of_instars {s t : State} {k : Key} {i : Instar} (h : s.Frozen k i) (e : t.instars = s.instars) : t.Frozen k i := by
  rwa [Frozen, getInstar_of_instars e]

theorem instars_sendFree (s : State) (pkg key : Nat) (t : Txn) : (s.sendFree pkg key t).instars = s.instars := by
  unfold sendFree emit
  dsimp only
  split
  · split <;> rfl
  · rfl

theorem instars_readyImage (s : State) (k : Key) (i : Instar) : (s.readyImage k i).instars = (s.setInstar k { i with state := .ready }).instars := by
  refine (instars_writeImage _ _ _).trans ?_
  unfold readyInstar
  dsimp only
  split
  · rfl
  · exact instars_placeOne _ _ _ _

theorem frozen_wakeList {k : Key} {i : Instar} (v : Word) (n : Nat) (s : State) (l : Option Key) (h : s.Frozen k i) : (s.wakeList v n l).Frozen k i := by
  induction n generalizing s l with
  | zero => exact h
  | succ n ih =>
    cases l with
    | none => exact h
    | some l =>
      obtain ⟨st, w, link, hk, hproxy⟩ := id h
      unfold wakeList
      split
      next => exact h
      next j hj =>
        split
        next hremote =>
          have apart : l ≠ k := by
            rintro rfl
            rw [hk, Option.some.injEq] at hj
            exact hproxy _ _ _ _ (hj ▸ hremote)
          refine ih _ _ ⟨st, w, link, ?_, hproxy⟩
          rw [getInstar_freeInstar_other _ apart, ← hk]
          exact getInstar_of_instars (instars_sendFree _ _ _ _) k
        next =>
          refine ih _ _ (Frozen.of_instars ?_ (instars_readyImage _ _ _))
          by_cases same : l = k
          · subst same
            rw [hk, Option.some.injEq] at hj
            subst hj
            exact ⟨.ready, v, none, getInstar_setInstar_same _ _ _, nofun⟩
          · exact ⟨st, w, link, (getInstar_setInstar_other s same _).trans hk, hproxy⟩

theorem instars_setOffsets (es : List (Nat × Byte)) (s : State) (k : Nat) : (s.setOffsets k es).instars = s.instars := by
  induction es generalizing s with
  | nil => rfl
  | cons e es ih => exact ih (s.setByte (k + e.1) e.2)

theorem frozen_applyArrived {s : State} {k : Key} {i : Instar} (a : Arrived) (h : s.Frozen k i) : (s.applyArrived a).Frozen k i := by
  unfold applyArrived
  extract_lets w t u v x
  have hv : v.Frozen k i := by
    have hu : u.Frozen k i := h.of_instars (instars_setOffsets _ _ _)
    unfold v
    split
    · refine hu.of_instars ?_
      unfold setTag
      split <;> rfl
    · exact hu
  have hx : x.Frozen k i := frozen_wakeList _ _ _ _ hv
  split
  · split
    · exact hx.of_instars rfl
    · exact hx
  · exact hv

theorem frozen_settleList {k : Key} {i : Instar} (as : List Arrived) (s : State) (h : s.Frozen k i) : (s.settleList as).Frozen k i := by
  induction as generalizing s with
  | nil => exact h
  | cons a as ih =>
    unfold settleList
    split
    · exact ih _ (frozen_applyArrived a h)
    · exact ih _ h

theorem instars_flushDue (s : State) : s.flushDue.instars = s.instars := by
  unfold flushDue
  refine (foldl_keeps instars (fun s d => ?_) _ _).trans rfl
  split
  · exact instars_sendFree _ _ _ _
  · rfl

theorem instars_markLine (s : State) (core k : Nat) (nonval : Bool) : (s.markLine core k nonval).instars = s.instars := by
  have put (s : State) (e : L2Line) : (s.l2Put e).instars = s.instars := by
    unfold l2Put
    dsimp only
    split
    · unfold l2Evict
      dsimp only
      split <;> rfl
    · rfl
  unfold markLine
  extract_lets line b keep u
  have hu : u.instars = s.instars := by
    unfold u
    split <;> rfl
  clear_value b u
  split
  · rfl
  · split
    · exact hu
    · extract_lets hit
      split
      · exact hu
      · exact (put _ _).trans hu

theorem frozen_arriveSeq {k : Key} {i : Instar} (core : Nat) (l : List (Dest × Word)) (s : State) (v : Nat) (h : s.Frozen k i) : (s.arriveSeq core l v).2.Frozen k i := by
  induction l generalizing s v with
  | nil => exact h
  | cons e l ih =>
    have marked := h.of_instars (s.instars_markLine core e.1.key false)
    refine ih _ _ (Frozen.of_instars ?_ (instars_flushDue _))
    exact frozen_settleList _ _ (marked.of_instars rfl)

theorem frozen_deviceSeq {s : State} {k : Key} {i : Instar} (core owner : Nat) (l : List (Dest × Word)) (h : s.Frozen k i) : (s.deviceSeq core owner l).Frozen k i := by
  unfold deviceSeq
  split
  · exact h.of_instars rfl
  · exact frozen_arriveSeq _ _ _ _ h

/-! ## Posting (R184) -/

/-- The instar's entry is written to the trap queue: it is posted. -/
theorem putTrap_posts {s : State} {o prod : Nat} {h e : Dest} {t : TrapPost} {k : Key} {i : Instar} (hkey : t.key = some k) (hf : s.Frozen k i) :
    ∃ v l, (s.putTrap o h e prod t).getInstar k = some { i with state := .posted, wakev := v, link := l } := by
  obtain ⟨st, v, l, hk, -⟩ : (s.writeTrap o h e prod t).Frozen k i := frozen_deviceSeq _ _ _ hf
  refine ⟨v, l, ?_⟩
  unfold putTrap
  simp only [hkey, hk]
  exact getInstar_setInstar_same _ _ _

theorem ownerRec_setOwner_same {s : State} {o : Nat} (h : (s.owner? o).isSome = true) (r : OwnerRec) : (s.setOwner o r).ownerRec o = r := by
  obtain ⟨r', hr⟩ := Option.isSome_iff_exists.1 h
  obtain ⟨p, hp, -⟩ := Option.map_eq_some_iff.1 hr
  simp only [ownerRec, owner?, setOwner, find?_overwrite, hp, if_true, Option.map_some, Option.getD_some]

theorem steady_postTrap (s : State) (o : Nat) (t : TrapPost) : (s.postTrap o t).steady = s.steady := by
  have place : (if (s.ownerRec o).held.isEmpty then s.trapSlot (s.trapIface o t) o else (.full, s)).2.steady = s.steady := by
    split
    · exact steady_trapSlot _ _ _
    · rfl
  unfold postTrap
  split
  next hp =>
    have written (ws : List (Dest × Word)) := (steady_deviceSeq _ 20000 o ws).trans (steady_of_pair hp place)
    unfold putTrap
    dsimp only
    split
    · split <;> exact written _
    · exact written _
  next hp =>
    have hu := steady_of_pair hp place
    dsimp only
    split
    · split
      · exact (steady_writeImage _ _ _).trans hu
      · exact hu
    · exact hu

/-- A frozen instar's entry is posted, or it is held as the newest in its owner's record. -/
theorem postTrap_tells {s : State} {o : Nat} {t : TrapPost} {k : Key} {i : Instar} (hrec : (s.owner? o).isSome = true) (hkey : t.key = some k)
    (hi : s.getInstar k = some i) (hstate : i.state = .held) :
    ∃ st v l, (s.postTrap o t).getInstar k = some { i with state := st, wakev := v, link := l } ∧
      (st = .posted ∨ (st = .held ∧ ((s.postTrap o t).ownerRec o).held.getLast? = some t)) := by
  have place : (if (s.ownerRec o).held.isEmpty then s.trapSlot (s.trapIface o t) o else (.full, s)).2.told = s.told := by
    split
    · exact told_trapSlot _ _ _
    · rfl
  unfold postTrap
  split
  next u hp =>
    have frozen : u.Frozen k i := Frozen.of_instars ⟨.held, i.wakev, i.link, by rw [hi, ← hstate], nofun⟩ (instars_of_told (told_of_pair hp place))
    obtain ⟨v, l, hposted⟩ := putTrap_posts hkey frozen
    exact ⟨_, v, l, hposted, .inl rfl⟩
  next u _ hp =>
    have hu := told_of_pair hp place
    extract_lets r w
    have hw : w.owners = u.owners ∧ ∃ l, w.getInstar k = some { i with link := l } := by
      have unlinked : u.getInstar k = some { i with link := i.link } := (getInstar_of_instars (instars_of_told hu) k).trans hi
      unfold w
      split
      next l _ _ _ =>
        split
        next j hj =>
          refine ⟨(owners_of_told (told_writeImage _ _ _)).trans rfl, ?_⟩
          rw [getInstar_of_instars (instars_writeImage _ _ _)]
          by_cases same : l = k
          · subst same
            rw [unlinked, Option.some.injEq] at hj
            subst hj
            exact ⟨_, getInstar_setInstar_same _ _ _⟩
          · exact ⟨_, (getInstar_setInstar_other _ same _).trans unlinked⟩
        next => exact ⟨rfl, _, unlinked⟩
      next => exact ⟨rfl, _, unlinked⟩
    obtain ⟨howners, l, hl⟩ := hw
    refine ⟨.held, i.wakev, l, hl.trans (by rw [← hstate]), .inr ⟨rfl, ?_⟩⟩
    have recorded : (w.owner? o).isSome = true := by rwa [owner?, howners, owners_of_told hu]
    rw [ownerRec_setOwner_same recorded, List.getLast?_concat]

/-- TAKE AN EXCEPTION with no store outstanding, in a slot that is free and mapped, for an owner with a record: the slot empties, and the context's instar waits with an entry that is posted or held (R181 to R184). -/
theorem trapAt_tells {s t : State} {n : Nat} (hc : s.core.combining = []) (hroom : s.findRoom = (.at n, t)) (hrec : (s.owner? s.owner).isSome = true) (cause : Nat) (addr detail : Word) (pc : BitVec 57) :
    let u := s.trapAt cause addr detail pc
    s.Vacated u ∧ ∃ st v l es, u.getInstar (ownKey s n) = some { s.mkInstar 4 0 0xFFFF true pc with state := st, wakev := v, link := l, stores := es } ∧
      (st = .posted ∨ (st = .held ∧ (u.ownerRec s.owner).held.getLast? = some { cause := cause, key := some (ownKey s n), addr := addr, detail := detail, time := s.time, pc := s.pcWord })) := by
  obtain ⟨-, f, rfl⟩ := findRoom_at hroom
  let t : State := { s with ifaces := f }
  let i : Instar := { s.mkInstar 4 0 0xFFFF true pc with state := .held }
  let post : TrapPost := { cause := cause, key := some (ownKey s n), addr := addr, detail := detail, time := s.time, pc := s.pcWord }
  have freezes : s.trapAt cause addr detail pc = (t.leave (ownKey s n) i).postTrap s.owner post := by
    rw [trapAt, drained_now _ hc, hroom]
    rfl
  have left : s.Vacated (t.leave (ownKey s n) i) := leave_vacates (s := t) hc _ _
  obtain ⟨es, hi⟩ := t.getInstar_leave (ownKey s n) i
  have recorded : ((t.leave (ownKey s n) i).owner? s.owner).isSome = true := by rwa [owner?, owners_leave (s := t) hc]
  obtain ⟨st, v, l, htold⟩ := postTrap_tells (t := post) recorded rfl hi rfl
  rw [freezes]
  exact ⟨left.of_steady (steady_postTrap _ _ _), st, v, l, es, htold⟩

end Sys2Proof.Machine.State
end

section
/-! PROOF. The statement about taking an exception: it fails where the trapping context's owner has no record, for an entry that cannot be posted waits in its owner's record (R126, R184), and holds for every owner that has one. -/

namespace Sys2Proof.Machine

namespace State

/-- A translation of O2's work area on die 0. -/
def workAreaOfO2 : Trans :=
  { owner := 2, va := workVa 0 0, size := 4096, pa := 0x800000, read := true, write := true, exec := false, repl := false, stop := 1, dirty := true }

/-- Core 0 has been taken from O2 while a context of O2 runs there (R418), and die 0's interface still holds O2's translation; the owners that have records are those given. -/
def underReclaim (owners : List (Nat × OwnerRec)) : State :=
  { reset with
    live := true
    owners := owners
    leaving := [{ entry := entryOfCore 0, owner := 2, owners := [2], by_ := 1, cause := 1, told := [2], back := none, scrub := true }]
    ifaces := [(0, { Iface.fresh with leaf := [workAreaOfO2] })] }

/-- O2 has no record. -/
def recordless : State := underReclaim [(1, OwnerRec.boot)]

theorem findRoom_recordless : recordless.findRoom.1 = .at 0 := by decide +kernel

/-- The frozen context's instar waits with its entry, for O2 has no trap queue. -/
theorem instar_recordless_trap : ((recordless.trap 0x14 0).getInstar (Spec.ownKey recordless 0)).map (·.state) = some .held := by decide +kernel

/-- No record has come to hold the entry. -/
theorem held_recordless_trap : ((recordless.trap 0x14 0).ownerRec recordless.owner).held = [] := by decide +kernel

end State

/-- Refutes O45: BKPT in a context whose owner has no record. Its instar is one whose entry is held, as in R184, but no owner's record holds the entry. -/
theorem not_takingAnException : ¬ Obligations.TakingAnException := by
  unfold Obligations.TakingAnException
  intro h
  obtain ⟨u, x, hu, -, -, hx, -, -, -, -, -, -, -, htold⟩ :=
    h 0 0 0 0 State.recordless _ ⟨rfl, by decide⟩ rfl (Prod.ext State.findRoom_recordless rfl) .bkpt 0x14 0 State.recordless.ctx.pc (by simp)
  obtain rfl : State.recordless.trap 0x14 0 = u := Host.Outcome.next.inj hu
  obtain hposted | ⟨-, p, hp, -⟩ := htold
  · have hheld := State.instar_recordless_trap
    rw [hx, Option.map_some, hposted] at hheld
    cases hheld
  · rw [State.held_recordless_trap] at hp
    cases hp

/-- The statement of O45 with the hypothesis that it lacks: the context's owner has a record. -/
theorem takingAnException_of_record (r imm w n : Nat) (s t : State) (hring : Spec.InRing s) (hc : s.core.combining = []) (hroom : s.findRoom = (.at n, t)) (hrec : (s.owner? s.owner).isSome = true)
    (i : Instr) (cause : Nat) (detail : Word) (pc : BitVec 57)
    (hi : (i, cause, detail, pc) ∈ [(.trap r imm, 0x13, s.rx r + (BitVec.ofNat 12 imm).signExtend 64, s.ctx.pc + 4), (.bkpt, 0x14, 0, s.ctx.pc), (.illop w, 0x01, BitVec.ofNat 64 w, s.ctx.pc)]) :
    ∃ u x, Spec.Answers i s u ∧ u.live = false ∧ u.core.slots.toList.getD s.running (.empty 9) = .empty 0 ∧ u.getInstar (Spec.ownKey s n) = some x ∧ x.why = 4 ∧ x.long = true ∧ x.pc = pc ∧ x.regs = s.ctx.x ∧ x.stat = s.ctx.stat ∧ x.rstack = s.ctx.rstack ∧ x.flight = s.ctx.flight ∧
      (x.state = .posted ∨ (x.state = .held ∧ ∃ p, (u.ownerRec s.owner).held.getLast? = some p ∧ p.cause = cause ∧ p.detail = detail ∧ p.key = some (Spec.ownKey s n) ∧ p.pc = s.ctx.pc.setWidth 64)) := by
  obtain ⟨-, hrunning⟩ := hring
  have answers : Spec.Answers i s (s.trapAt cause 0 detail pc) := by
    simp only [List.mem_cons, Prod.mk.injEq, List.not_mem_nil, or_false] at hi
    obtain ⟨rfl, rfl, rfl, rfl⟩ | ⟨rfl, rfl, rfl, rfl⟩ | ⟨rfl, rfl, rfl, rfl⟩ := hi
    · rw [← imm12_eq]
      rfl
    · rfl
    · rfl
  obtain ⟨⟨hlive, hslots, -⟩, st, v, l, es, hx, htold⟩ := State.trapAt_tells hc hroom hrec cause 0 detail pc
  refine ⟨_, _, answers, hlive, ?_, hx, rfl, rfl, rfl, rfl, rfl, rfl, rfl, ?_⟩
  · rw [hslots, State.slots_set_same _ hrunning]
  · exact htold.imp id fun ⟨hheld, hnewest⟩ => ⟨hheld, _, hnewest, rfl, rfl, rfl, rfl⟩

/-- With a record for O2, the state of the refutation meets every hypothesis. -/
theorem record_underReclaim :
    let s := State.underReclaim [(1, OwnerRec.boot), (2, OwnerRec.boot)]
    Spec.InRing s ∧ s.core.combining = [] ∧ s.findRoom.1 = .at 0 ∧ (s.owner? s.owner).isSome = true := by decide +kernel

end Sys2Proof.Machine
end

section
/-! PROOF. Local accesses of the scratchpad: where R339 lets them through, what a load reads and what a store leaves (R195, R246, R338). -/

namespace Sys2Proof.Machine

namespace State

open Sys2Proof.Spec

/-! ## What holds an access back -/

theorem matq_getCore_here (s : State) : (s.getCore s.coreNo).matq = s.core.matq := by
  rw [getCore, if_pos rfl, coreInView]
  split <;> rfl

theorem matHolds_of_matq (s t : State) (hmatq : t.core.matq = s.core.matq) (off n : Nat) (write : Bool) :
    t.matHolds t.coreNo off n write = s.matHolds s.coreNo off n write := by
  rw [matHolds, matHolds, matq_getCore_here, matq_getCore_here, hmatq]

/-- What lets a write through lets a read through (R377). -/
theorem matHolds_read {s : State} {core off n : Nat} (h : s.matHolds core off n true = false) : s.matHolds core off n false = false := by
  refine List.any_eq_false.2 fun m hm holds => List.any_eq_false.1 h m hm ?_
  simp only [Bool.false_and, Bool.or_false, Bool.and_eq_true] at holds
  simp [holds]

/-- A local access of n bytes that R339 lets through, at an address of the scratchpad. -/
structure ScratchAccess (s : State) (v : Word) (n : Nat) (write : Bool) : Prop where
  aligned : v.toNat % n = 0
  inSpace : v.toNat < 0x200000
  region  : s.regionOf v.toNat = .scratch
  noSplit : s.splitHolds v.toNat = false
  noMat   : s.matHolds s.coreNo v.toNat n write = false

theorem localChecked_scratch {s : State} {v : Word} {n : Nat} {write : Bool} (h : s.ScratchAccess v n write) (k : State → Nat → State) :
    s.localChecked v n write k = k s v.toNat := by
  simp [localChecked, h.aligned, h.noSplit, h.region, h.noMat, h.inSpace]

section
variable {s : State} {a imm n : Nat} {v : Word} (hv : s.rx a + imm12 imm = v) (htag : s.tagAt (sramKey s.coreNo v.toNat) = 0)
include hv htag

/-- A load of the scratchpad whose word is VAL and not poisoned writes what it reads to its register (R338). -/
theorem localLoad_scratch (rd : Nat) (wide : Bool) (ext : Word → Word) (h : s.ScratchAccess v n false) (hpoison : s.poisoned (sramKey s.coreNo v.toNat) n = false) :
    s.localLoad rd a imm n wide ext = retire s rd (ext (word (s.natAt (sramKey s.coreNo v.toNat) n))) := by
  rw [localLoad, hv, localChecked_scratch h, ← retire_eq]
  simp [h.region, hpoison, htag]

/-- A store to the scratchpad of a core, to a word that is VAL, is performed at issue (R246). -/
theorem localStore_scratch (b : Nat) (h : s.ScratchAccess v n true) (hcore : isMc s.coreNo = false) :
    s.localStore b a imm n = (s.storeLocal (sramKey s.coreNo v.toNat) (offsets (toBytes n (s.rx b).toNat))).next := by
  rw [localStore, hv, localChecked_scratch h]
  simp [h.region, hcore, htag]

end

/-! ## What a store leaves -/

/-- A store in local SRAM changes memory and poison, and poisons nothing. -/
theorem storeLocal_eq (s : State) (k : Nat) (bs : List Byte) :
    ∃ p, p ⊆ s.poison ∧ s.storeLocal k (offsets bs) = { s with mem := (s.setBytes k bs).mem, poison := p } := by
  refine ⟨_, ?_, by rw [storeLocal, setOffsets_offsets, setBytes_eq, unpoison]⟩
  exact List.filter_subset_self _

theorem poisoned_of_subset {s t : State} {k n : Nat} (h : t.poison ⊆ s.poison) (hs : s.poisoned k n = false) : t.poisoned k n = false :=
  List.any_eq_false.2 fun p hp => List.any_eq_false.1 hs p (h hp)

theorem natAt_setBytes_toBytes (s : State) (k n v : Nat) : (s.setBytes k (toBytes n v)).natAt k n = v % 2 ^ (8 * n) := by
  have stored := s.bytesAt_setBytes_same k (toBytes n v)
  rw [length_toBytes] at stored
  rw [natAt, stored, ofBytes_toBytes, Nat.pow_mul]

theorem natAt_of_mem {s t : State} (h : t.mem = s.mem) (k n : Nat) : t.natAt k n = s.natAt k n := by
  simp only [natAt, bytesAt, byteAt, h]

/-- A load after a store of the same width and address reads the low bytes of the stored register (R246). -/
theorem localLoad_after_localStore {s : State} {a imm n : Nat} {v : Word} (hv : s.rx a + imm12 imm = v) (h : s.ScratchAccess v n true) (hcore : isMc s.coreNo = false)
    (htag : s.tagAt (sramKey s.coreNo v.toNat) = 0) (hpoison : s.poisoned (sramKey s.coreNo v.toNat) n = false) (b rd : Nat) (wide : Bool) (ext : Word → Word) :
    (s.localStore b a imm n).localLoad rd a imm n wide ext = retire (s.localStore b a imm n) rd (ext (word ((s.rx b).toNat % 2 ^ (8 * n)))) := by
  let k := sramKey s.coreNo v.toNat
  let bs := toBytes n (s.rx b).toNat
  obtain ⟨p, hp, stored⟩ := s.storeLocal_eq k bs
  let t : State := State.next { s with mem := (s.setBytes k bs).mem, poison := p }
  have after : s.localStore b a imm n = t := (localStore_scratch hv htag b h hcore).trans (congrArg next stored)
  have queued : t.matHolds t.coreNo v.toNat n false = s.matHolds s.coreNo v.toNat n false := matHolds_of_matq s t rfl _ _ _
  have access : t.ScratchAccess v n false := ⟨h.aligned, h.inSpace, h.region, h.noSplit, queued.trans (matHolds_read h.noMat)⟩
  have reads : t.natAt k n = (s.rx b).toNat % 2 ^ (8 * n) := (natAt_of_mem rfl k n).trans (s.natAt_setBytes_toBytes k n _)
  have loads := localLoad_scratch (s := t) hv htag rd wide ext access (poisoned_of_subset hp hpoison)
  rw [after, loads]
  exact congrArg (fun m => retire t rd (ext (word m))) reads

theorem rx_retire_same (s : State) {rd : Nat} (v : Word) (hpos : 0 < rd) (hrd : NoPort rd) : (retire s rd v).rx rd = v := by
  rw [← retire_eq, rx_next, rx_wx s rd rd v hrd, if_pos ⟨rfl, hpos.ne'⟩]

end State

end Sys2Proof.Machine
end

section
/-! PROOF. The statement about a load after a store, from the lemma about local accesses. -/

namespace Sys2Proof.Machine

open Sys2Proof.Spec

/-- Settles O19: each pair is a local store and the zero-extending local load of one width. -/
theorem localLoadAfterStore : Obligations.LocalLoadAfterStore := by
  unfold Obligations.LocalLoadAfterStore
  intro p hp b a rd imm s A k haligned hspace hregion hsplit hmat hcore htag hpoison hpos hrd
  have reads (wide : Bool) : ((s.localStore b a imm p.2.2).localLoad rd a imm p.2.2 wide id).rx rd = BitVec.ofNat 64 ((s.rx b).toNat % 2 ^ (8 * p.2.2)) := by
    rw [State.localLoad_after_localStore (by rw [imm12_eq]) ⟨haligned, hspace, hregion, hsplit, hmat⟩ hcore htag hpoison]
    exact State.rx_retire_same _ _ hpos hrd
  simp only [List.mem_cons, List.not_mem_nil, or_false] at hp
  obtain rfl | rfl | rfl | rfl := hp
  · exact ⟨_, _, rfl, rfl, reads false⟩
  · exact ⟨_, _, rfl, rfl, reads false⟩
  · exact ⟨_, _, rfl, rfl, reads false⟩
  · exact ⟨_, _, rfl, rfl, reads true⟩

end Sys2Proof.Machine
end

section
/-! PROOF. Stores that a fence waits for: those of the running context that have left its combining entries, and nothing of the device's own (R250 to R253). -/

namespace Sys2Proof.Machine

namespace State

open Sys2Proof.Spec

theorem combining_getCore_here (s : State) : (s.getCore s.coreNo).combining = s.core.combining := by
  rw [getCore, if_pos rfl, coreInView]
  split <;> rfl

/-- With no write of any context on its way, nothing is left to wait for. -/
theorem storesDone_none {s : State} (scope : Nat) (hcombining : s.core.combining = []) (hinflight : s.inflight = []) (harrived : s.arrived = []) (hrequests : s.fabric.requests = []) :
    s.storesDone s.coreNo s.running scope = true := by
  simp [storesDone, sentDone, combining_getCore_here, hcombining, hinflight, harrived, hrequests]

/-- A store in flight of the context that runs now: no write of the device's own, and filed under the context's ring slot. -/
abbrev OwnStore (s : State) (f : Flying) : Prop := ofDevice f = false ∧ f.home = s.coreNo ∧ f.slot = s.running ∧ f.inst = none

theorem isBy_ownStore {s : State} {f : Flying} (h : s.OwnStore f) : isBy { core := s.coreNo, slot := s.running } f.core f.home f.slot f.inst = true := by
  obtain ⟨hdevice, hhome, hslot, hinst⟩ := h
  rw [ofDevice, Bool.or_eq_false_iff] at hdevice
  simp [isBy, bne, hdevice, hhome, hslot, hinst]

theorem one_lt_of_covers {scope k : Nat} (h : covers scope k = true) : 1 < scope := by
  by_contra hle
  rw [covers, if_pos (not_lt.1 hle)] at h
  cases h

theorem storesDone_ownStore {s : State} {f : Flying} {scope : Nat} (hf : f ∈ s.inflight) (hown : s.OwnStore f) (hcovers : covers scope f.key = true) :
    s.storesDone s.coreNo s.running scope = false := by
  have waitsFor : s.inflight.all (fun f => !(isBy { core := s.coreNo, slot := s.running } f.core f.home f.slot f.inst && covers scope f.key)) = false :=
    List.all_eq_false.2 ⟨f, hf, by simp [isBy_ownStore hown, hcovers]⟩
  have unsent : s.sentDone { core := s.coreNo, slot := s.running } scope = false := by
    rw [sentDone, waitsFor]
    rfl
  simp [storesDone, unsent, one_lt_of_covers hcovers]

/-! ## Fences -/

theorem release_passes {s : State} {scope : Nat} (k : State → State) (hcombining : s.core.combining = []) (hdone : s.storesDone s.coreNo s.running scope = true) :
    s.release scope k = k s := by
  rw [release, drained_now _ hcombining, if_pos hdone]

theorem release_waits {s : State} {scope : Nat} (k : State → State) (hcombining : s.core.combining = []) (hdone : s.storesDone s.coreNo s.running scope = false) :
    s.release scope k = s.await (.again 4) := by
  rw [release, drained_now _ hcombining, hdone]
  rfl

theorem inScope_granted {s : State} {scope : Nat} (k : State → State) (h : s.hasGrant s.owner scope = true) : s.inScope scope k = k s := if_pos h

theorem inScope_refused {s : State} {scope : Nat} (k : State → State) (h : s.hasGrant s.owner scope = false) : s.inScope scope k = s.trap 0x07 (word scope) := by
  rw [inScope, h]
  rfl

theorem fence_acquire {s : State} {scope : Nat} (h : s.hasGrant s.owner scope = true) (hcombining : s.core.combining = []) : s.fence 1 scope = goTo s (s.ctx.pc + 4) := by
  rw [fence, inScope_granted _ h, if_pos rfl, drained_now _ hcombining]
  rfl

theorem fence_release {s : State} {ord scope : Nat} (hord : ord ≠ 1) (h : s.hasGrant s.owner scope = true) : s.fence ord scope = s.release scope next := by
  rw [fence, inScope_granted _ h, if_neg hord]

end State

end Sys2Proof.Machine
end

section
/-! PROOF. The statement about fences: it fails for a write of the device's own that stands under the number of the context's ring slot, for no context waits for such a write (R251), and holds for every store of the context. -/

namespace Sys2Proof.Machine

open Sys2Proof.Spec

namespace State

/-- A word of an instar's record in die 0's part of O1's work area, which lies in the frame at 0x400000. -/
def recordWord : Dest × Word := ({ key := 0x400000, va := workVa 0 0, iface := 0, stop := 1 }, 1)

/-- A context runs in slot 0 of core 0, and the device has written the record's word while a lease stands on its line, so that the write is still on its way (R241). -/
def deviceWriting : State := State.deviceStore { reset with live := true, leases := [(lineKey 0x400000, 0, 1)] } 1 [recordWord]

/-- The write stands where a store of the context would: interface 0 has the number of core 0. -/
theorem inflight_deviceWriting :
    ∃ f ∈ deviceWriting.inflight, f.home = deviceWriting.coreNo ∧ f.slot = deviceWriting.running ∧ f.inst = none ∧ covers 2 f.key = true := by decide +kernel

theorem fence_deviceWriting : (deviceWriting.fence 2 2).ctx.wait = .ready := by decide +kernel

end State

/-- Refutes O26: FENCE.rel.qd while interface 0 has a write of its own on its way. The write carries the number and the slot of the context of core 0, and the fence passes. -/
theorem not_fencesWaitForCoveredStores : ¬ Obligations.FencesWaitForCoveredStores := by
  unfold Obligations.FencesWaitForCoveredStores
  intro h
  obtain ⟨-, waits, -⟩ := h 2 State.deviceWriting
  obtain ⟨hrel, -⟩ := waits rfl (by decide +kernel) State.inflight_deviceWriting
  have hawait : State.deviceWriting.fence 2 2 = State.deviceWriting.await (.again 4) := Host.Outcome.next.inj hrel
  have passed := State.fence_deviceWriting
  rw [hawait] at passed
  cases passed

/-- The statement of O26 with the condition that it lacks: the store in flight is none of the device's own writes. -/
theorem fencesWaitForCoveredStores_of_ownStore (scope : Nat) (s : State) :
    (s.hasGrant s.owner scope = true → s.core.combining = [] → s.inflight = [] → s.arrived = [] → s.fabric.requests = [] →
      Answers (.fenceAcq scope) s (goTo s (s.ctx.pc + 4)) ∧ Answers (.fenceRel scope) s (goTo s (s.ctx.pc + 4)) ∧ Answers (.fenceAr scope) s (goTo s (s.ctx.pc + 4))) ∧
    (s.hasGrant s.owner scope = true → s.core.combining = [] → (∃ f ∈ s.inflight, s.OwnStore f ∧ State.covers scope f.key = true) →
      Answers (.fenceRel scope) s (s.await (.again 4)) ∧ Answers (.fenceAr scope) s (s.await (.again 4))) ∧
    (s.hasGrant s.owner scope = false →
      Answers (.fenceAcq scope) s (s.trap 0x07 (BitVec.ofNat 64 scope)) ∧ Answers (.fenceRel scope) s (s.trap 0x07 (BitVec.ofNat 64 scope)) ∧ Answers (.fenceAr scope) s (s.trap 0x07 (BitVec.ofNat 64 scope))) := by
  refine ⟨fun hgrant hcombining hinflight harrived hrequests => ?passes, fun hgrant hcombining ⟨f, hf, hown, hcovers⟩ => ?waits, fun hrefused => ?refused⟩
  case passes =>
    have done := State.storesDone_none scope hcombining hinflight harrived hrequests
    have passes (ord : Nat) (hord : ord ≠ 1) : s.fence ord scope = goTo s (s.ctx.pc + 4) := (State.fence_release hord hgrant).trans (State.release_passes _ hcombining done)
    exact ⟨answers_of_eq rfl (State.fence_acquire hgrant hcombining), answers_of_eq rfl (passes 2 (by decide)), answers_of_eq rfl (passes 3 (by decide))⟩
  case waits =>
    have waits (ord : Nat) (hord : ord ≠ 1) : s.fence ord scope = s.await (.again 4) :=
      (State.fence_release hord hgrant).trans (State.release_waits _ hcombining (State.storesDone_ownStore hf hown hcovers))
    exact ⟨answers_of_eq rfl (waits 2 (by decide)), answers_of_eq rfl (waits 3 (by decide))⟩
  case refused =>
    have traps (ord : Nat) : s.fence ord scope = s.trap 0x07 (BitVec.ofNat 64 scope) := State.inScope_refused _ hrefused
    exact ⟨answers_of_eq rfl (traps 1), answers_of_eq rfl (traps 2), answers_of_eq rfl (traps 3)⟩

/-- A store of the context under way, which the scope .qd covers, meets the condition. -/
theorem ownStore_inflight :
    let f : Flying := { key := 0x400000, bytes := [(0, 1)], owner := 1, core := 0, slot := 0, va := 0x80000000, stop := 1, issue := 0 }
    let s : State := { State.reset with live := true, inflight := [f] }
    s.hasGrant s.owner 2 = true ∧ s.core.combining = [] ∧ s.OwnStore f ∧ State.covers 2 f.key = true := by decide +kernel

end Sys2Proof.Machine
end

section
/-! PROOF. A step takes the first turn of the schedule (log 4), whatever that is. -/

namespace Sys2Proof.Machine

/-- The turn of a step is the schedule's first, which leaves the schedule. -/
theorem State.nextTurn_scheduled {s : State} {t : Turn} {l : List Turn} (h : s.schedule = t :: l) : s.nextTurn = (some t, { s with schedule := l }) := by
  rw [State.nextTurn, h]

theorem step_of_schedule {s : State} {t : Turn} {l : List Turn} (h : s.tick.schedule = t :: l) : step s = takeTurn (some t, { s.tick with schedule := l }) :=
  congrArg takeTurn (State.nextTurn_scheduled h)

/-- Settles O2: the schedule's first turn is the step's, and what a turn does is read off its kind. -/
theorem stepTakesScheduledEvent : Obligations.StepTakesScheduledEvent := by
  unfold Obligations.StepTakesScheduledEvent
  intro s i a n l
  exact ⟨fun hevent => step_of_schedule hevent, fun helapse => step_of_schedule helapse⟩

end Sys2Proof.Machine
end

section
/-! PROOF. What translation, wakes, transactions that leave and the device's own writes change, and that no access changes whether accesses complete by events (log 4). -/

namespace Sys2Proof.Machine.State

/-! ## Below arrivals: one list of what may change -/

/-- The state without the parts that translations, log entries, transactions, records of instars and ring entries are written to: each of these leaves the rest as it was, the tags among it. -/
def bare (s : State) : State :=
  { s with mem := [], ifaces := [], instars := [], rings := [], inflight := [], unwritten := [], host := reset.host, log := reset.log, side := reset.side, fabric := reset.fabric, out := [], due := [], l2 := [] }

theorem tags_of_bare {s t : State} (h : t.bare = s.bare) : t.tags = s.tags := congrArg (·.tags) h
theorem async_of_bare {s t : State} (h : t.bare = s.bare) : t.async = s.async := congrArg (·.async) h

/-- Where an operation answers a value and a state, what the state keeps is read off the pair. -/
theorem bare_of_pair {α : Type} {r : α × State} {a : α} {s t : State} (h : r = (a, t)) (hr : r.2.bare = s.bare) : t.bare = s.bare := by
  rwa [h] at hr

theorem bare_logEntry (s : State) (kind uclass unit : Nat) (addr detail : Word) : (s.logEntry kind uclass unit addr detail).bare = s.bare := by
  obtain ⟨l, d, o, h, -⟩ := s.writes_logEntry kind uclass unit addr detail
  rw [h]
  rfl

theorem bare_logTo (s : State) (core town owner va k c : Nat) : (s.logTo core town owner va k c).bare = s.bare := by
  unfold logTo
  split
  · rfl
  · exact bare_logEntry _ _ _ _ _ _

theorem bare_logWalk (s : State) (owner va : Nat) (e : Service) : (s.logWalk owner va e).bare = s.bare := by
  unfold logWalk
  split
  · rfl
  · exact bare_logEntry _ _ _ _ _ _

theorem bare_logOnce (s : State) (owner va : Nat) (e : Service) : (s.logOnce owner va e).bare = s.bare := by
  unfold logOnce
  split
  · rfl
  · exact bare_logWalk _ _ _ _

theorem bare_setBytes (s : State) (k : Nat) (bs : List Byte) : (s.setBytes k bs).bare = s.bare := by
  rw [setBytes_eq]
  rfl

theorem bare_askHost (s : State) (port line : Nat) (inv : Bool) : (s.askHost port line inv).bare = s.bare := by
  unfold askHost
  split <;> rfl

theorem bare_askOwner (s : State) (k : Nat) : (s.askOwner k).bare = s.bare := by
  unfold askOwner
  split
  · exact bare_askHost _ _ _ _
  · rfl

theorem bare_lookUp (s : State) (iface owner va : Nat) (need : Need) : (s.lookUp iface owner va need).2.bare = s.bare := by
  unfold lookUp
  extract_lets i root r u j
  have walked : u.bare = s.bare := by
    unfold u
    split <;> rfl
  split
  next => rfl
  next =>
    split
    next => rfl
    next =>
      split
      next => rfl
      next =>
        split
        next =>
          refine Eq.trans ?_ walked
          dsimp only
          split
          · exact bare_askOwner _ _
          · rfl
        next =>
          refine Eq.trans ?_ walked
          dsimp only
          split <;> rfl

theorem bare_devicePlace (s : State) (iface owner va : Nat) : (s.devicePlace iface owner va).2.bare = s.bare := by
  unfold devicePlace
  dsimp only
  split
  · exact (bare_logOnce _ _ _ _).trans (bare_lookUp _ _ _ _ _)
  · exact bare_lookUp _ _ _ _ _

theorem bare_trapWord (s : State) (iface o va : Nat) : (s.trapWord iface o va).2.bare = s.bare := by
  unfold trapWord
  split
  next hp => exact bare_of_pair hp (bare_devicePlace _ _ _ _)
  next hp =>
    refine Eq.trans ?_ (bare_of_pair hp (bare_devicePlace _ _ _ _))
    dsimp only
    split
    · exact bare_logTo _ _ _ _ _ _ _
    · split
      · rfl
      · split
        · exact bare_askHost _ _ _ _
        · rfl

theorem bare_deviceStore (s : State) (owner : Nat) (ws : List (Dest × Word)) : (s.deviceStore owner ws).bare = s.bare := by
  unfold deviceStore
  split
  · rfl
  · exact foldl_keeps bare (fun s e => bare_setBytes s _ _) ws s

theorem bare_writeImage (s : State) (iface : Nat) (k : Key) : (s.writeImage iface k).bare = s.bare := by
  have place : (s.workPa iface k).2.bare = s.bare := bare_devicePlace _ _ _ _
  unfold writeImage
  split
  next hp =>
    refine Eq.trans ?_ (bare_of_pair hp place)
    dsimp only
    split
    · exact bare_deviceStore _ _ _
    · exact bare_logTo _ _ _ _ _ _ _
  next hp =>
    refine Eq.trans ?_ (bare_of_pair hp place)
    split <;> rfl
  next hp => exact bare_of_pair hp place

theorem bare_placeOne (s : State) (owner die prio : Nat) : (s.placeOne owner die prio).2.2.bare = s.bare := by
  unfold placeOne
  dsimp only
  split
  · split
    next hp => exact bare_of_pair hp (bare_devicePlace _ _ _ _)
    next hp =>
      refine Eq.trans ?_ (bare_of_pair hp (bare_devicePlace _ _ _ _))
      dsimp only
      split
      · exact bare_deviceStore _ _ _
      · exact bare_logTo _ _ _ _ _ _ _
  · rfl

theorem bare_readyImage (s : State) (k : Key) (i : Instar) : (s.readyImage k i).bare = s.bare := by
  refine (bare_writeImage _ _ _).trans ?_
  unfold readyInstar
  dsimp only
  split
  · rfl
  · exact bare_placeOne _ _ _ _

/-- A transaction that leaves on a port, or waits there, changes the fabric and the answers. -/
theorem sendFree_eq (s : State) (pkg key : Nat) (t : Txn) : ∃ f o, s.sendFree pkg key t = { s with fabric := f, out := o } := by
  unfold sendFree
  dsimp only
  split
  · unfold emit
    dsimp only
    split
    · exact ⟨_, _, rfl⟩
    · exact ⟨_, _, rfl⟩
  · exact ⟨_, _, rfl⟩

theorem bare_sendFree (s : State) (pkg key : Nat) (t : Txn) : (s.sendFree pkg key t).bare = s.bare := by
  obtain ⟨f, o, h⟩ := s.sendFree_eq pkg key t
  rw [h]
  rfl

/-- Waking a waiter list makes its instars ready and answers its proxies (R271); no tag changes. -/
theorem bare_wakeList (v : Word) (n : Nat) (s : State) (k : Option Key) : (s.wakeList v n k).bare = s.bare := by
  induction n generalizing s k with
  | zero => rfl
  | succ n ih =>
    cases k with
    | none => rfl
    | some k =>
      unfold wakeList
      split
      · rfl
      · split
        · exact (ih _ _).trans (bare_sendFree _ _ _ _)
        · exact (ih _ _).trans (bare_readyImage _ _ _)

theorem bare_flushDue (s : State) : s.flushDue.bare = s.bare := by
  unfold flushDue
  refine (foldl_keeps bare (fun s d => ?_) _ _).trans rfl
  split
  · exact bare_sendFree _ _ _ _
  · rfl

theorem mem_flushDue (s : State) : s.flushDue.mem = s.mem := by
  unfold flushDue
  refine (foldl_keeps mem (fun s d => ?_) _ _).trans rfl
  split
  next t _ _ =>
    obtain ⟨f, o, h⟩ := s.sendFree_eq t.dpkg t.score t
    rw [h]
  next => rfl

/-! ## The L2s: a write changes them and the host's side of their lines -/

theorem l2Evict_eq (s : State) (e : L2Line) : ∃ h, s.l2Evict e = { s with l2 := s.l2.erase e, host := h } := by
  unfold l2Evict
  dsimp only
  split
  · exact ⟨_, rfl⟩
  · exact ⟨_, rfl⟩

/-- A line that comes into an L2 may put another out. -/
theorem l2Put_eq (s : State) (e : L2Line) : ∃ l h, s.l2Put e = { s with l2 := l ++ [e], host := h } ∧ l ⊆ s.l2 := by
  unfold l2Put
  dsimp only
  split
  next o _ =>
    obtain ⟨h, evicted⟩ := s.l2Evict_eq o
    rw [evicted]
    exact ⟨_, _, rfl, List.erase_subset⟩
  next => exact ⟨_, _, rfl, List.Subset.refl _⟩

/-- A write that reaches its line leaves no shared copy that was not there before (R207). -/
theorem markLine_eq (s : State) (core k : Nat) (nonval : Bool) :
    ∃ l h, s.markLine core k nonval = { s with l2 := l, host := h } ∧ ∀ e ∈ l, e.excl = false → e ∈ s.l2 := by
  unfold markLine
  extract_lets line b keep u
  have stale : ∃ l, u = { s with l2 := l } ∧ l ⊆ s.l2 := by
    unfold u
    split
    · exact ⟨_, rfl, List.filter_subset_self _⟩
    · exact ⟨_, rfl, List.Subset.refl _⟩
  obtain ⟨l, hu, hl⟩ := stale
  clear_value b u
  subst hu
  split
  · exact ⟨_, _, rfl, fun e he _ => he⟩
  · split
    · exact ⟨_, _, rfl, fun e he _ => hl he⟩
    · extract_lets hit
      split
      · refine ⟨_, _, rfl, fun e he hshared => ?_⟩
        obtain ⟨x, hx, rfl⟩ := List.mem_map.1 he
        split at hshared
        · cases hshared
        next other =>
          rw [if_neg other]
          exact hl hx
      next n _ _ =>
        obtain ⟨l', h, put, hl'⟩ := State.l2Put_eq { s with l2 := l } { die := dieOf n, line := line, excl := true, stop := 0, granted := 0, contended := hit }
        refine ⟨_, _, put, fun e he hshared => ?_⟩
        obtain he | he := List.mem_append.1 he
        · exact hl (hl' he)
        · obtain rfl := List.mem_singleton.1 he
          cases hshared

theorem bare_markLine (s : State) (core k : Nat) (nonval : Bool) : (s.markLine core k nonval).bare = s.bare := by
  obtain ⟨l, h, marked, -⟩ := s.markLine_eq core k nonval
  rw [marked]
  rfl

/-! ## Arrivals and accesses: whether accesses complete by events (log 4) -/

theorem async_setTag (s : State) (k : Nat) (t : BitVec 2) : (s.setTag k t).async = s.async := by
  unfold setTag
  split <;> rfl

theorem async_applyArrived (s : State) (a : Arrived) : (s.applyArrived a).async = s.async := by
  unfold applyArrived
  extract_lets w t u v x
  have hu : u.async = s.async := by
    unfold u
    rw [setOffsets_eq]
    rfl
  have hv : v.async = s.async := by
    unfold v
    split
    · exact (async_setTag _ _ _).trans hu
    · exact hu
  have hx : x.async = s.async := (async_of_bare (bare_wakeList _ _ _ _)).trans hv
  split
  · split <;> exact hx
  · exact hv

theorem async_settleList (as : List Arrived) (s : State) : (s.settleList as).async = s.async := by
  induction as generalizing s with
  | nil => rfl
  | cons a as ih =>
    unfold settleList
    split
    · exact (ih _).trans (async_applyArrived _ _)
    · exact ih _

theorem async_arriveFor (s : State) (b : By) (v0 k : Nat) (bs : List (Nat × Byte)) (tag : Option (BitVec 2)) (wake : Bool) :
    (s.arriveFor b v0 k bs tag wake).async = s.async :=
  calc (s.arriveFor b v0 k bs tag wake).async = _ := async_of_bare (bare_flushDue _)
    _ = (s.markLine b.core k (tag.any (· != 0))).async := async_settleList _ _
    _ = s.async := async_of_bare (bare_markLine _ _ _ _)

theorem async_arriveSeq (core : Nat) (l : List (Dest × Word)) (s : State) (v : Nat) : (s.arriveSeq core l v).2.async = s.async := by
  induction l generalizing s v with
  | nil => rfl
  | cons e l ih => exact (ih _ _).trans (async_arriveFor _ _ _ _ _ _ _)

theorem async_deviceSeq (s : State) (core owner : Nat) (l : List (Dest × Word)) : (s.deviceSeq core owner l).async = s.async := by
  unfold deviceSeq
  split
  · rfl
  · exact async_arriveSeq _ _ _ _

/-- A fold of a pair keeps a part of its state that every step keeps. -/
theorem foldl_keeps_snd {α β γ : Type} (part : State → β) {f : γ × State → α → γ × State} (hf : ∀ r a, part (f r a).2 = part r.2) (l : List α) (r : γ × State) :
    part (l.foldl f r).2 = part r.2 := by
  induction l generalizing r with
  | nil => rfl
  | cons a l ih => exact (ih (f r a)).trans (hf r a)

theorem async_mergeOwner (s : State) (a o : Nat) (l : List (Nat × Nat × Nat)) : (s.mergeOwner a o l).2.async = s.async := by
  have header := async_of_bare (bare_trapWord s a o (dirtyRing a))
  -- The kernel would count up to the modulus of PROD as it compares the room that it leaves: a variable stands for it.
  obtain ⟨wrap, hwrap⟩ : ∃ n, 2 ^ 64 = n := ⟨_, rfl⟩
  unfold mergeOwner
  rw [hwrap]
  split
  next => rfl
  next =>
    split
    next hp => rwa [hp] at header
    next h u hp =>
      rw [hp] at header
      refine Eq.trans ?_ header
      extract_lets prod room put lost spots
      have placed : spots.2.async = u.async := by
        unfold spots
        refine foldl_keeps_snd async (fun r i => ?_) _ _
        split
        next => rfl
        next =>
          split
          next hq => exact async_of_bare (bare_of_pair hq (bare_trapWord _ _ _ _))
          next hq => exact async_of_bare (bare_of_pair hq (bare_trapWord _ _ _ _))
      clear_value spots
      split
      next => exact placed
      next => exact (async_deviceSeq _ _ _ _).trans placed

theorem async_merge (s : State) (a : Nat) (one : Option Nat) : (s.merge a one).async = s.async := by
  have cleared (p : Nat × Nat × Nat → Bool) (u : State) : ((agentIfaces a).foldl (fun s i => s.setIface i { s.getIface i with dirty := (s.getIface i).dirty.filter p }) u).async = u.async := by
    refine foldl_keeps async (fun s i => ?_) _ _
    rfl
  unfold merge
  extract_lets mine all
  refine foldl_keeps async (fun s o => ?_) _ _
  extract_lets r
  have merged : r.2.async = s.async := by
    unfold r
    split
    · exact async_mergeOwner _ _ _ _
    · rfl
  split
  · exact merged
  · exact (cleared _ _).trans merged

/-- An agent that is asked for a line merges what it has of the owner (R238). -/
theorem async_harvestWaits (s : State) (va owner : Nat) : (s.harvestWaits va owner).2.async = s.async := by
  unfold harvestWaits
  split
  next a _ =>
    unfold harvestAsked
    extract_lets left u
    have merged : u.async = s.async := by
      unfold u
      split
      · exact async_merge _ _ _
      · rfl
    split <;> exact merged
  next => rfl

theorem async_noteAts (s : State) (core pa : Nat) : (s.noteAts core pa).async = s.async := by
  unfold noteAts
  split
  · split <;> rfl
  · rfl

theorem async_spotAt (s : State) (core space va pa : Nat) (t : Trans) : (s.spotAt core space va pa t).2.async = s.async := by
  unfold spotAt
  dsimp only
  split
  · rfl
  · split
    · rfl
    · exact (async_noteAts _ _ _).trans (async_harvestWaits _ _ _)

theorem async_noteDirty (s : State) (iface : Nat) (t : Trans) (cached : Bool) : (s.noteDirty iface t cached).async = s.async := by
  unfold noteDirty
  dsimp only
  split
  · split <;> rfl
  · split <;> rfl

theorem async_translate (s : State) (iface owner va : Nat) (need : Need) : (s.translate iface owner va need).2.async = s.async := by
  have looked := async_of_bare (s.bare_lookUp iface owner va need)
  unfold translate
  split
  next hp =>
    rw [hp] at looked
    refine Eq.trans ?_ looked
    dsimp only
    split
    · exact async_noteDirty _ _ _ _
    · rfl
  next hp =>
    rw [hp] at looked
    exact (async_of_bare (bare_logWalk _ _ _ _)).trans looked

theorem async_locate (s : State) (core space va n : Nat) (need : Need) : (s.locate core space va n need).2.async = s.async := by
  unfold locate
  split
  next =>
    split
    · split <;> rfl
    · split
      · split <;> rfl
      · rfl
  next =>
    split
    next => rfl
    next =>
      have translated := s.async_translate (ifaceOf core) space va need
      split
      next hp => rwa [hp] at translated
      next hp =>
        rw [hp] at translated
        exact (async_spotAt _ _ _ _ _ _).trans translated

theorem async_setCore (s : State) (n : Nat) (c : Core) : (s.setCore n c).async = s.async := by
  unfold setCore
  split
  · split <;> rfl
  · rfl

theorem async_dropSector (s : State) (core owner va : Nat) : (s.dropSector core owner va).async = s.async := by
  unfold dropSector
  refine foldl_keeps async (fun s m => ?_) _ _
  dsimp only
  split
  · exact async_setCore _ _ _
  · rfl

end Sys2Proof.Machine.State
end

section
/-! PROOF. Cell operations: the word at its home, the access that reaches it, and CMK's FLIGHT before it (R241, R264, R266 to R268, R352 to R354). -/

namespace Sys2Proof.Machine

theorem ofBytes_lt (bs : List Byte) : ofBytes bs < 256 ^ bs.length := by
  induction bs with
  | nil => decide
  | cons b bs ih =>
    have hb : b.toNat < 256 := b.isLt
    rw [ofBytes, List.length_cons, Nat.pow_succ]
    omega

/-- A maximum over what a test picks is zero where it picks nothing, each pick counting for something. -/
theorem foldl_max_eq_zero_iff {α : Type} (p : α → Prop) [DecidablePred p] (f : α → Nat) (hpos : ∀ a, p a → f a ≠ 0) (l : List α) (m : Nat) :
    l.foldl (fun m a => if p a then max m (f a) else m) m = 0 ↔ m = 0 ∧ ∀ a ∈ l, ¬ p a := by
  induction l generalizing m with
  | nil => simp
  | cons a l ih =>
    rw [List.foldl_cons, ih]
    by_cases ha : p a
    · have := hpos a ha
      rw [if_pos ha, Nat.max_eq_zero_iff]
      simp [ha, this]
    · simp [ha]

namespace State

/-! ## A write before whose V nothing stands (R241) -/

/-- No lease stands on a line: none at the first level, and no shared copy in an L2. -/
theorem leaseEnd_eq_zero_iff (s : State) (k : Nat) :
    s.leaseEnd k = 0 ↔ (∀ l ∈ s.leases, ¬ (l.1 = lineKey k ∧ s.time < l.2.2)) ∧ ∀ e ∈ s.l2, ¬ (e.line = lineKey k ∧ e.excl = false ∧ s.time < e.stop) := by
  unfold leaseEnd
  rw [foldl_max_eq_zero_iff (fun e : L2Line => e.line = lineKey k ∧ e.excl = false ∧ s.time < e.stop) (·.stop) (fun e ⟨_, _, h⟩ => Nat.ne_zero_of_lt h),
    foldl_max_eq_zero_iff (fun l : Nat × Nat × Nat => l.1 = lineKey k ∧ s.time < l.2.2) (·.2.2) (fun l ⟨_, h⟩ => Nat.ne_zero_of_lt h)]
  simp

/-- A place in HBM4E or SRAM that carries tags, on whose line no lease stands while no write waits for its V. -/
structure Settled (s : State) (k : Nat) : Prop where
  memory  : storage k = .hbm ∨ storage k = .sram
  tagged  : tagged k = true
  arrived : s.arrived = []
  unleased : s.leaseEnd k = 0

theorem Settled.formV {s : State} {k : Nat} (h : s.Settled k) (n : Nat) : s.formV k n = s.time := by
  obtain hbm | sram := h.memory
  · exact formV_now n hbm h.unleased h.arrived
  · simp [State.formV, sram, h.arrived]

theorem Settled.markLine {s : State} {k : Nat} (h : s.Settled k) (core : Nat) (nonval : Bool) : (s.markLine core k nonval).Settled k ∧ (s.markLine core k nonval).mem = s.mem := by
  obtain ⟨l, x, marked, old⟩ := s.markLine_eq core k nonval
  obtain ⟨first, shared⟩ := (s.leaseEnd_eq_zero_iff k).1 h.unleased
  have unleased : State.leaseEnd { s with l2 := l, host := x } k = 0 :=
    (leaseEnd_eq_zero_iff _ k).2 ⟨first, fun e he ⟨line, copy, stands⟩ => shared e (old e he copy) ⟨line, copy, stands⟩⟩
  rw [marked]
  exact ⟨⟨h.memory, h.tagged, h.arrived, unleased⟩, rfl⟩

/-- The only arrival, its time come, is applied; then the answers that are due leave. -/
theorem settle_alone {s : State} {a : Arrived} (harrived : s.arrived = [a]) (hvis : a.vis ≤ s.time) : s.settle = (State.applyArrived { s with arrived := [] } a).flushDue := by
  have gone : s.arrived.filter (fun a => decide (s.time < a.vis)) = [] := by simp [harrived, hvis]
  rw [settle, gone, harrived, settleList, if_pos hvis]
  rfl

/-- A write arrives and is visible at once. -/
theorem arriveFor_settled {s : State} {k : Nat} (h : s.Settled k) (b : By) (bs : List (Nat × Byte)) (tag : Option (BitVec 2)) (wake : Bool) :
    ∃ m a, s.arriveFor b 0 k bs tag wake = (applyArrived m a).flushDue ∧ m.mem = s.mem ∧ m.tags = s.tags ∧ a.key = k ∧ a.bytes = bs ∧ a.tag = tag ∧ a.wake = wake := by
  obtain ⟨hm, mem⟩ := h.markLine b.core (tag.any (· != 0))
  have tags := tags_of_bare (s.bare_markLine b.core k (tag.any (· != 0)))
  let m := s.markLine b.core k (tag.any (· != 0))
  let a : Arrived := { key := k, bytes := bs, tag := tag, wake := wake, vis := max 0 (m.formV k (bs.foldl (fun z e => max z (e.1 + 1)) 0)), core := b.core, slot := b.slot, home := b.home, inst := b.inst }
  have now : a.vis = m.time := (Nat.zero_max _).trans (hm.formV _)
  have alone : m.arrived ++ [a] = [a] := by rw [hm.arrived, List.nil_append]
  exact ⟨{ m with arrived := [] }, a, settle_alone (s := { m with arrived := m.arrived ++ [a] }) alone now.le, mem, tags, rfl, rfl, rfl, rfl⟩

/-! ### What an arrival leaves of the word -/

theorem tagAt_of_tags {s t : State} (h : t.tags = s.tags) (k : Nat) : t.tagAt k = s.tagAt k := by
  simp only [tagAt, h]

theorem tagAt_setTag_same {k : Nat} (hk : tagged k = true) (s : State) (t : BitVec 2) : (s.setTag k t).tagAt k = t := by
  simp [setTag, tagAt, hk, SMap.get_set]

/-- Waiters wake with the word's new value, and the tag stays as the arrival has left it. -/
theorem tagAt_applyArrived {s : State} {a : Arrived} (hk : tagged a.key = true) : (s.applyArrived a).tagAt a.key = a.tag.getD (s.tagAt a.key) := by
  unfold applyArrived
  extract_lets w t u v x
  have hu : u.tagAt a.key = s.tagAt a.key := by
    unfold u
    rw [setOffsets_eq]
    rfl
  have hv : v.tagAt a.key = a.tag.getD (s.tagAt a.key) := by
    unfold v
    cases a.tag with
    | none => exact hu
    | some t => exact tagAt_setTag_same hk u t
  have hx : x.tagAt a.key = v.tagAt a.key := tagAt_of_tags (tags_of_bare (bare_wakeList _ _ _ _)) _
  rw [← hv]
  split
  · split <;> exact hx
  · rfl

theorem wakeList_none (s : State) (v : Word) (n : Nat) : s.wakeList v n none = s := by
  cases n <;> rfl

/-- Where nothing wakes, an arrival writes its bytes and nothing else to memory. -/
theorem mem_applyArrived {s : State} {a : Arrived} (h : a.wake = false ∨ wbits (s.wordAt a.key) 63 63 ≠ 1) : (s.applyArrived a).mem = (s.setOffsets a.key a.bytes).mem := by
  unfold applyArrived
  extract_lets w t u v x
  have hv : v.mem = u.mem := by
    unfold v
    split
    · exact mem_setTag _ _ _
    · rfl
  split
  next hwake =>
    have free : v.listHead a.key w = none := if_neg (h.resolve_left (by simp [hwake.1]))
    have hx : x = v := by
      unfold x
      rw [free]
      exact wakeList_none _ _ _
    rw [hx]
    split <;> exact hv
  next => exact hv

/-- A word has come to have a tag; the running context, and whether accesses complete by events, are as they were. -/
structure Retagged (s u : State) (k : Nat) (t : BitVec 2) : Prop where
  ctx   : u.ctx = s.ctx
  async : u.async = s.async
  tag   : u.tagAt k = t

theorem retagged_arriveFor {s : State} {k : Nat} (h : s.Settled k) (b : By) (bs : List (Nat × Byte)) (tag : Option (BitVec 2)) (wake : Bool) :
    s.Retagged (s.arriveFor b 0 k bs tag wake) k (tag.getD (s.tagAt k)) := by
  refine ⟨ctx_of_steady (steady_arriveFor _ _ _ _ _ _ _), async_arriveFor _ _ _ _ _ _ _, ?_⟩
  obtain ⟨m, a, now, -, tags, rfl, -, rfl, -⟩ := arriveFor_settled h b bs tag wake
  rw [now, tagAt_of_tags (tags_of_bare (bare_flushDue _)), tagAt_applyArrived h.tagged, tagAt_of_tags tags]

/-- A word written whole, that wakes nobody, reads as it was written. -/
theorem natAt_arriveFor {s : State} {k : Nat} (h : s.Settled k) (b : By) (v : Nat) (tag : Option (BitVec 2)) {wake : Bool} (hwake : wake = false ∨ wbits (s.wordAt k) 63 63 ≠ 1) :
    (s.arriveFor b 0 k (offsets (toBytes 8 v)) tag wake).natAt k 8 = v % 2 ^ 64 := by
  obtain ⟨m, a, now, mem, -, rfl, bytes, -, rfl⟩ := arriveFor_settled h b (offsets (toBytes 8 v)) tag wake
  rw [← wordAt_of_mem mem] at hwake
  rw [now, natAt_of_mem (mem_flushDue _), natAt_of_mem (mem_applyArrived hwake), bytes, setOffsets_offsets]
  exact natAt_setBytes_toBytes _ _ _ _

theorem changeCell_settled {s : State} {k : Nat} (h : s.Settled k) (acc : Access) (t : BitVec 2) (w : Word) :
    s.Retagged (s.changeCell acc k t w) k t ∧ (s.changeCell acc k t w).natAt k 8 = w.toNat := by
  have whole : w.toNat % 2 ^ 64 = w.toNat := Nat.mod_eq_of_lt w.isLt
  unfold changeCell
  split
  · refine ⟨⟨ctx_of_steady ((steady_setWord _ _ _).trans (steady_setTag _ _ _)), (async_of_bare (bare_setBytes _ _ _)).trans (async_setTag _ _ _), ?_⟩, ?_⟩
    · rw [setWord, tagAt_of_tags (tags_of_bare (bare_setBytes _ _ _)), tagAt_setTag_same h.tagged]
    · exact (natAt_setBytes_toBytes _ _ _ _).trans whole
  · exact ⟨retagged_arriveFor h _ _ _ _, (natAt_arriveFor h _ _ _ (.inl rfl)).trans whole⟩

end State

end Sys2Proof.Machine
end

section
/-! PROOF. The cell operations as instructions: their home, the access that reaches it, CMK's FLIGHT before it, and what rd and the word take (R267, R268, R349, R352 to R354). -/

namespace Sys2Proof.Machine.State

open Sys2Proof.Spec

/-! ## At the home (R267, R268) -/

theorem natAt_lt (s : State) (k : Nat) : s.natAt k 8 < 2 ^ 64 := by
  have h := ofBytes_lt (s.bytesAt k 8)
  rwa [bytesAt, List.length_map, List.length_range] at h

theorem wbits_top {n : Nat} (h : n < 2 ^ 64) : wbits (word n) 63 63 = n / 2 ^ 63 := by
  simp only [wbits, bits, word, BitVec.toNat_ofNat]
  omega

theorem serialTag_settled {s : State} (k : Nat) (ha : s.arrived = []) : s.serialTag k = s.tagAt k := by
  simp [serialTag, ha]

theorem serialNat_settled {s : State} (k n : Nat) (ha : s.arrived = []) : s.serialNat k n = s.natAt k n := by
  simp [serialNat, natAt, bytesAt, serialByte_settled _ ha]

/-- Bit 63 of an EMPTY or ECLO word: it has waiters (R264). -/
def waitBit (s : State) (k : Nat) : Nat := if (s.tagAt k).toNat = 1 ∨ (s.tagAt k).toNat = 3 then s.natAt k 8 / 2 ^ 63 else 0

/-- Whether a cell operation refuses the word at a key as it stands. -/
abbrev refuses (s : State) (op k : Nat) : Bool := cellRefused op (s.tagAt k).toNat (s.waitBit k)

/-- The state after a cell operation that is not refused (R268, R274). -/
def cellWritten (s : State) (acc : Access) (op k : Nat) : State :=
  match op with
  | 0 => s.changeCell acc k 2 acc.data
  | 1 => if (s.tagAt k).toNat = 1 then s else s.changeCell acc k 1 0
  | 2 => s.arriveFor (s.byOf acc) 0 k (offsets (toBytes 8 acc.data.toNat)) (if (s.tagAt k).toNat = 0 then none else some 0) (decide ((s.tagAt k).toNat ≠ 0))
  | 3 => s
  | _ => (s.changeCell acc k 2 acc.data).freeEval (wbits (s.wordAt k) 15 0)

theorem shadowHost_here {s : State} {k : Nat} (hk : storage k = .hbm ∨ storage k = .sram) (core : Nat) (bs : List (Nat × Byte)) : s.shadowHost core k bs = s :=
  if_neg (by obtain h | h := hk <;> simp [h])

/-- An answer that says whether it refuses, and the state that goes with it. -/
theorem answer_ite {s u : State} {wq t : Nat} {p : Prop} [Decidable p] {refused : Bool} (h : p ↔ refused = true) :
    (if p then (Answer.value (cellResult true wq t) 0, s) else (.value (cellResult false wq t) 0, u)) = (.value (cellResult refused wq t) 0, if refused then s else u) := by
  cases refused with
  | true => rw [if_pos (h.2 rfl), if_pos rfl]
  | false => rw [if_neg (by simp [h]), if_neg (by simp)]

/-- A cell operation at its home answers refusal, bit 63 and the tag before; a CREVERT that finds waiters is left out. -/
theorem cellAt_settled {s : State} {k op : Nat} (h : s.Settled k) (acc : Access) (hop : op < 5) (hrevert : op = 4 → (s.tagAt k).toNat = 3 → s.waitBit k = 0) :
    s.cellAt acc op k = (.value (cellResult (s.refuses op k) (s.waitBit k) (s.tagAt k).toNat) 0, if s.refuses op k then s else s.cellWritten acc op k) := by
  have waits : (if (s.tagAt k).toNat = 1 ∨ (s.tagAt k).toNat = 3 then wbits (word (s.natAt k 8)) 63 63 else 0) = s.waitBit k := by
    rw [wbits_top (s.natAt_lt k)]
    rfl
  unfold cellAt
  simp only [serialTag_settled k h.arrived, serialNat_settled k 8 h.arrived, waits, shadowHost_here h.memory]
  match op, hop with
  | 0, _ => exact answer_ite (by simp [cellRefused])
  | 1, _ =>
    refine Eq.trans ?_ (answer_ite (p := (s.tagAt k).toNat = 3) (by simp [cellRefused]))
    exact if_congr Iff.rfl rfl (apply_ite (Prod.mk _) _ _ _).symm
  | 2, _ => exact answer_ite (by simp [cellRefused])
  | 3, _ => rfl
  | 4, _ =>
    by_cases eclo : (s.tagAt k).toNat = 3
    · have takes : s.refuses 4 k = false := by simp [cellRefused, eclo]
      rw [takes]
      exact (if_neg (not_not_intro eclo)).trans (if_pos (hrevert rfl eclo))
    · have refused : s.refuses 4 k = true := by simp [cellRefused, eclo]
      rw [refused]
      exact if_pos eclo

/-- What a cell operation has made of a word (R268): nothing where it is refused, reads, or finds EMPTY what it would empty; EMPTY by CEMPTY; VAL by CFILL, with the operand where nobody is woken; CHRY with the operand by CMK and CREVERT. -/
def CellDone (s u : State) (op k : Nat) (v : Word) : Prop :=
  if s.refuses op k = true ∨ op = 3 ∨ (op = 1 ∧ (s.tagAt k).toNat = 1) then (u.tagAt k).toNat = (s.tagAt k).toNat ∧ u.natAt k 8 = s.natAt k 8
  else if op = 1 then u.tagAt k = 1
  else u.tagAt k = (if op = 2 then 0 else 2) ∧ (¬ (op = 2 ∧ s.waitBit k = 1) → u.natAt k 8 = v.toNat)

theorem cellDone_same {s : State} {op k : Nat} (v : Word) (h : s.refuses op k = true ∨ op = 3 ∨ (op = 1 ∧ (s.tagAt k).toNat = 1)) : s.CellDone s op k v := by
  rw [CellDone, if_pos h]
  exact ⟨rfl, rfl⟩

/-- A fill of a VAL word, or of one without waiters, wakes nobody (R271). -/
theorem fill_wakes_nobody {s : State} {k : Nat} (htakes : s.refuses 2 k = false) (hfree : s.waitBit k ≠ 1) : decide ((s.tagAt k).toNat ≠ 0) = false ∨ wbits (s.wordAt k) 63 63 ≠ 1 := by
  have four : (s.tagAt k).toNat < 4 := (s.tagAt k).isLt
  have notChry : (s.tagAt k).toNat ≠ 2 := by simpa [cellRefused] using htakes
  by_cases plain : (s.tagAt k).toNat = 0
  · exact .inl (by simp [plain])
  · right
    rw [wordAt, wbits_top (s.natAt_lt k)]
    rwa [waitBit, if_pos (by omega)] at hfree

/-- CMK and CREVERT leave CHRY and their operand. -/
theorem made_done {s : State} {k op : Nat} (h : s.Settled k) (acc : Access) (hop : op = 0 ∨ op = 4) (htakes : s.refuses op k = false) :
    (s.changeCell acc k 2 acc.data).ctx = s.ctx ∧ (s.changeCell acc k 2 acc.data).async = s.async ∧ s.CellDone (s.changeCell acc k 2 acc.data) op k acc.data := by
  obtain ⟨⟨ctx, async, tag⟩, data⟩ := changeCell_settled h acc 2 acc.data
  refine ⟨ctx, async, ?_⟩
  have writes : ¬ (s.refuses op k = true ∨ op = 3 ∨ (op = 1 ∧ (s.tagAt k).toNat = 1)) := by
    simp only [htakes, Bool.false_eq_true, false_or]
    omega
  rw [CellDone, if_neg writes, if_neg (by omega), if_neg (by omega)]
  exact ⟨tag, fun _ => data⟩

/-- The context and the mode of accesses stay, and the word is as R268 has it. -/
theorem cellWritten_done {s : State} {k op : Nat} (h : s.Settled k) (acc : Access) (hop : op < 5) (htakes : s.refuses op k = false) :
    (s.cellWritten acc op k).ctx = s.ctx ∧ (s.cellWritten acc op k).async = s.async ∧ s.CellDone (s.cellWritten acc op k) op k acc.data := by
  match op, hop with
  | 0, _ => exact made_done h acc (.inl rfl) htakes
  | 1, _ =>
    by_cases empty : (s.tagAt k).toNat = 1
    · have same : s.cellWritten acc 1 k = s := if_pos empty
      rw [same]
      exact ⟨rfl, rfl, cellDone_same _ (.inr (.inr ⟨rfl, empty⟩))⟩
    · have written : s.cellWritten acc 1 k = s.changeCell acc k 1 0 := if_neg empty
      obtain ⟨⟨ctx, async, tag⟩, -⟩ := changeCell_settled h acc 1 0
      rw [written, CellDone, if_neg (by simp [htakes, empty])]
      exact ⟨ctx, async, tag⟩
  | 2, _ =>
    let tag : Option (BitVec 2) := if (s.tagAt k).toNat = 0 then none else some 0
    have zero : tag.getD (s.tagAt k) = 0 := by
      unfold tag
      split
      next plain => exact BitVec.eq_of_toNat_eq plain
      next => rfl
    obtain ⟨ctx, async, filled⟩ := retagged_arriveFor h (s.byOf acc) (offsets (toBytes 8 acc.data.toNat)) tag (decide ((s.tagAt k).toNat ≠ 0))
    refine ⟨ctx, async, ?_⟩
    rw [CellDone, if_neg (by simp [htakes])]
    refine ⟨filled.trans zero, fun hfree => ?_⟩
    exact (natAt_arriveFor h _ _ _ (fill_wakes_nobody htakes (fun one => hfree ⟨rfl, one⟩))).trans (Nat.mod_eq_of_lt acc.data.isLt)
  | 3, _ => exact ⟨rfl, rfl, cellDone_same _ (.inr (.inl rfl))⟩
  | 4, _ => exact made_done h acc (.inr rfl) htakes

/-! ## The access (R349, R353) -/

theorem hostOwns_of_hostHolds {s : State} {k : Nat} (h : s.hostHolds k = none) : s.hostOwns k = none := by
  unfold hostHolds at h
  unfold hostOwns
  split
  next hk =>
    rw [if_pos hk, Option.map_eq_none_iff, List.find?_eq_none] at h
    rw [Option.map_eq_none_iff, List.find?_eq_none]
    intro l hl owned
    rw [Bool.and_eq_true] at owned
    exact h l hl owned.1
  next => rfl

/-- A place where a cell operation is performed at once: with no store on its way, not held by the host, and not poisoned. -/
structure CellPlace (s : State) (k : Nat) : Prop extends s.Settled k where
  inflight : s.inflight = []
  host     : s.hostHolds k = none
  poison   : s.poisoned k 8 = false

/-- A cell operation drops its sector, finds its place, and is performed there. -/
theorem performCell_at {s t : State} {acc : Access} {op k : Nat} {repl : Bool} (h : t.CellPlace k) (hvia : acc.via = none)
    (hlocate : (if acc.core < 16384 then s.dropSector acc.core acc.space acc.va else s).locate acc.core acc.space acc.va 8 (if op = 3 then .read else .write) = (.at k repl, t)) :
    s.performCell acc op = t.cellAt acc op k := by
  have notPooled : storage k ≠ .pooled := by obtain h | h := h.memory <;> simp [h]
  have notHost : storage k ≠ .host := by obtain h | h := h.memory <;> simp [h]
  have mine : t.ownPending acc.core k false = false := by simp [ownPending, h.inflight]
  have free (write : Bool) : (if write then t.hostHolds k else t.hostOwns k) = none := by
    cases write
    · exact hostOwns_of_hostHolds h.host
    · exact h.host
  unfold performCell
  simp only [locateFor, hvia, hlocate, notPooled, notHost, mine, hostAsk, free, h.poison, or_self, false_and, if_false, Bool.false_eq_true]

theorem drainSector_none {s : State} (owner va : Nat) (k : State → State) (h : s.core.combining = []) : s.drainSector owner va k = k s := by
  simp [drainSector, sectorEntries, combining_getCore_here, h, drainList]

/-- An access that is performed at once and has its value delivers it to the running context. -/
theorem issue_value {s t : State} {acc : Access} {lo hi : Word} (hcombining : s.core.combining = []) (hasync : s.async = false) (hperform : s.perform acc = (.value lo hi, t)) (ht : t.async = false) :
    s.issue acc = t.deliver acc lo hi := by
  unfold issue
  rw [drainSector_none _ _ _ hcombining]
  simp [hasync, hperform, settleAnswer, ht]

/-- A cell operation's access, from its issue to its result in rd. -/
theorem issue_cell {s t : State} {acc : Access} {op k : Nat} {repl : Bool} (hcombining : s.core.combining = []) (hasync : s.async = false) (hkind : acc.kind = .cell op) (hvia : acc.via = none) (hop : op < 5) (h : t.CellPlace k)
    (hrevert : op = 4 → (t.tagAt k).toNat = 3 → t.waitBit k = 0)
    (hlocate : (if acc.core < 16384 then s.dropSector acc.core acc.space acc.va else s).locate acc.core acc.space acc.va 8 (if op = 3 then .read else .write) = (.at k repl, t)) :
    (s.issue acc).ctx = retired t.ctx acc.dreg (cellResult (t.refuses op k) (t.waitBit k) (t.tagAt k).toNat) ∧ t.CellDone (s.issue acc) op k acc.data := by
  have ht : t.async = false := by
    have located := async_locate (if acc.core < 16384 then s.dropSector acc.core acc.space acc.va else s) acc.core acc.space acc.va 8 (if op = 3 then .read else .write)
    rw [hlocate] at located
    refine located.trans (Eq.trans ?_ hasync)
    split
    · exact async_dropSector _ _ _ _
    · rfl
  let w := if t.refuses op k then t else t.cellWritten acc op k
  have written : w.ctx = t.ctx ∧ w.async = t.async ∧ t.CellDone w op k acc.data := by
    unfold w
    split
    next refused => exact ⟨rfl, rfl, cellDone_same _ (.inl refused)⟩
    next takes => exact cellWritten_done h.toSettled acc hop (Bool.eq_false_of_not_eq_true takes)
  obtain ⟨ctx, async, done⟩ := written
  have performed : s.perform acc = (.value (cellResult (t.refuses op k) (t.waitBit k) (t.tagAt k).toNat) 0, w) := by
    rw [perform, hkind]
    exact (performCell_at h hvia hlocate).trans (cellAt_settled h.toSettled acc hop hrevert)
  rw [issue_value hcombining hasync performed (async.trans ht)]
  simp only [deliver, hkind, next_wx, ctx, true_and]
  exact done

/-! ## CMK's FLIGHT (R354) -/

/-- A write of the context that its home takes at once. -/
theorem atHome_at {s t : State} {va a : Nat} {repl : Bool} (k : State → Nat → State) (hlocate : s.locate s.coreNo s.owner va 8 .write = (.at a repl, t)) (hpending : t.ownPending t.coreNo a false = false)
    (hhost : t.hostHolds a = none) : s.atHome va k = k t a := by
  simp [atHome, hlocate, hpending, hhost]

/-- FLIGHT is written and seen at once, and what follows leaves the context ready. -/
theorem writeFlight_seen {s t u : State} {va a : Nat} {repl : Bool} (k : State → State) (hfirst : s.ctx.wait ≠ .again 8) (hcombining : s.core.combining = []) (hlocate : s.locate s.coreNo s.owner va 8 .write = (.at a repl, t))
    (hpending : t.ownPending t.coreNo a false = false) (hhost : t.hostHolds a = none) (hplain : t.plainWord a = true) (hseen : (t.putFlight va a).unseen (a + 4) 4 = false)
    (hgoes : k (t.putFlight va a) = u) (hready : u.ctx.wait = .ready) : s.writeFlight va k = u := by
  unfold writeFlight
  split
  next again => exact absurd again hfirst
  next =>
    rw [drainSector_none _ _ _ hcombining, atHome_at _ hlocate hpending hhost]
    simp [hplain, hseen, hgoes, hready]

/-! ## The instruction (R352) -/

theorem answers_cellOp {p : (Nat → Nat → Nat → Instr) × Nat} (hp : p ∈ cellOps) (rd a b : Nat) (s : State) : p.2 < 5 ∧ Answers (p.1 rd a b) s (s.cellOp p.2 rd a b) := by
  simp only [cellOps, List.mem_cons, List.not_mem_nil, or_false] at hp
  obtain rfl | rfl | rfl | rfl | rfl := hp
  · exact ⟨by decide, rfl⟩
  · exact ⟨by decide, rfl⟩
  · exact ⟨by decide, rfl⟩
  · exact ⟨by decide, rfl⟩
  · exact ⟨by decide, rfl⟩

/-- An aligned cell operation whose operand names a packet, where it has to, issues its access; CMK after its FLIGHT. -/
theorem cellOp_issues {s : State} {op a b : Nat} (rd : Nat) (haligned : va57 (s.rx a) % 8 = 0) (hoperand : (op = 0 ∨ op = 4) → wbits (s.rx b) 61 57 = 0 ∧ wbits (s.rx b) 4 0 = 0) :
    s.cellOp op rd a b =
      if op = 0 then s.writeFlight (wbits (s.rx b) 56 5 * 32) (fun t => t.issue (t.access (.cell op) (va57 (s.rx a)) 8 rd (s.rx b) 0))
      else s.issue (s.access (.cell op) (va57 (s.rx a)) 8 rd (s.rx b) 0) := by
  have named : ¬ ((op = 0 ∨ op = 4) ∧ (wbits (s.rx b) 61 57 ≠ 0 ∨ wbits (s.rx b) 4 0 ≠ 0)) := fun ⟨hop, hbad⟩ => by simp [hoperand hop] at hbad
  unfold cellOp
  simp only [aligned, haligned, named, ne_eq, not_true_eq_false, if_false]

end Sys2Proof.Machine.State
end

section
/-! PROOF. The statement about cell operations, from the lemmas about the access and about CMK's FLIGHT. -/

namespace Sys2Proof.Machine

open Sys2Proof.Spec

/-- Settles O25: the access is issued, after FLIGHT for a CMK, and what its home answers and writes is R268's. -/
theorem cellOperationsAnswer : Obligations.CellOperationsAnswer := by
  unfold Obligations.CellOperationsAnswer
  intro p hp rd a b k h repl r2 s s0 s1 t va op tag wq hasync hcombining haligned hoperand hflight hlocate hmemory _ htagged hinflight harrived hunleased hhost hpoison hrevert
  obtain ⟨hop, answers⟩ := State.answers_cellOp hp rd a b s
  have place : t.CellPlace k := ⟨⟨hmemory, htagged, harrived, hunleased⟩, hinflight, hhost, hpoison⟩
  have here : s1.core.combining = [] ∧ s1.async = false ∧ s1.coreNo = s.coreNo ∧ s1.owner = s.owner := by
    split at hflight
    next =>
      obtain ⟨-, -, -, -, -, -, -, combining, async, core, owner⟩ := hflight
      exact ⟨combining, async, core, owner⟩
    next =>
      rw [hflight]
      exact ⟨hcombining, hasync, rfl, rfl⟩
  obtain ⟨combining, async, core, owner⟩ := here
  rw [← core, ← owner] at hlocate
  let acc := s1.access (.cell op) (va57 (s.rx a)) 8 rd (s.rx b) 0
  obtain ⟨ctx, done⟩ := State.issue_cell (acc := acc) combining async rfl rfl hop place hrevert hlocate
  have ready : (s1.issue acc).ctx.wait = .ready := congrArg Ctx.wait ctx
  have reaches : s.cellOp op rd a b = s1.issue acc := by
    rw [State.cellOp_issues rd haligned hoperand]
    split at hflight
    next make =>
      obtain ⟨hfirst, hplace, hpending, hheld, hplain, rfl, hseen, -⟩ := hflight
      rw [if_pos make]
      exact State.writeFlight_seen _ hfirst hcombining hplace hpending hheld hplain hseen rfl ready
    next other =>
      subst hflight
      exact if_neg other
  have result : State.cellResult (t.refuses op k) (t.waitBit k) (t.tagAt k).toNat = BitVec.ofNat 64 (bit (cellRefused op tag wq) * 2 ^ 63 + 4 * wq + tag) := by
    rw [Nat.mul_comm 4 wq]
    rfl
  exact ⟨s1.issue acc, answers_of_eq answers reaches, ctx.trans (congrArg (retired t.ctx rd) result), done⟩

end Sys2Proof.Machine
end
